-- ==== Sys2Proof/Word.lean ====
section
/-!
DEFINITION. Sys2Proof/Word.lean: the words of the block (R51, R75, R318): 64-bit registers, 128-bit flits, and the
two parts a command can address (R1).
-/
namespace Sys2Proof

/-- A register, a word of a record or a word of memory (64 bits). -/
abbrev Word := BitVec 64
/-- One flit of a step link (R75). -/
abbrev Flit := BitVec 128
/-- A packet as it travels: its first flit and its body flits (R77). -/
abbrev Pkt := List Flit

/-- The two parts of Fletar (R1). -/
inductive Part where
  | garja
  | elzel
deriving DecidableEq, Repr, Inhabited

end Sys2Proof
end

