-- ==== Sys2Proof/Syntax.lean ====
section
/-!
DEFINITION. Sys2Proof/Syntax.lean: the commands the block takes, one constructor per row of spec/opcode_table.json, with
the operands the outside supplies: who asks, the data of a register write, a packet, a stamp, an observation of a pin.
-/
namespace Sys2Proof

/-- Who issues an access (R169, R204, R339): a tile, a management processor, a command from an Elzel (OWNER 8),
the debug path (OWNER 9), or, for Elzel, the host. -/
inductive Requester where
  | tile (t : BitVec 12)
  | proc (p : BitVec 3)
  | elzel
  | debug
  | host
deriving DecidableEq, Repr, Inhabited

/-- The path a command packet came by (R338): a queue pair or a step link port. -/
inductive CmdSrc where
  | queue (q : BitVec 10)
  | port (p : BitVec 7)
deriving DecidableEq, Repr, Inhabited

/-- What the header of a command gives beside its body (R340): its path, its tag and its level; for a command that came in a
packet, ROUTED and SRC of the packet (R91), which its reply returns to. -/
structure Order where
  src : CmdSrc
  tag : BitVec 16
  lvl : BitVec 8
  routed : Bool
  sender : BitVec 18
deriving DecidableEq, Repr, Inhabited

/-- An input edge of an interpolator channel (R53, R54): the code of the live line, its direction, the GT of the TCLK edge
before it, the sampling DCLK edge after that TCLK edge in 1/1664 ns, and that TCLK period in 1/128 ns. -/
structure TdcEdge where
  code : BitVec 7
  falling : Bool
  gtN : Word
  fracN : BitVec 32
  ts : BitVec 16
  period : BitVec 9
deriving DecidableEq, Repr, Inhabited

/-- What the selector sees of a source at a tick (R102): the input present, the 10 MHz present, the 1PPS edge near a 10 MHz
edge, and the frequency error in ppb measured over the last second. -/
structure SrcObs where
  present : Bool
  tenMHz : Bool
  near10 : Bool
  freqPpb : BitVec 32
deriving DecidableEq, Repr, Inhabited

/-- The kinds of IEEE 1588 message (R143, R144). -/
inductive PtpKind where
  | sync
  | followUp
  | announce
  | delayReq
  | delayResp
  | pdelayReq
  | pdelayResp
  | pdelayRespFollowUp
  | management
  | signalling
deriving DecidableEq, Repr, Inhabited

/-- The values a grandmaster advertises (R146). -/
structure PtpValues where
  clockClass : BitVec 8
  accuracy : BitVec 8
  timeSource : BitVec 8
  local_ : Bool
deriving DecidableEq, Repr, Inhabited

/-- A received IEEE 1588 message: its kind, whether it is one R143 supports, its sender, for Announce the data that the best
master clock algorithm compares, and the receive stamp (GT integer and 2^-16 ns). -/
structure PtpMsg where
  kind : PtpKind
  supported : Bool
  sender : BitVec 80
  prio1 : BitVec 8
  clockClass : BitVec 8
  accuracy : BitVec 8
  variance : BitVec 16
  prio2 : BitVec 8
  mpd : BitVec 32
  stamp : BitVec 80
deriving DecidableEq, Repr, Inhabited

/-- One entry of a stage set (R277): its three words. -/
structure StgEntry where
  w0 : Word
  w1 : Word
  w2 : Word
deriving DecidableEq, Repr, Inhabited

/-- One poll of the power shelf over PMBus (R291, R292), its words as read: whether it completed and how many transactions failed,
STATUS_WORD of page 0, READ_VOUT and VOUT_MODE, READ_POUT of page 0 and of page 1, whether page 1 reports charging, and what the
MFR_SPECIFIC commands gave. At a domain-A root that is no leaf it is the report of another rack's leaf, with that rack and its
P_MAX in 10 W. -/
structure ShelfPoll where
  ok : Bool
  failed : BitVec 8
  status : BitVec 16
  vout : BitVec 16
  voutMode : BitVec 8
  pout : BitVec 16
  pStore : BitVec 16
  charging : Bool
  soc : BitVec 16
  tau : BitVec 16
  pBuf : BitVec 16
  eBuf : BitVec 16
  rack : BitVec 12
  pMax : BitVec 16
deriving DecidableEq, Repr, Inhabited

/-- A tally record of a leaf for one mismatched step (R359). -/
structure TallyRec where
  leaf : BitVec 18
  job : BitVec 12
  step : BitVec 48
  counts : List (Word × BitVec 19)
deriving DecidableEq, Repr, Inhabited

/-- What a check finds in a firmware image (R454): its digest and its signature, and the levels of its header. -/
structure FwImage where
  digestOk : Bool
  sigOk : Bool
  level : BitVec 16
  lvlMin : BitVec 8
  lvlMax : BitVec 8
deriving DecidableEq, Repr, Inhabited

/-- What a check finds in a configuration block (R455): its signature, its SEQ and its entries. -/
structure FwConfig where
  sigOk : Bool
  seq : BitVec 32
  entries : List StgEntry
deriving DecidableEq, Repr, Inhabited

/-- The target of an Elzmon command (R466): this Elzel, or a die by its coordinate, through a downstream port. -/
structure MonTarget where
  own : Bool
  level : BitVec 2
  coord : BitVec 18
deriving DecidableEq, Repr, Inhabited


/-- The commands of the block: one constructor per row of the table, in the table's order. -/
inductive Instr where
  /-- GJ_PORST_N (R416) -/
  | gjPorstN
  /-- EZ_PORST_N (R456) -/
  | ezPorstN (straps : BitVec 8) (uartBreak : Bool) (hbmOk : Bool)
  /-- RESET_ENGINE (R376) -/
  | resetEngine (u : Part) (r : Requester) (sub : BitVec 5)
  /-- RESET_CONTEXT (R205) -/
  | resetContext (u : Part) (r : Requester) (ctx : BitVec 8)
  /-- RESET_PARTITION (R377) -/
  | resetPartition (u : Part) (r : Requester) (part : BitVec 8)
  /-- RESET_UNIT (R376) -/
  | resetUnit (u : Part) (r : Requester)
  /-- COLD_RESET (R389) -/
  | coldReset (u : Part) (r : Requester)
  /-- POWER_GOOD_TIMEOUT (R389) -/
  | powerGoodTimeout (u : Part)
  /-- CAPTURE_ONLY (R393) -/
  | captureOnly (u : Part) (r : Requester)
  /-- CAPSULE_CAPTURE_DONE (R394) -/
  | capsuleCaptureDone (u : Part)
  /-- RESET_DONE (R380) -/
  | resetDone (u : Part)
  /-- RESET_BOUND_OVER (R380) -/
  | resetBoundOver (u : Part)
  /-- CAP_DATA_READ (R394) -/
  | capDataRead (u : Part)
  /-- REGISTER_WRITE (R6) -/
  | registerWrite (u : Part) (r : Requester) (off : BitVec 24) (mask : Word) (data : Word)
  /-- GT_READ (R51) -/
  | gtRead
  /-- HT_SEC_READ (R127) -/
  | htSecRead
  /-- TB_ADJ_WRITE (R32) -/
  | tbAdjWrite (u : Part) (delta : Word)
  /-- TB_INCR_WRITE (R30) -/
  | tbIncrWrite (u : Part) (data : Word)
  /-- TB_STEER_WRITE (R34) -/
  | tbSteerWrite (u : Part) (data : Word)
  /-- STEER_STEP (R34) -/
  | steerStep (u : Part)
  /-- FORCE_HOLD_WRITE (R35) -/
  | forceHoldWrite (u : Part) (v : Bool)
  /-- CLKFIX_WRITE (R47) -/
  | clkfixWrite (v : Bool)
  /-- SERVO_UPDATE (R123) -/
  | servoUpdate (u : Part) (p : BitVec 7) (theta : BitVec 48)
  /-- EPOCH_MARK (R40) -/
  | epochMark (u : Part)
  /-- HOLD_EXPIRED (R35) -/
  | holdExpired (u : Part)
  /-- REFCLK_MEASURE (R117) -/
  | refclkMeasure (ratio : BitVec 32)
  /-- HOLD_PAUSE (R118) -/
  | holdPause (ctx : BitVec 8)
  /-- LAUNCH (R257) -/
  | launch (ctx : BitVec 8)
  /-- LAUNCH_MISSED (R259) -/
  | launchMissed (ctx : BitVec 8)
  /-- REGION_TICK (R43) -/
  | regionTick (n : BitVec 6) (stretch : Bool)
  /-- RGN_STRETCH_RISE (R46) -/
  | rgnStretchRise (n : BitVec 6)
  /-- TDC_EDGE (R53) -/
  | tdcEdge (u : Part) (ch : BitVec 7) (e : TdcEdge)
  /-- STAMP_AGE_DISCARD (R57) -/
  | stampAgeDiscard (u : Part) (ch : BitVec 7)
  /-- TDC_FIFO_READ (R57) -/
  | tdcFifoRead (u : Part) (ch : BitVec 7)
  /-- CALIBRATION_START (R59) -/
  | calibrationStart (u : Part) (ch : BitVec 7) (dllCode : BitVec 10)
  /-- TDC_CAL_FORCE (R59) -/
  | tdcCalForce (u : Part)
  /-- CALIBRATION_DONE (R60) -/
  | calibrationDone (u : Part) (ch : BitVec 7) (hits : List (BitVec 24)) (locked : Bool) (inTime : Bool)
  /-- LINE_SWAP (R62) -/
  | lineSwap (u : Part) (ch : BitVec 7)
  /-- TDC_DISABLE (R72) -/
  | tdcDisable (u : Part) (ch : BitVec 7)
  /-- SS_ARM_WRITE (R63) -/
  | ssArmWrite (u : Part) (ch : BitVec 7) (r : Requester) (data : Word)
  /-- SS_TIMEOUT (R64) -/
  | ssTimeout (u : Part) (ch : BitVec 7)
  /-- FREQ_ARM_WRITE (R66) -/
  | freqArmWrite (u : Part) (ch : BitVec 7) (r : Requester) (data : Word)
  /-- FREQ_TIMEOUT (R67) -/
  | freqTimeout (u : Part) (ch : BitVec 7)
  /-- PORT_EN_WRITE (R89) -/
  | portEnWrite (u : Part) (p : BitVec 7) (en : Bool)
  /-- RETRAIN (R89) -/
  | retrain (u : Part) (p : BitVec 7)
  /-- SIGNAL_DETECT (R89) -/
  | signalDetect (u : Part) (p : BitVec 7)
  /-- CDR_LOCK (R89) -/
  | cdrLock (u : Part) (p : BitVec 7)
  /-- ALIGN_DONE (R89) -/
  | alignDone (u : Part) (p : BitVec 7)
  /-- TRAIN (R89) -/
  | train (u : Part) (p : BitVec 7) (pkt : Pkt)
  /-- TRAIN_SEND (R89) -/
  | trainSend (u : Part) (p : BitVec 7)
  /-- TRAIN_TIMEOUT (R89) -/
  | trainTimeout (u : Part) (p : BitVec 7)
  /-- LOSS_OF_SIGNAL (R98) -/
  | lossOfSignal (u : Part) (p : BitVec 7) (reason : BitVec 4)
  /-- BLOCK_RECEIVED (R86) -/
  | blockReceived (u : Part) (p : BitVec 7) (badHdr : BitVec 8) (flits : List (BitVec 128)) (trailer : Flit)
  /-- REPLAY_TIMER (R87) -/
  | replayTimer (u : Part) (p : BitVec 7)
  /-- TICK_DUE (R93) -/
  | tickDue (u : Part) (p : BitVec 7) (depart : BitVec 80)
  /-- TICK (R94) -/
  | tick (u : Part) (p : BitVec 7) (flit : Flit) (stamp : BitVec 80) (depart : BitVec 80)
  /-- CAL_DUE (R472) -/
  | calDue (u : Part) (p : BitVec 7)
  /-- CAL (R472) -/
  | cal (u : Part) (p : BitVec 7) (flit : Flit)
  /-- SIG_ROUTE (R80) -/
  | sigRoute (p : BitVec 7) (flit : Flit)
  /-- SIG (R185) -/
  | sig (p : BitVec 7) (flit : Flit)
  /-- ARRIVE (R214) -/
  | arrive (p : BitVec 7) (pkt : Pkt)
  /-- ARRIVE_X (R244) -/
  | arriveX (p : BitVec 7) (pkt : Pkt)
  /-- APEX_RELEASE (R218) -/
  | apexRelease (job : BitVec 12)
  /-- BAR_DEADLINE (R227) -/
  | barDeadline (job : BitVec 12)
  /-- RELEASE_FORWARD (R218) -/
  | releaseForward (p : BitVec 7) (pkt : Pkt)
  /-- RELEASE (R228) -/
  | release (p : BitVec 7) (pkt : Pkt)
  /-- RELEASE_RECORD_ACK (R269) -/
  | releaseRecordAck (ctx : BitVec 8) (ok : Bool)
  /-- SQUASH_RESTORE (R270) -/
  | squashRestore (ctx : BitVec 8)
  /-- EVENT (R333) -/
  | event (p : BitVec 7) (pkt : Pkt)
  /-- DISC_DOWN (R17) -/
  | discDown (u : Part) (p : BitVec 7) (pkt : Pkt)
  /-- DISC_UP (R18) -/
  | discUp (p : BitVec 7) (pkt : Pkt)
  /-- DISC_SUM (R17) -/
  | discSum (p : BitVec 7) (pkt : Pkt)
  /-- DISC_TIMEOUT (R18) -/
  | discTimeout (p : BitVec 7)
  /-- CMD (R345) -/
  | cmd (u : Part) (p : BitVec 7) (pkt : Pkt)
  /-- REPLY (R351) -/
  | reply (p : BitVec 7) (pkt : Pkt)
  /-- CMD_FORWARD_TIMEOUT (R351) -/
  | cmdForwardTimeout (idx : BitVec 12)
  /-- DEBUG (R467) -/
  | debug (u : Part) (p : BitVec 7) (pkt : Pkt)
  /-- SELECTOR_TICK (R106) -/
  | selectorTick (obs : List SrcObs)
  /-- REF_UPDATE (R110) -/
  | refUpdate (src : BitVec 3) (e : BitVec 48) (offset : BitVec 48)
  /-- QUAL_TIME_EXPIRED (R103) -/
  | qualTimeExpired (src : BitVec 3)
  /-- REF_HOLDOFF_EXPIRED (R105) -/
  | refHoldoffExpired (src : BitVec 3)
  /-- WTR_EXPIRED (R107) -/
  | wtrExpired
  /-- REF_ACCEPT (R109) -/
  | refAccept (src : BitVec 3)
  /-- LOOP_OPEN_WRITE (R113) -/
  | loopOpenWrite (isOpen : Bool) (freeze : Bool)
  /-- DCO_TRIM_WRITE (R113) -/
  | dcoTrimWrite (trim : BitVec 32)
  /-- OCXO_COMPARE (R101) -/
  | ocxoCompare (ppb : BitVec 32)
  /-- HOLD_SPEC_END (R115) -/
  | holdSpecEnd
  /-- HT_CARRY (R128) -/
  | htCarry
  /-- REALIGN_WRITE (R134) -/
  | realignWrite
  /-- MOVE_WAIT_EXPIRED (R137) -/
  | moveWaitExpired (job : BitVec 12) (chip : BitVec 18)
  /-- PTP_SYNC (R145) -/
  | ptpSync (p : BitVec 7) (offset : BitVec 48) (mpd : BitVec 32)
  /-- PTP_MESSAGE (R148) -/
  | ptpMessage (p : BitVec 7) (msg : PtpMsg)
  /-- PTP_CLASS_FETCH (R147) -/
  | ptpClassFetch (p : BitVec 7) (answer : Option PtpValues)
  /-- TXQ_ENQUEUE (R152) -/
  | txqEnqueue (p : BitVec 7) (d1 : Word)
  /-- TXQ_DESCRIPTOR_HEAD (R154) -/
  | txqDescriptorHead (p : BitVec 7)
  /-- TIMED_FRAME_LAUNCH (R153) -/
  | timedFrameLaunch (p : BitVec 7)
  /-- FRAME_TRANSMITTED (R150) -/
  | frameTransmitted (p : BitVec 7) (stamp : BitVec 80)
  /-- ETS_READ (R150) -/
  | etsRead (p : BitVec 7)
  /-- TX_STAMP_AGE_DISCARD (R150) -/
  | txStampAgeDiscard (p : BitVec 7)
  /-- PPS_OUTPUT (R156) -/
  | ppsOutput (stamp : BitVec 80) (tenErr : BitVec 32)
  /-- STEP_PULSE (R159) -/
  | stepPulse (stamp : BitVec 80)
  /-- SPULSE_ENABLE (R158) -/
  | spulseEnable (data : Word)
  /-- SPULSE_REALIGN (R160) -/
  | spulseRealign (data : Word)
  /-- EPOCH_MODE_WRITE (R161) -/
  | epochModeWrite (tai : Bool)
  /-- SEM_ADD (R167) -/
  | semAdd (r : Requester) (ctx : BitVec 8) (data : Word)
  /-- SEM_SUB (R167) -/
  | semSub (r : Requester) (ctx : BitVec 8) (data : Word)
  /-- SEM_SET (R167) -/
  | semSet (r : Requester) (ctx : BitVec 8) (data : Word)
  /-- SEM_TRY (R167) -/
  | semTry (r : Requester) (ctx : BitVec 8) (data : Word)
  /-- FLAG_SET (R167) -/
  | flagSet (r : Requester) (ctx : BitVec 8) (data : Word)
  /-- FLAG_CLR (R167) -/
  | flagClr (r : Requester) (ctx : BitVec 8) (data : Word)
  /-- FLAG_MODE (R167) -/
  | flagMode (r : Requester) (ctx : BitVec 8) (data : Word)
  /-- FLAG_TRY (R167) -/
  | flagTry (r : Requester) (ctx : BitVec 8) (data : Word)
  /-- WAIT_GE (R172) -/
  | waitGe (r : Requester) (ctx : BitVec 8) (data : Word)
  /-- WAIT_GE_C (R172) -/
  | waitGeC (r : Requester) (ctx : BitVec 8) (data : Word)
  /-- WAIT_EQ (R172) -/
  | waitEq (r : Requester) (ctx : BitVec 8) (data : Word)
  /-- WAIT_FLAG (R172) -/
  | waitFlag (r : Requester) (ctx : BitVec 8) (data : Word)
  /-- GRANT_PASS (R173) -/
  | grantPass (obj : BitVec 17)
  /-- RESULT_WORD_READ (R176) -/
  | resultWordRead (tile : BitVec 12) (ctx : BitVec 8)
  /-- SO_TIMEOUT (R182) -/
  | soTimeout (slot : BitVec 13)
  /-- OBJECT_WINDOW_WRITE (R189) -/
  | objectWindowWrite (r : Requester) (ctx : BitVec 8) (obj : BitVec 17) (data : Word)
  /-- WAITER_SLOT_CAPTURE (R190) -/
  | waiterSlotCapture (slot : BitVec 13)
  /-- TAP_PRESENT (R430) -/
  | tapPresent (tap : BitVec 4) (addr : Word) (op : BitVec 8) (val : BitVec 32)
  /-- TAP_WACK (R50) -/
  | tapWack (tap : BitVec 4) (err : Bool)
  /-- TAP_VALID_LOW (R430) -/
  | tapValidLow (tap : BitVec 4)
  /-- ACTIVATE (R193) -/
  | activate (r : Requester) (ctx : BitVec 8) (gen : BitVec 8) (useGen : Bool)
  /-- PARK (R201) -/
  | park (r : Requester) (ctx : BitVec 8) (freeze : Bool)
  /-- PARK_COMPLETE (R201) -/
  | parkComplete (ctx : BitVec 8)
  /-- RESUME (R203) -/
  | resume (r : Requester) (ctx : BitVec 8) (keep : Bool)
  /-- TEARDOWN (R197) -/
  | teardown (r : Requester) (ctx : BitVec 8)
  /-- ABANDON (R205) -/
  | abandon (r : Requester) (ctx : BitVec 8)
  /-- DRAIN_COMPLETE (R198) -/
  | drainComplete (ctx : BitVec 8)
  /-- DRAIN_FORCED (R200) -/
  | drainForced (ctx : BitVec 8)
  /-- CLEARING_DONE (R206) -/
  | clearingDone (ctx : BitVec 8)
  /-- FUNCTION_DISABLE (R208) -/
  | functionDisable (fn : BitVec 5)
  /-- FUNCTION_DRAINED (R208) -/
  | functionDrained (fn : BitVec 5)
  /-- FUNCTION_FORCED_OFF (R208) -/
  | functionForcedOff (fn : BitVec 5)
  /-- STEP (R251) -/
  | step (ctx : BitVec 8)
  /-- SLACK (R251) -/
  | slack (ctx : BitVec 8)
  /-- SOP (R252) -/
  | sop (ctx : BitVec 8)
  /-- SWAIT (R252) -/
  | swait (ctx : BitVec 8)
  /-- SIGOUT (R252) -/
  | sigout (ctx : BitVec 8)
  /-- ARRIVE_INSTRUCTION (R253) -/
  | arriveInstruction (ctx : BitVec 8)
  /-- ARRIVE_READ_DONE (R213) -/
  | arriveReadDone (ctx : BitVec 8) (ok : Bool)
  /-- BR (R254) -/
  | br (ctx : BitVec 8)
  /-- SETLC (R251) -/
  | setlc (ctx : BitVec 8)
  /-- MARK (R251) -/
  | mark (ctx : BitVec 8)
  /-- HALT (R251) -/
  | halt (ctx : BitVec 8)
  /-- NOP (R251) -/
  | nop (ctx : BitVec 8)
  /-- START (R250) -/
  | start (o : Order) (ctx : BitVec 8) (pc : BitVec 12) (s1 : BitVec 48)
  /-- DEADLINE_STEP (R260) -/
  | deadlineStep (ctx : BitVec 8)
  /-- RELWAIT (R261) -/
  | relwait (ctx : BitVec 8)
  /-- PROGRAM_DATA_ACCESS (R249) -/
  | programDataAccess (write : Bool) (data : Word)
  /-- STG_OPEN (R279) -/
  | stgOpen (u : Part) (o : Order) (change : BitVec 32) (kind : BitVec 2) (scope : BitVec 12) (sEff : BitVec 48)
  /-- STG_ADD (R279) -/
  | stgAdd (u : Part) (o : Order) (change : BitVec 32) (entries : List StgEntry)
  /-- STG_PREPARE (R280) -/
  | stgPrepare (u : Part) (o : Order) (change : BitVec 32) (t : Word) (fp : Word)
  /-- STG_COMMIT (R279) -/
  | stgCommit (u : Part) (o : Order) (change : BitVec 32)
  /-- STG_ABORT (R279) -/
  | stgAbort (u : Part) (o : Order) (change : BitVec 32)
  /-- STG_QUERY (R279) -/
  | stgQuery (u : Part) (o : Order) (change : BitVec 32)
  /-- STAGE_APPLICATION_POINT (R283) -/
  | stageApplicationPoint (u : Part) (set : BitVec 5)
  /-- STAGE_APPLY_END (R284) -/
  | stageApplyEnd (u : Part) (set : BitVec 5)
  /-- STAGE_ORPHAN (R285) -/
  | stageOrphan (u : Part) (set : BitVec 5)
  /-- COMMIT_LEAD_EXPIRED (R286) -/
  | commitLeadExpired (change : BitVec 32)
  /-- SHELF_POLL (R291) -/
  | shelfPoll (raw : ShelfPoll)
  /-- PWR_TELEM_LOST (R294) -/
  | pwrTelemLost
  /-- POLL_TAKEOVER (R293) -/
  | pollTakeover
  /-- POLL_RESUME_REQUEST (R293) -/
  | pollResumeRequest
  /-- RAMP_ARM (R297) -/
  | rampArm (data : Word)
  /-- RAMP_START (R297) -/
  | rampStart
  /-- RAMP_LEVEL_STEP (R297) -/
  | rampLevelStep
  /-- PWR_REQ_RISE (R299) -/
  | pwrReqRise
  /-- PWR_SLOT (R299) -/
  | pwrSlot
  /-- PWR_REQ_FALL (R299) -/
  | pwrReqFall
  /-- POWER_STATE_ENTRY (R307) -/
  | powerStateEntry
  /-- WAKE (R310) -/
  | wake (cause : BitVec 4)
  /-- BURROW_RELOCK (R312) -/
  | burrowRelock
  /-- LTR_WRITE (R308) -/
  | ltrWrite (data : Word)
  /-- QUIET_ENTRY (R315) -/
  | quietEntry
  /-- DEN_ONLY_REQUEST (R315) -/
  | denOnlyRequest (force : Bool)
  /-- DEN_ONLY_WAKE (R316) -/
  | denOnlyWake (cause : BitVec 4)
  /-- THERMAL_SAMPLE (R447) -/
  | thermalSample (tj : BitVec 16)
  /-- COMBINE_CLOCK_CHANGE (R449) -/
  | combineClockChange
  /-- HALF_EXIT_TIMER (R447) -/
  | halfExitTimer
  /-- THERMAL_TRIP (R449) -/
  | thermalTrip
  /-- EVENT_RECORD_WRITE (R322) -/
  | eventRecordWrite (u : Part) (ring : BitVec 6) (ok : Bool)
  /-- RECORD_AGE_DROP (R325) -/
  | recordAgeDrop (u : Part) (ring : BitVec 6)
  /-- RING_ENABLE (R323) -/
  | ringEnable (u : Part) (ring : BitVec 6)
  /-- MESSAGE_DELIVERY (R328) -/
  | messageDelivery
  /-- EOI (R329) -/
  | eoi (proc : BitVec 3) (msgSrc : BitVec 5)
  /-- MSG_RAISE (R327) -/
  | msgRaise (bits : BitVec 8)
  /-- IRQ_PEND_CLEAR (R331) -/
  | irqPendClear (u : Part) (bits : BitVec 16)
  /-- DEN_WATCH (R332) -/
  | denWatch (u : Part) (reason : BitVec 2)
  /-- RING_DOORBELL (R334) -/
  | ringDoorbell (ring : BitVec 6) (data : Word)
  /-- SQ_TAIL_WRITE (R342) -/
  | sqTailWrite (u : Part) (q : BitVec 10) (tail : BitVec 32)
  /-- CQ_DOORBELL (R343) -/
  | cqDoorbell (q : BitVec 10) (data : Word)
  /-- QUEUE_ENABLE (R342) -/
  | queueEnable (u : Part) (q : BitVec 10)
  /-- NOP_CMD (R347) -/
  | nopCmd (u : Part) (o : Order)
  /-- IDENTIFY (R347) -/
  | identify (u : Part) (o : Order)
  /-- REG_READ (R347) -/
  | regRead (u : Part) (o : Order) (off : BitVec 24) (nm1 : BitVec 4)
  /-- REG_WRITE (R347) -/
  | regWrite (u : Part) (o : Order) (off : BitVec 24) (mask : Word) (data : Word)
  /-- JOB_SUBMIT (R348) -/
  | jobSubmit (o : Order) (job : BitVec 12) (ctx : BitVec 8) (change : BitVec 32) (addr : Word) (len : BitVec 32) (dpDie : BitVec 16) (tReq : Word) (fp : Word)
  /-- JOB_CHANGE (R348) -/
  | jobChange (o : Order) (job : BitVec 12) (ctx : BitVec 8) (change : BitVec 32) (addr : Word) (len : BitVec 32) (fp : Word)
  /-- JOB_END (R303) -/
  | jobEnd (o : Order) (job : BitVec 12) (change : BitVec 32) (sLast : BitVec 48)
  /-- BAR_MOVE (R137) -/
  | barMove (o : Order) (job : BitVec 12) (domain : Bool)
  /-- DISCOVER (R17) -/
  | discover (o : Order) (mask : Word)
  /-- DIE_WAKE (R313) -/
  | dieWake (o : Order) (port : BitVec 6)
  /-- TXQ_SUBMIT (R152) -/
  | txqSubmit (o : Order) (port : Bool) (addr : Word) (d0 : Word) (d1 : Word)
  /-- TXQ_STAMP (R347) -/
  | txqStamp (o : Order) (port : Bool) (nm1 : BitVec 3)
  /-- HEALTH_READ (R363) -/
  | healthRead (o : Order) (chip : BitVec 18)
  /-- OWL_PAIR (R366) -/
  | owlPair (o : Order) (job : BitVec 12) (en : Bool) (chipA : BitVec 18) (chipB : BitVec 18)
  /-- ROLLBACK (R372) -/
  | rollback (o : Order) (job : BitVec 12) (step : BitVec 48)
  /-- JRNL_COPY (R356) -/
  | jrnlCopy (o : Order) (region : BitVec 4) (off64 : Word) (addr : Word) (len : BitVec 32)
  /-- CAPSULE_READ (R397) -/
  | capsuleRead (o : Order) (own : Bool) (chip : BitVec 18) (addr : Word) (len : BitVec 32)
  /-- HLT_TALLY (R359) -/
  | hltTally (rec : TallyRec)
  /-- HLT_UNATTRIBUTED (R359) -/
  | hltUnattributed (job : BitVec 12) (step : BitVec 48)
  /-- HLT_REF_WRITE (R359) -/
  | hltRefWrite (digest : Word)
  /-- OWL_DIGESTS (R366) -/
  | owlDigests (k : BitVec 6) (isOwl : Bool) (step : BitVec 48) (digests : List (BitVec 64))
  /-- OWL_NOSTART (R367) -/
  | owlNostart (k : BitVec 6)
  /-- OWL_CLEARED (R367) -/
  | owlCleared (k : BitVec 6)
  /-- SCORE_DECAY (R364) -/
  | scoreDecay
  /-- CKPT_HANDLE_WRITE (R371) -/
  | ckptHandleWrite (handle : Word)
  /-- SPARE_TRIAL (R373) -/
  | spareTrial (k : BitVec 6)
  /-- SPARE_MAP_PRESENT (R433) -/
  | spareMapPresent (tiles : List (BitVec 12)) (used : BitVec 8)
  /-- SPARE_MAP_TAKE (R370) -/
  | spareMapTake
  /-- SPARE_MAP_DONE (R433) -/
  | spareMapDone
  /-- HEARTBEAT (R384) -/
  | heartbeat (u : Part)
  /-- HB_SUMMARY (R385) -/
  | hbSummary
  /-- DEN_BEAT (R386) -/
  | denBeat
  /-- FW_VERIFY (R461) -/
  | fwVerify
  /-- FW_PROGRAM (R461) -/
  | fwProgram
  /-- FW_CONFIG (R461) -/
  | fwConfig
  /-- FW_OP_DONE (R461) -/
  | fwOpDone (ok : Bool)
  /-- MONITOR_VERIFY (R464) -/
  | monitorVerify (img : FwImage)
  /-- MONITOR_PROGRAM (R464) -/
  | monitorProgram (img : FwImage)
  /-- MONITOR_CONFIG (R464) -/
  | monitorConfig (blk : FwConfig)
  /-- MONITOR_STATUS (R464) -/
  | monitorStatus
  /-- ELZMON_ID (R466) -/
  | elzmonId (target : MonTarget)
  /-- ELZMON_TIME (R466) -/
  | elzmonTime
  /-- ELZMON_REF (R466) -/
  | elzmonRef
  /-- ELZMON_PORTS (R466) -/
  | elzmonPorts
  /-- ELZMON_BIND (R466) -/
  | elzmonBind
  /-- ELZMON_EVT (R466) -/
  | elzmonEvt (count : BitVec 4)
  /-- ELZMON_RD (R466) -/
  | elzmonRd (off : BitVec 24) (nm1 : BitVec 4)
  /-- ELZMON_WR (R466) -/
  | elzmonWr (off : BitVec 24) (data : Word)
  /-- ELZMON_GJ_RD (R466) -/
  | elzmonGjRd (target : MonTarget) (off : BitVec 24)
  /-- ELZMON_GJ_WR (R466) -/
  | elzmonGjWr (target : MonTarget) (off : BitVec 24) (data : Word)
  /-- ELZMON_GJ_OBJ (R466) -/
  | elzmonGjObj (target : MonTarget) (ctx : BitVec 8) (obj : BitVec 17) (wr : Option Word)
  /-- ELZMON_GJ_DB (R466) -/
  | elzmonGjDb (target : MonTarget) (ctx : BitVec 8) (op : BitVec 8) (data : Word)
  /-- ELZMON_GJ_CAP (R466) -/
  | elzmonGjCap (target : MonTarget)
  /-- ELZMON_RST (R466) -/
  | elzmonRst (target : MonTarget) (level : BitVec 3) (arg : BitVec 8)
  /-- ELZMON_FW_STATUS (R466) -/
  | elzmonFwStatus
  /-- ELZMON_FW_PROGRAM (R466) -/
  | elzmonFwProgram (img : FwImage)
  /-- BLOCK_TRANSMIT (R82) -/
  | blockTransmit (u : Part) (p : BitVec 7)
  /-- DIGEST_VALID_LATCH (R432) -/
  | digestValidLatch (digest : Word)
  /-- EVT_IN_EDGE_LATCH (R330) -/
  | evtInEdgeLatch (pin : BitVec 1) (falling : Bool)
  /-- GPLL_LOCK_LOSS (R29) -/
  | gpllLockLoss (u : Part)
  /-- PTP_MESSAGE_DUE (R143) -/
  | ptpMessageDue (p : BitVec 7) (kind : PtpKind)
  /-- ANNOUNCE_RECEIPT_TIMEOUT (R145) -/
  | announceReceiptTimeout (p : BitVec 7)
  /-- MODULE_INPUT_LOSS (R445) -/
  | moduleInputLoss
  /-- TAP_VALID_EARLY_FALL (R431) -/
  | tapValidEarlyFall (tap : BitVec 4)
  /-- CQ_REPLY_WRITTEN (R342) -/
  | cqReplyWritten (u : Part) (q : BitVec 10) (ok : Bool)
deriving DecidableEq, Repr

end Sys2Proof
end

