-- ==== Sys2Proof/Decode.lean ====
section
/-!
DEFINITION. Sys2Proof/Decode.lean: the command that a word spells. The block has no instruction words: no row of the table gives bits.
-/
namespace Sys2Proof

/-- The command of a word of the table's bits: no row gives bits, so no word spells a command. -/
def decodeTableWord (_nbits _w : Nat) : Option Instr := none

end Sys2Proof
end

