-- ==== Sys2Proof/Machine/EventCodes.lean ====
section
/-!
DEFINITION. Sys2Proof/Machine/EventCodes.lean: the event codes of R320, of 18 and of 19.
-/
namespace Sys2Proof.Machine
namespace EV

def EPOCH_MARK : Part → Nat
  | .garja => 0x020
  | .elzel => 0x140
def TIME_STEP : Part → Nat
  | .garja => 0x022
  | .elzel => 0x142
def HOLD_EXPIRED : Part → Nat
  | .garja => 0x023
  | .elzel => 0x023
def DOMAIN_SPLIT : Part → Nat
  | .garja => 0x024
  | .elzel => 0x144
def TDC_EDGE : Part → Nat
  | .garja => 0x040
  | .elzel => 0x14E
def TDC_CAL_FAIL : Part → Nat
  | .garja => 0x041
  | .elzel => 0x148
def DEADLINE_REGION : Nat := 0x060
def CLKFIX_VIOLATION : Nat := 0x061
def SO_WAIT_DONE : Nat := 0x080
def SO_TIMEOUT : Nat := 0x081
def SO_SATURATED : Nat := 0x082
def SO_REALIGN : Nat := 0x083
def SO_HAND_SET : Nat := 0x084
def CTX_STATE : Nat := 0x085
def CTX_FORCED : Nat := 0x086
def FN_FORCED : Nat := 0x087
def LAUNCH_LATE : Nat := 0x0A0
def DEADLINE_STEP : Nat := 0x0A1
def SQ_FAULT : Nat := 0x0A2
def SQ_HALT : Nat := 0x0A3
def SQ_MARK : Nat := 0x0A4
def SQ_SQUASH : Nat := 0x0A5
def LAUNCH_SLIP : Nat := 0x0A6
def HOLD_PAUSE : Nat := 0x0A7
def PWR_UNRAMPED : Nat := 0x0A8
def PWR_UNPLANNED : Nat := 0x0A9
def CL_IO_FAULT : Nat := 0x0C0
def BAR_MOVE : Nat := 0x0C1
def EVT_LOST : Part → Nat
  | .garja => 0x0E0
  | .elzel => 0x1E7
def DEN_WATCH : Part → Nat
  | .garja => 0x0E1
  | .elzel => 0x1E8
def STAGE_NACK : Part → Nat
  | .garja => 0x0E2
  | .elzel => 0x1E2
def STAGE_ABORTED : Part → Nat
  | .garja => 0x0E3
  | .elzel => 0x1E3
def STAGE_APPLIED : Part → Nat
  | .garja => 0x0E4
  | .elzel => 0x1E4
def STAGE_LATE : Part → Nat
  | .garja => 0x0E5
  | .elzel => 0x1E5
def STAGE_ORPHAN : Part → Nat
  | .garja => 0x0E6
  | .elzel => 0x1E6
def LINK_UP : Part → Nat
  | .garja => 0x100
  | .elzel => 0x149
def LINK_DOWN : Part → Nat
  | .garja => 0x101
  | .elzel => 0x14A
def LINK_VERSION : Part → Nat
  | .garja => 0x102
  | .elzel => 0x14B
def RANGE_VALID : Part → Nat
  | .garja => 0x103
  | .elzel => 0x14C
def RANGE_JUMP : Part → Nat
  | .garja => 0x104
  | .elzel => 0x14D
def LOCK_STATE : Part → Nat
  | .garja => 0x021
  | .elzel => 0x141
def REF_LOCK_STATE : Nat := 0x121
def REF_JUMP : Nat := 0x122
def REF_SWITCH : Nat := 0x123
def REF_DISAGREE : Nat := 0x124
def HOLD_SPEC_END : Nat := 0x125
def OCXO_FAULT : Nat := 0x126
def HT_CARRY_FAULT : Nat := 0x143
def LEADER_LOST : Nat := 0x145
def TXQ_LATE : Nat := 0x146
def SPULSE_DEV : Nat := 0x147
def COMBINE_FAULT : Nat := 0x160
def DIGEST_MISMATCH : Nat := 0x161
def SETT_BYPASS : Nat := 0x162
def BAR_DEADLINE : Nat := 0x163
def RED_SAT : Nat := 0x164
def PWR_ENVELOPE : Nat := 0x1C0
def PWR_TELEM_LOST : Nat := 0x1C1
def PWR_NOFIT : Nat := 0x1C2
def ADMIT_DEFERRED : Nat := 0x1C3
def POSITION_MISMATCH : Nat := 0x1E0
def DISC_TIMEOUT : Nat := 0x1E1
def JRNL_WRAP : Nat := 0x180
def REPLAY_DIVERGE : Nat := 0x181
def HLT_MISMATCH : Nat := 0x1A0
def HLT_STATE : Nat := 0x1A1
def HLT_UNATTRIBUTED : Nat := 0x1A2
def OWL_START : Nat := 0x1A3
def OWL_END : Nat := 0x1A4
def EXPEL : Nat := 0x1A5
def NO_SPARE : Nat := 0x1A6
def HLT_REMAP : Nat := 0x1A7
def ROLLBACK : Nat := 0x1A8
def REPLAY_DONE : Nat := 0x1A9
def HLT_TALLY : Nat := 0x1AA
def OWL_DIGESTS : Nat := 0x1AB
def HEARTBEAT : Part → Nat
  | .garja => 0x200
  | .elzel => 0x208
def RESET_DONE : Part → Nat
  | .garja => 0x201
  | .elzel => 0x20A
def CAPSULE : Part → Nat
  | .garja => 0x202
  | .elzel => 0x20B
def HB_SUMMARY : Nat := 0x209
def CAPSULE_STORED : Nat := 0x20C

end EV
end Sys2Proof.Machine
end

