-- ==== Sys2Proof/Config.lean ====
section
/-!
DEFINITION. Sys2Proof/Config.lean: what an integration or a chip fixes (the integration parameters of 21, the identity of
22 and 23), and the free values of the model. An opaque constant here has no value that Lean can use.
-/
namespace Sys2Proof

/-- The values an integrator or a build fixes. They are copied into each part at power-on and never change. -/
structure Params where
  /-- The flag build of the sync object engine (R164). -/
  flagBuild : Bool
  /-- N_PROC, management processors, 1 to 8 (R409). -/
  nProc : Nat
  /-- SIG_TAPS, bit n = 1: tap n is built (R409). -/
  sigTaps : BitVec 16
  /-- SL_TX_LAT_PS and SL_RX_LAT_PS of ports A and B (R96). -/
  slTxLat : BitVec 16
  slRxLat : BitVec 16
  /-- BAL_STEP_W (R295). -/
  balStepW : BitVec 11
  /-- GJ_HOST_STEPPING and the stepping of Garja (R89, R347). -/
  hostStepping : BitVec 16
  stepping : BitVec 16
  /-- REG_BASE, DB_BASE and OBJ_BASE of the target port (R402). -/
  regBase : BitVec 64
  dbBase : BitVec 64
  objBase : BitVec 64
deriving DecidableEq, Repr, Inhabited

/-- The module's flash (R453 to R455): the header is valid, the highest configuration SEQ accepted, and what a check finds in the
image region and the configuration region; none where the region holds neither. -/
structure Flash where
  headerOk : Bool
  seqMax : BitVec 32
  image : Option FwImage
  config : Option FwConfig
deriving DecidableEq, Repr, Inhabited

namespace Config

/-- The integration parameters: each integration decides. -/
opaque params : Params

/-- R56: an edge within one DCLK period after a hold-off end may be dropped or stamped. -/
opaque tdcNearHoldoff : Nat → Bool

/-- R66: the rms residual of a fit, from the number of samples and the sums of t, k t and t²; the manual gives no formula for
its rounding. -/
opaque freqResid : Nat → Nat → Nat → Nat → BitVec 16

/-- What the module's flash holds when it comes to its first boot: the manual gives no content. -/
opaque flash : Flash

/-- What a check finds in the bytes of an image or of a configuration block: the manual gives the parts of their headers and not
their places, and the keys are the maker's and the owner's. -/
opaque readImage : List (BitVec 8) → FwImage
opaque readConfig : List (BitVec 8) → FwConfig

/-- A word of a capsule whose content the manual names and does not lay out (R395), by the part, SEQ and the word's index. -/
opaque capsuleWord : Part → Nat → Nat → BitVec 64

/-- R291: the whole number of a telemetry field's unit for a value num / den that is not a whole number of it; the manual gives no
rounding. -/
opaque telemetryRound : Int → Nat → Int

/-- R289: the storage energy in J at a poll, from the one before, P_S in W as num / den, and the µs between the polls; the manual gives
the differential equation and not how the leaf integrates it. -/
opaque storageEnergy : Nat → Int → Nat → Nat → BitVec 16

/-- A word that the manual leaves open, by the model's counter of free values. -/
opaque freeWord : Nat → BitVec 64

end Config
end Sys2Proof
end

