-- ==== Sys2Proof/Machine/Bits.lean ====
section
/-!
DEFINITION. Sys2Proof/Machine/Bits.lean: bit fields, two's complement, saturation, rounding and list helpers.
Fields are numbered as the manual numbers them (bit 0 is the least significant).
-/
namespace Sys2Proof.Machine

/-- Bits hi..lo of a natural number. -/
def natBits (w hi lo : Nat) : Nat := (w >>> lo) % 2 ^ (hi + 1 - lo)

/-- Bits hi..lo of a word. -/
def bits {n : Nat} (w : BitVec n) (hi lo : Nat) : Nat := natBits w.toNat hi lo

/-- One bit of a word. -/
def bit {n : Nat} (w : BitVec n) (i : Nat) : Bool := natBits w.toNat i i == 1

/-- A word with bits hi..lo replaced by the low bits of v. -/
def setBits (w : Word) (hi lo v : Nat) : Word :=
  BitVec.ofNat 64 (w.toNat - natBits w.toNat hi lo * 2 ^ lo + (v % 2 ^ (hi + 1 - lo)) * 2 ^ lo)

/-- A field of width hi+1-lo placed at lo, for building words and flits. -/
def put (hi lo v : Nat) : Nat := (v % 2 ^ (hi + 1 - lo)) * 2 ^ lo

def w64 (v : Nat) : Word := BitVec.ofNat 64 v
def f128 (v : Nat) : Flit := BitVec.ofNat 128 v

/-- The two's complement value of an n-bit field. -/
def sx (n v : Nat) : Int := if v % 2 ^ n ≥ 2 ^ (n - 1) then (v % 2 ^ n : Nat) - (2 ^ n : Nat) else (v % 2 ^ n : Nat)

/-- The n-bit two's complement field of an integer (wrapping). -/
def unsx (n : Nat) (i : Int) : Nat := (i % (2 ^ n : Nat)).toNat

/-- An integer clamped to an n-bit two's complement field. -/
def clampS (n : Nat) (i : Int) : Int :=
  if i < -((2 ^ (n - 1) : Nat) : Int) then -((2 ^ (n - 1) : Nat) : Int)
  else if i > ((2 ^ (n - 1) : Nat) : Int) - 1 then ((2 ^ (n - 1) : Nat) : Int) - 1 else i

/-- A natural number saturated at an n-bit field. -/
def satU (n v : Nat) : Nat := if v ≥ 2 ^ n then 2 ^ n - 1 else v

/-- Division of an integer rounded to the nearest, ties away from zero (R94). -/
def divNear (a : Int) (b : Nat) : Int :=
  if a < 0 then -(((-a).toNat * 2 + b) / (2 * b) : Nat) else ((a.toNat * 2 + b) / (2 * b) : Nat)

/-- Division of an integer rounded towards zero. -/
def divZero (a : Int) (b : Nat) : Int := if a < 0 then -((-a).toNat / b : Nat) else (a.toNat / b : Nat)

/-- Signed difference of two counters modulo 2^n. -/
def sdiff (n a b : Nat) : Int := sx n ((a + 2 ^ n - b % 2 ^ n) % 2 ^ n)

/-- Bool as a field. -/
def b2n (b : Bool) : Nat := if b then 1 else 0

/-- List update at an index (no effect past the end). -/
def upd {α : Type} : List α → Nat → (α → α) → List α
  | [], _, _ => []
  | a :: l, 0, f => f a :: l
  | a :: l, i + 1, f => a :: upd l i f

/-- The first element that p accepts, removed: the element and the rest. -/
def takeFirst {α : Type} (p : α → Bool) : List α → Option (α × List α)
  | [] => none
  | a :: l => if p a then some (a, l) else
    match takeFirst p l with
    | some (b, r) => some (b, a :: r)
    | none => none

/-- The bytes of a word, most significant first (R473). -/
def bytesBE : Nat → Nat → List (BitVec 8)
  | 0, _ => []
  | n + 1, v => BitVec.ofNat 8 (v / 256 ^ n) :: bytesBE n v

/-- The number that a byte list spells, most significant first (R473). -/
def ofBytesBE (l : List (BitVec 8)) : Nat := l.foldl (fun a b => a * 256 + b.toNat) 0

/-- The positions of the set bits of v below n. -/
def onesOf (v n : Nat) : List Nat := (List.range n).filter (fun i => v.testBit i)

/-- How many bits of v below n are set. -/
def popCount (v n : Nat) : Nat := (onesOf v n).length

/-- The minimum of a list, if any. -/
def minOf : List Nat → Option Nat
  | [] => none
  | a :: l => match minOf l with
    | none => some a
    | some b => some (min a b)

/-- A field of a register: the part, the offset of the first of its registers, their distance, and its bits. -/
structure Fld where
  part : Part
  off : Nat
  stride : Nat
  hi : Nat
  lo : Nat
deriving DecidableEq, Repr

/-- A row of a register map: offset, stride, count, reset value, and which bits are RW, W1C, RC and WO. -/
structure RegRow where
  base : Nat
  stride : Nat
  count : Nat
  reset : Nat
  rw : Nat
  w1c : Nat
  rc : Nat
  wo : Nat
deriving DecidableEq, Repr

/-- Whether a row of registers (offset, stride, count) holds the offset o. -/
def rowHas (base stride count o : Nat) : Bool :=
  decide (base ≤ o) && (if stride = 0 then o == base else (o - base) % stride == 0 && decide ((o - base) / stride < count))

end Sys2Proof.Machine
end

