-- ==== Sys2Proof/Machine/Reduce.lean ====
section
/-!
DEFINITION. Sys2Proof/Machine/Reduce.lean: the exact reductions of 11 (R230 to R246) as functions on numbers: the formats, the
accumulators, the one rounding, and the limb streams.
-/
namespace Sys2Proof.Machine

/-! ### Formats and operations (R230 to R232) -/

-- Codes of OP (R231).
namespace RO
def SUM : Nat := 0
def MAX : Nat := 1
def MIN : Nat := 2
def ARGMAX : Nat := 3
def ARGMIN : Nat := 4
def BAND : Nat := 5
def BOR : Nat := 6
def BXOR : Nat := 7
end RO

/-- A floating-point format: exponent and fraction bits, and the accumulator bit of its smallest subnormal (R233). -/
structure FpFmt where
  ebits : Nat
  mbits : Nat
  shift : Nat
  /-- Weight of accumulator bit 0 is 2^-abias (R236). -/
  abias : Nat
deriving DecidableEq, Repr

/-- The floating-point formats by FMT. -/
def fpFmt : Nat → Option FpFmt
  | 1 => some ⟨8, 23, 0, 149⟩
  | 2 => some ⟨8, 7, 16, 149⟩
  | 3 => some ⟨5, 10, 125, 149⟩
  | 4 => some ⟨11, 52, 0, 1074⟩
  | _ => none

/-- Lane width in bytes. -/
def laneBytes : Nat → Nat
  | 1 => 4
  | 2 => 2
  | 3 => 2
  | 4 => 8
  | 5 => 1
  | 6 => 4
  | 7 => 8
  | _ => 0

/-- Lanes of a format: 64 payload bytes of them. -/
def laneCount (fmt : Nat) : Nat := if laneBytes fmt = 0 then 0 else 64 / laneBytes fmt

/-- Accumulator bits per lane. -/
def accBits : Nat → Nat
  | 4 => 2176
  | 5 => 160
  | _ => 320

/-- Setts per instance. -/
def settsOf (fmt : Nat) : Nat := if fmt = 4 then 4 else 1

def isArg (op : Nat) : Bool := op == RO.ARGMAX || op == RO.ARGMIN

/-- The pairings of FMT and OP that are supported (R231). -/
def redSupported (fmt op : Nat) : Bool :=
  if fmt = 0 then op == 0
  else decide (fmt ≤ 7) && (decide (op ≤ 2) || (isArg op && (fmt == 1 || fmt == 6))
    || (decide (5 ≤ op) && decide (op ≤ 7) && decide (5 ≤ fmt)))

/-- A number from bytes, least significant first. -/
def ofBytesLE (l : List (BitVec 8)) : Nat := ofBytesBE l.reverse
def bytesLE (n v : Nat) : List (BitVec 8) := (bytesBE n v).reverse

/-- The lanes of a payload (R232), or its pairs: value part plus 2^32 times RANK. -/
def lanesOf (fmt op : Nat) (bytes : List (BitVec 8)) : List Nat :=
  let w := if isArg op then 8 else laneBytes fmt
  (List.range (if w = 0 then 0 else 64 / w)).map (fun k => ofBytesLE ((bytes.drop (k * w)).take w))

/-- The payload of lane values or pairs. -/
def payloadOf (fmt op : Nat) (lanes : List Nat) : List (BitVec 8) :=
  lanes.flatMap (fun v => bytesLE (if isArg op then 8 else laneBytes fmt) v)

/-! ### Floating-point lanes (R233, R236, R239) -/

def FpFmt.width (f : FpFmt) : Nat := 1 + f.ebits + f.mbits
def FpFmt.expMax (f : FpFmt) : Nat := 2 ^ f.ebits - 1
def FpFmt.inf (f : FpFmt) : Nat := f.expMax * 2 ^ f.mbits
def FpFmt.signBit (f : FpFmt) : Nat := 2 ^ (f.ebits + f.mbits)
def FpFmt.qnan (f : FpFmt) : Nat := f.inf + 2 ^ (f.mbits - 1)
def FpFmt.bias (f : FpFmt) : Nat := 2 ^ (f.ebits - 1) - 1
def FpFmt.neg (f : FpFmt) (v : Nat) : Bool := v.testBit (f.ebits + f.mbits)
/-- Everything but the sign. -/
def FpFmt.mag (f : FpFmt) (v : Nat) : Nat := v % f.signBit
def FpFmt.isNan (f : FpFmt) (v : Nat) : Bool := decide (f.mag v > f.inf)
def FpFmt.isInf (f : FpFmt) (v : Nat) : Bool := f.mag v == f.inf

/-- Flags of a lane: NAN 4, PINF 2, NINF 1. -/
def FpFmt.flagsOf (f : FpFmt) (v : Nat) : Nat :=
  if f.isNan v then 4 else if f.isInf v then (if f.neg v then 1 else 2) else 0

/-- The exact contribution of a finite lane, in accumulator units (R233). -/
def FpFmt.exact (f : FpFmt) (v : Nat) : Int :=
  if f.flagsOf v != 0 then 0
  else
    let e := f.mag v / 2 ^ f.mbits
    let m := f.mag v % 2 ^ f.mbits
    let sig := if e = 0 then m else m + 2 ^ f.mbits
    let a : Int := ((sig * 2 ^ (f.shift + (if e = 0 then 0 else e - 1)) : Nat) : Int)
    if f.neg v then -a else a

/-- The one rounding of a SUM lane (R236). -/
def FpFmt.round (f : FpFmt) (a : Int) (flags : Nat) : Nat :=
  if flags.testBit 2 || (flags.testBit 1 && flags.testBit 0) then f.qnan
  else if flags.testBit 1 then f.inf
  else if flags.testBit 0 then f.inf + f.signBit
  else if a = 0 then 0
  else
    let s := if a < 0 then f.signBit else 0
    let m := a.natAbs
    let emin : Int := 1 - (f.bias : Int)
    let e0 : Int := (Nat.log2 m : Int) - (f.abias : Int)
    let e := if e0 < emin then emin else e0
    let lsb := (e - (f.mbits : Int) + (f.abias : Int)).toNat
    let q := m / 2 ^ lsb
    let r := decide (lsb > 0) && m.testBit (lsb - 1)
    let st := decide (lsb > 1) && m % 2 ^ (lsb - 1) != 0
    let q := if r && (st || q % 2 == 1) then q + 1 else q
    let enc := (e + (f.bias : Int) - 1).toNat * 2 ^ f.mbits + q
    if enc ≥ f.inf then f.inf + s else enc + s

/-- The total order of R239 on numbers that are not NaN. -/
def FpFmt.key (f : FpFmt) (v : Nat) : Int := if f.neg v then -(f.mag v : Int) - 1 else (f.mag v : Int)

/-! ### Merging (R219, R233, R238, R239) -/

/-- The order of lane values of a format: numbers that are not NaN. -/
def laneKey (fmt v : Nat) : Int :=
  match fpFmt fmt with
  | some f => f.key v
  | none => sx (8 * laneBytes fmt) v

def laneNan (fmt v : Nat) : Bool := match fpFmt fmt with | some f => f.isNan v | none => false
def laneQnan (fmt : Nat) : Nat := match fpFmt fmt with | some f => f.qnan | none => 0

/-- MAX and MIN of two lane values (R239). -/
def pickLane (fmt op a b : Nat) : Nat :=
  if laneNan fmt a || laneNan fmt b then laneQnan fmt
  else if op == RO.MAX then (if laneKey fmt b > laneKey fmt a then b else a)
  else (if laneKey fmt b < laneKey fmt a then b else a)

/-- ARGMAX and ARGMIN of two pairs (R239). -/
def pickPair (fmt op a b : Nat) : Nat :=
  let va := a % 2 ^ 32
  let vb := b % 2 ^ 32
  let ra := a / 2 ^ 32
  let rb := b / 2 ^ 32
  match laneNan fmt va, laneNan fmt vb with
  | true, true => laneQnan fmt + min ra rb * 2 ^ 32
  | true, false => laneQnan fmt + ra * 2 ^ 32
  | false, true => laneQnan fmt + rb * 2 ^ 32
  | false, false =>
    let ka := laneKey fmt va
    let kb := laneKey fmt vb
    if ka = kb then (if rb < ra then b else a)
    else if op == RO.ARGMAX then (if kb > ka then b else a)
    else (if kb < ka then b else a)

/-- What a sett holds per lane: the exact sum with its flags, or a lane value or pair. -/
structure Lanes where
  acc : List Int
  flags : List Nat
deriving DecidableEq, Repr

/-- The contribution of one ARRIVE (R233, R238, R239). -/
def Lanes.ofPayload (fmt op : Nat) (bytes : List (BitVec 8)) : Lanes :=
  let ls := lanesOf fmt op bytes
  if op != RO.SUM then
    ⟨ls.map (fun v => ((if isArg op then pickPair fmt op v v else if op == RO.MAX || op == RO.MIN then pickLane fmt op v v else v : Nat) : Int)), ls.map (fun _ => 0)⟩
  else match fpFmt fmt with
    | some f => ⟨ls.map f.exact, ls.map f.flagsOf⟩
    | none => ⟨ls.map (sx (8 * laneBytes fmt)), ls.map (fun _ => 0)⟩

/-- One lane of two contributions. -/
def mergeLane (fmt op : Nat) (a b : Int) : Int :=
  if op == RO.SUM then a + b
  else
    let x := a.toNat
    let y := b.toNat
    ((if op == RO.MAX || op == RO.MIN then pickLane fmt op x y
      else if isArg op then pickPair fmt op x y
      else if op == RO.BAND then Nat.land x y
      else if op == RO.BOR then Nat.lor x y
      else Nat.xor x y : Nat) : Int)

/-- Two contributions merged. -/
def Lanes.merge (fmt op : Nat) (a b : Lanes) : Lanes :=
  ⟨List.zipWith (mergeLane fmt op) a.acc b.acc, List.zipWith Nat.lor a.flags b.flags⟩

/-- The rounded result (R235 to R239): lane values or pairs. -/
def Lanes.finish (fmt op : Nat) (a : Lanes) : List Nat :=
  if op != RO.SUM then a.acc.map Int.toNat
  else match fpFmt fmt with
    | some f => List.zipWith f.round a.acc a.flags
    | none => a.acc.map (fun v => unsx (8 * laneBytes fmt) (clampS (8 * laneBytes fmt) v))

/-- Lanes clamped at the apex (R238), finite sums rounded to an infinity and lanes delivered as NaN (R237). -/
def Lanes.clamped (fmt op : Nat) (a : Lanes) : List Nat :=
  if op != RO.SUM || (fpFmt fmt).isSome then []
  else (List.range a.acc.length).filter (fun k => clampS (8 * laneBytes fmt) (a.acc.getD k 0) != a.acc.getD k 0)
def Lanes.overflows (fmt op : Nat) (a : Lanes) : Nat :=
  match op == RO.SUM, fpFmt fmt with
  | true, some f => ((List.zipWith (fun v g => g == 0 && f.isInf (f.round v g)) a.acc a.flags).filter id).length
  | _, _ => 0
def Lanes.nans (fmt op : Nat) (a : Lanes) : Nat :=
  match fpFmt fmt with
  | some f => ((a.finish fmt op).filter (fun v => f.isNan (if isArg op then v % 2 ^ 32 else v))).length
  | none => 0

/-! ### The predicate (R221) -/

/-- CMP between two lane values of a format. -/
def cmpLanes (fmt cmp a b : Nat) : Bool :=
  if laneNan fmt a || laneNan fmt b then cmp == 6
  else
    let z := fun v => match fpFmt fmt with | some f => if f.mag v = 0 then 0 else v | none => v
    let x := laneKey fmt (z a)
    let y := laneKey fmt (z b)
    match cmp with
    | 1 => decide (x < y)
    | 2 => decide (x ≤ y)
    | 3 => decide (x > y)
    | 4 => decide (x ≥ y)
    | 5 => decide (x = y)
    | 6 => decide (x ≠ y)
    | _ => false

/-- P of a result. -/
def predicate (fmt op : Nat) (fin : Bool) (cmp lane const : Nat) (res : List Nat) : Bool :=
  let vals := if isArg op then res.map (· % 2 ^ 32) else res
  let finOk := match fpFmt fmt with
    | some f => !fin || vals.all (fun v => f.flagsOf v == 0)
    | none => true
  let w := if isArg op then 32 else 8 * laneBytes fmt
  finOk && (cmp == 0 || (decide (lane < vals.length) && cmpLanes fmt cmp (vals.getD lane 0) (const % 2 ^ w)))

/-! ### Limb streams (R241 to R245) -/

/-- A bit string: its value, most significant bit first, and its length. -/
structure BitStr where
  v : Nat
  n : Nat
deriving DecidableEq, Repr

def BitStr.app (a b : BitStr) : BitStr := ⟨a.v * 2 ^ b.n + b.v, a.n + b.n⟩
/-- The first k bits and the rest, if there are so many. -/
def BitStr.take (s : BitStr) (k : Nat) : Option (Nat × BitStr) :=
  if k ≤ s.n then some (s.v / 2 ^ (s.n - k), ⟨s.v % 2 ^ (s.n - k), s.n - k⟩) else none

/-- The number of a value's two's complement that sign-extends from CNT limbs starting at limb LO: the canonical record. -/
def limbLo (w limbs : Nat) : Nat := ((List.range limbs).find? (fun i => w / 2 ^ (32 * i) % 2 ^ 32 != 0)).getD 0
def limbTop (a : Int) (limbs lo : Nat) : Nat :=
  ((List.range limbs).find? (fun h => decide (lo ≤ h) && sx (32 * (h + 1)) (unsx (32 * (h + 1)) a) == a)).getD (limbs - 1)

/-- The canonical record of a lane (R243); none for a lane that is zero and clear. -/
def laneRecord (fmt : Nat) (a : Int) (flags : Nat) : Option BitStr :=
  if flags != 0 then some ⟨flags * 2 ^ 7, 14⟩
  else if a = 0 then none
  else
    let limbs := accBits fmt / 32
    let w := unsx (accBits fmt) a
    let lo := limbLo w limbs
    let cnt := limbTop a limbs lo + 1 - lo
    some ⟨(lo * 2 ^ 7 + cnt) * 2 ^ (32 * cnt) + w / 2 ^ (32 * lo) % 2 ^ (32 * cnt), 14 + 32 * cnt⟩

/-- The stream after the segment header: the lane map and the records (R242). -/
def streamOf (fmt : Nat) (a : Lanes) : BitStr :=
  let recs := List.zipWith (laneRecord fmt) a.acc a.flags
  let map : BitStr := ⟨((List.range recs.length).map (fun k => if ((recs.getD k none).isSome) then 2 ^ k else 0)).sum, laneCount fmt⟩
  recs.foldl (fun s r => match r with | some b => s.app b | none => s) map

/-- The stream cut into segments of at most 7,928 bits, each with its header and padding (R242, R244): the bits of whole flits. -/
def segmentsGo (s : BitStr) (seg : Nat) : Nat → List BitStr
  | 0 => []
  | fuel + 1 =>
    let last := decide (s.n ≤ 7928)
    let k := if last then s.n else 7928
    let head := s.v / 2 ^ (s.n - k)
    let body : BitStr := (⟨(if last then 128 else 0) + seg, 8⟩ : BitStr).app ⟨head, k⟩
    let pad := (128 - body.n % 128) % 128
    let out := body.app ⟨0, pad⟩
    if last then [out] else out :: segmentsGo ⟨s.v % 2 ^ (s.n - k), s.n - k⟩ (seg + 1) fuel

def segmentsOf (s : BitStr) : List BitStr := segmentsGo s 0 3

/-- The flits of a bit string whose length is a multiple of 128. -/
def flitsOfBits (s : BitStr) : List (BitVec 128) :=
  (List.range (s.n / 128)).map (fun i => BitVec.ofNat 128 (s.v / 2 ^ (s.n - 128 * (i + 1))))
def bitsOfFlits (l : List (BitVec 128)) : BitStr := l.foldl (fun s f => s.app ⟨f.toNat, 128⟩) ⟨0, 0⟩

/-- The records of the lanes of a map decoded (R243, R245): none at a decode fault. -/
def decodeRecs (fmt : Nat) (map : Nat) : List Nat → BitStr → Option (List (Int × Nat) × BitStr)
  | [], s => some ([], s)
  | k :: ks, s =>
    if !map.testBit k then (decodeRecs fmt map ks s).map (fun r => ((0, 0) :: r.1, r.2))
    else
      match s.take 14 with
      | none => none
      | some (h, s) =>
        let lo := h / 2 ^ 7
        let cnt := h % 2 ^ 7
        if cnt = 0 then
          (if lo = 0 || decide (lo ≥ 8) || (fpFmt fmt).isNone then none
           else (decodeRecs fmt map ks s).map (fun r => ((0, lo) :: r.1, r.2)))
        else if lo + cnt > accBits fmt / 32 then none
        else
          match s.take (32 * cnt) with
          | none => none
          | some (v, s) => (decodeRecs fmt map ks s).map (fun r => ((sx (32 * cnt) v * (2 ^ (32 * lo) : Nat), 0) :: r.1, r.2))

/-- A whole stream decoded: the segments' headers are removed. -/
def decodeStream (fmt : Nat) (s : BitStr) : Option Lanes :=
  match s.take (laneCount fmt) with
  | none => none
  | some (map, s) =>
    match decodeRecs fmt map (List.range (laneCount fmt)) s with
    | none => none
    | some (l, rest) => if rest.v = 0 && decide (rest.n < 128) then some ⟨l.map (·.1), l.map (·.2)⟩ else none

end Sys2Proof.Machine
end

