-- ==== Sys2Proof/Machine/RegsElzel.lean ====
section
/-!
DEFINITION. Sys2Proof/Machine/RegsElzel.lean: the registers of Elzel (R408) with their fields, access masks and reset values, from the register tables.
-/
namespace Sys2Proof.Machine
namespace EZ

/-- `EZ_ROLE` (01_hall_organisation.md), 64 bits.  -/
def ROLE : Nat := 0x100
def ROLE_ROLE : Fld := ⟨.elzel, 0x100, 0x0, 63, 62⟩
def ROLE_DOMAIN : Fld := ⟨.elzel, 0x100, 0x0, 61, 61⟩
def ROLE_DEPTH : Fld := ⟨.elzel, 0x100, 0x0, 60, 59⟩
def ROLE_PREFIX : Fld := ⟨.elzel, 0x100, 0x0, 17, 0⟩

/-- `EZ_BIND_n` (01_hall_organisation.md), 64 bits.  -/
def BIND : Nat := 0x1000
def BIND_VALID : Fld := ⟨.elzel, 0x1000, 0x8, 63, 63⟩
def BIND_KIND : Fld := ⟨.elzel, 0x1000, 0x8, 62, 62⟩
def BIND_HELD : Fld := ⟨.elzel, 0x1000, 0x8, 61, 61⟩
def BIND_SEEN : Fld := ⟨.elzel, 0x1000, 0x8, 60, 60⟩
def BIND_REPORTED : Fld := ⟨.elzel, 0x1000, 0x8, 35, 18⟩
def BIND_EXPECTED : Fld := ⟨.elzel, 0x1000, 0x8, 17, 0⟩

/-- `GJ_TDC_CTL_n` (03_edge_interpolator.md), 64 bits.  -/
def TDC_CTL : Nat := 0x20000
def TDC_CTL_EN : Fld := ⟨.elzel, 0x20000, 0x40, 63, 63⟩
def TDC_CTL_EDGE : Fld := ⟨.elzel, 0x20000, 0x40, 62, 61⟩
def TDC_CTL_HYST : Fld := ⟨.elzel, 0x20000, 0x40, 60, 59⟩
def TDC_CTL_VTH : Fld := ⟨.elzel, 0x20000, 0x40, 58, 53⟩
def TDC_CTL_HOLDOFF : Fld := ⟨.elzel, 0x20000, 0x40, 52, 45⟩
def TDC_CTL_POST : Fld := ⟨.elzel, 0x20000, 0x40, 44, 44⟩
def TDC_CTL_NOFIFO : Fld := ⟨.elzel, 0x20000, 0x40, 43, 43⟩
def TDC_CTL_DELAY : Fld := ⟨.elzel, 0x20000, 0x40, 42, 31⟩

/-- `GJ_TDC_STATUS_n` (03_edge_interpolator.md), 64 bits.  -/
def TDC_STATUS : Nat := 0x20008
def TDC_STATUS_LIVE : Fld := ⟨.elzel, 0x20008, 0x40, 63, 63⟩
def TDC_STATUS_CALIB : Fld := ⟨.elzel, 0x20008, 0x40, 62, 62⟩
def TDC_STATUS_UNCAL : Fld := ⟨.elzel, 0x20008, 0x40, 61, 61⟩
def TDC_STATUS_FILL : Fld := ⟨.elzel, 0x20008, 0x40, 60, 56⟩
def TDC_STATUS_WRIGN : Fld := ⟨.elzel, 0x20008, 0x40, 55, 48⟩
def TDC_STATUS_OVF : Fld := ⟨.elzel, 0x20008, 0x40, 47, 32⟩
def TDC_STATUS_DROP : Fld := ⟨.elzel, 0x20008, 0x40, 31, 16⟩
def TDC_STATUS_CALFAIL : Fld := ⟨.elzel, 0x20008, 0x40, 15, 8⟩
def TDC_STATUS_REASON : Fld := ⟨.elzel, 0x20008, 0x40, 2, 0⟩

/-- `GJ_TDC_FIFO_n` (03_edge_interpolator.md), 64 bits.  -/
def TDC_FIFO : Nat := 0x20010
def TDC_FIFO_VALID : Fld := ⟨.elzel, 0x20010, 0x40, 63, 63⟩
def TDC_FIFO_FALL : Fld := ⟨.elzel, 0x20010, 0x40, 62, 62⟩
def TDC_FIFO_LOCKED : Fld := ⟨.elzel, 0x20010, 0x40, 61, 61⟩
def TDC_FIFO_UNCAL : Fld := ⟨.elzel, 0x20010, 0x40, 60, 60⟩
def TDC_FIFO_GT : Fld := ⟨.elzel, 0x20010, 0x40, 55, 16⟩
def TDC_FIFO_FRAC : Fld := ⟨.elzel, 0x20010, 0x40, 15, 0⟩

/-- `GJ_TDC_SS_n` (03_edge_interpolator.md), 64 bits.  -/
def TDC_SS : Nat := 0x20018
def TDC_SS_ARM : Fld := ⟨.elzel, 0x20018, 0x40, 63, 63⟩
def TDC_SS_REPEAT : Fld := ⟨.elzel, 0x20018, 0x40, 62, 62⟩
def TDC_SS_STOP : Fld := ⟨.elzel, 0x20018, 0x40, 59, 53⟩
def TDC_SS_TIMEOUT : Fld := ⟨.elzel, 0x20018, 0x40, 31, 0⟩

/-- `GJ_TDC_SSRES_n` (03_edge_interpolator.md), 64 bits.  -/
def TDC_SSRES : Nat := 0x20020
def TDC_SSRES_DONE : Fld := ⟨.elzel, 0x20020, 0x40, 63, 63⟩
def TDC_SSRES_STATUS : Fld := ⟨.elzel, 0x20020, 0x40, 62, 61⟩
def TDC_SSRES_OVWR : Fld := ⟨.elzel, 0x20020, 0x40, 60, 48⟩
def TDC_SSRES_INTERVAL : Fld := ⟨.elzel, 0x20020, 0x40, 47, 0⟩

/-- `GJ_TDC_FREQ_n` (03_edge_interpolator.md), 64 bits.  -/
def TDC_FREQ : Nat := 0x20028
def TDC_FREQ_ARM : Fld := ⟨.elzel, 0x20028, 0x40, 63, 63⟩
def TDC_FREQ_M : Fld := ⟨.elzel, 0x20028, 0x40, 60, 40⟩
def TDC_FREQ_D : Fld := ⟨.elzel, 0x20028, 0x40, 39, 24⟩

/-- `GJ_TDC_FRES_n` (03_edge_interpolator.md), 64 bits.  -/
def TDC_FRES : Nat := 0x20030
def TDC_FRES_DONE : Fld := ⟨.elzel, 0x20030, 0x40, 63, 63⟩
def TDC_FRES_STATUS : Fld := ⟨.elzel, 0x20030, 0x40, 62, 61⟩
def TDC_FRES_RESID : Fld := ⟨.elzel, 0x20030, 0x40, 15, 0⟩

/-- `GJ_TDC_FPER_n` (03_edge_interpolator.md), 64 bits.  -/
def TDC_FPER : Nat := 0x20038
def TDC_FPER_INT : Fld := ⟨.elzel, 0x20038, 0x40, 63, 32⟩
def TDC_FPER_FRAC : Fld := ⟨.elzel, 0x20038, 0x40, 31, 0⟩

/-- `GJ_TDC_CAL` (03_edge_interpolator.md), 64 bits.  -/
def TDC_CAL : Nat := 0x21400
def TDC_CAL_FORCE : Fld := ⟨.elzel, 0x21400, 0x0, 63, 63⟩
def TDC_CAL_DLL_LOCK : Fld := ⟨.elzel, 0x21400, 0x0, 62, 62⟩
def TDC_CAL_LOG2N : Fld := ⟨.elzel, 0x21400, 0x0, 61, 57⟩
def TDC_CAL_DLL_THR : Fld := ⟨.elzel, 0x21400, 0x0, 47, 40⟩
def TDC_CAL_PERIOD : Fld := ⟨.elzel, 0x21400, 0x0, 31, 16⟩
def TDC_CAL_DLL_CODE : Fld := ⟨.elzel, 0x21400, 0x0, 9, 0⟩

/-- `GJ_TDC_TBL_IDX` (03_edge_interpolator.md), 64 bits.  -/
def TDC_TBL_IDX : Nat := 0x21408
def TDC_TBL_IDX_CH : Fld := ⟨.elzel, 0x21408, 0x0, 14, 8⟩
def TDC_TBL_IDX_LINE : Fld := ⟨.elzel, 0x21408, 0x0, 7, 7⟩
def TDC_TBL_IDX_CODE : Fld := ⟨.elzel, 0x21408, 0x0, 6, 0⟩

/-- `GJ_TDC_TBL_DATA` (03_edge_interpolator.md), 64 bits.  -/
def TDC_TBL_DATA : Nat := 0x21410
def TDC_TBL_DATA_VALID : Fld := ⟨.elzel, 0x21410, 0x0, 63, 63⟩
def TDC_TBL_DATA_HITS : Fld := ⟨.elzel, 0x21410, 0x0, 55, 32⟩
def TDC_TBL_DATA_WIDTH : Fld := ⟨.elzel, 0x21410, 0x0, 31, 16⟩
def TDC_TBL_DATA_CENTRE : Fld := ⟨.elzel, 0x21410, 0x0, 15, 0⟩

/-- `GJ_SL_CTL_p` (04_step_link.md), 64 bits.  -/
def SL_CTL : Nat := 0x30000
def SL_CTL_EN : Fld := ⟨.elzel, 0x30000, 0x80, 63, 63⟩
def SL_CTL_RETRAIN : Fld := ⟨.elzel, 0x30000, 0x80, 62, 62⟩
def SL_CTL_LVL_CAP : Fld := ⟨.elzel, 0x30000, 0x80, 61, 54⟩
def SL_CTL_INTERVAL : Fld := ⟨.elzel, 0x30000, 0x80, 53, 39⟩

/-- `GJ_SL_STATUS_p` (04_step_link.md), 64 bits.  -/
def SL_STATUS : Nat := 0x30008
def SL_STATUS_STATE : Fld := ⟨.elzel, 0x30008, 0x80, 63, 61⟩
def SL_STATUS_RANGE_VALID : Fld := ⟨.elzel, 0x30008, 0x80, 60, 60⟩
def SL_STATUS_FAR_UNCAL : Fld := ⟨.elzel, 0x30008, 0x80, 59, 59⟩
def SL_STATUS_FAR_LOCK : Fld := ⟨.elzel, 0x30008, 0x80, 58, 57⟩
def SL_STATUS_FAR_KIND : Fld := ⟨.elzel, 0x30008, 0x80, 56, 56⟩
def SL_STATUS_LVL_RUN : Fld := ⟨.elzel, 0x30008, 0x80, 55, 48⟩
def SL_STATUS_FAR_LVL_MIN : Fld := ⟨.elzel, 0x30008, 0x80, 47, 40⟩
def SL_STATUS_FAR_LVL_MAX : Fld := ⟨.elzel, 0x30008, 0x80, 39, 32⟩
def SL_STATUS_UPS : Fld := ⟨.elzel, 0x30008, 0x80, 31, 16⟩
def SL_STATUS_DOWN_REASON : Fld := ⟨.elzel, 0x30008, 0x80, 15, 12⟩
def SL_STATUS_TRAIN_TO : Fld := ⟨.elzel, 0x30008, 0x80, 11, 0⟩

/-- `GJ_SL_LAT_p` (04_step_link.md), 64 bits.  -/
def SL_LAT : Nat := 0x30010
def SL_LAT_TX_LAT : Fld := ⟨.elzel, 0x30010, 0x80, 63, 48⟩
def SL_LAT_RX_LAT : Fld := ⟨.elzel, 0x30010, 0x80, 47, 32⟩
def SL_LAT_FAR_TX_LAT : Fld := ⟨.elzel, 0x30010, 0x80, 31, 16⟩
def SL_LAT_FAR_RX_LAT : Fld := ⟨.elzel, 0x30010, 0x80, 15, 0⟩

/-- `GJ_SL_RANGE_p` (04_step_link.md), 64 bits.  -/
def SL_RANGE : Nat := 0x30018
def SL_RANGE_DELAY : Fld := ⟨.elzel, 0x30018, 0x80, 63, 32⟩
def SL_RANGE_ASYM : Fld := ⟨.elzel, 0x30018, 0x80, 31, 16⟩
def SL_RANGE_SPREAD : Fld := ⟨.elzel, 0x30018, 0x80, 15, 0⟩

/-- `GJ_SL_OFFSET_p` (04_step_link.md), 64 bits.  -/
def SL_OFFSET : Nat := 0x30020
def SL_OFFSET_SAMPLES : Fld := ⟨.elzel, 0x30020, 0x80, 63, 48⟩
def SL_OFFSET_THETA : Fld := ⟨.elzel, 0x30020, 0x80, 47, 0⟩

/-- `GJ_SL_ERR_p` (04_step_link.md), 64 bits.  -/
def SL_ERR : Nat := 0x30028
def SL_ERR_CRC_ERR : Fld := ⟨.elzel, 0x30028, 0x80, 63, 48⟩
def SL_ERR_NAK_RX : Fld := ⟨.elzel, 0x30028, 0x80, 47, 32⟩
def SL_ERR_RESENT : Fld := ⟨.elzel, 0x30028, 0x80, 31, 16⟩
def SL_ERR_SYNC_ERR : Fld := ⟨.elzel, 0x30028, 0x80, 15, 0⟩

/-- `GJ_SL_DROP_p` (04_step_link.md), 64 bits.  -/
def SL_DROP : Nat := 0x30030
def SL_DROP_DIR_DROP : Fld := ⟨.elzel, 0x30030, 0x80, 63, 48⟩
def SL_DROP_BADTYPE : Fld := ⟨.elzel, 0x30030, 0x80, 47, 32⟩
def SL_DROP_DISCARD : Fld := ⟨.elzel, 0x30030, 0x80, 31, 16⟩
def SL_DROP_LOST : Fld := ⟨.elzel, 0x30030, 0x80, 15, 0⟩

/-- `EZ_SL_ASYM_n` (04_step_link.md), 64 bits.  -/
def SL_ASYM : Nat := 0x30038
def SL_ASYM_ASYM : Fld := ⟨.elzel, 0x30038, 0x80, 15, 0⟩

/-- `EZ_REF_CTL` (05_references_and_holdover.md), 64 bits.  -/
def REF_CTL : Nat := 0x40000
def REF_CTL_REVERT : Fld := ⟨.elzel, 0x40000, 0x0, 63, 63⟩
def REF_CTL_NO_STEP : Fld := ⟨.elzel, 0x40000, 0x0, 62, 62⟩
def REF_CTL_ACCEPT : Fld := ⟨.elzel, 0x40000, 0x0, 61, 61⟩
def REF_CTL_ACC_SRC : Fld := ⟨.elzel, 0x40000, 0x0, 60, 58⟩
def REF_CTL_WTR : Fld := ⟨.elzel, 0x40000, 0x0, 47, 32⟩
def REF_CTL_PBO_THR : Fld := ⟨.elzel, 0x40000, 0x0, 31, 16⟩
def REF_CTL_SLEW_MAX : Fld := ⟨.elzel, 0x40000, 0x0, 15, 0⟩

/-- `EZ_REF_STATUS` (05_references_and_holdover.md), 64 bits.  -/
def REF_STATUS : Nat := 0x40008
def REF_STATUS_LOCK : Fld := ⟨.elzel, 0x40008, 0x0, 63, 62⟩
def REF_STATUS_SEL : Fld := ⟨.elzel, 0x40008, 0x0, 61, 59⟩
def REF_STATUS_SPEC : Fld := ⟨.elzel, 0x40008, 0x0, 58, 58⟩
def REF_STATUS_OCXO_FAULT : Fld := ⟨.elzel, 0x40008, 0x0, 57, 57⟩
def REF_STATUS_WR_IGN : Fld := ⟨.elzel, 0x40008, 0x0, 47, 32⟩
def REF_STATUS_HOLD_TIME : Fld := ⟨.elzel, 0x40008, 0x0, 31, 0⟩

/-- `EZ_REF_PRIO` (05_references_and_holdover.md), 64 bits.  -/
def REF_PRIO : Nat := 0x40010
def REF_PRIO_P0 : Fld := ⟨.elzel, 0x40010, 0x0, 3, 0⟩
def REF_PRIO_P1 : Fld := ⟨.elzel, 0x40010, 0x0, 7, 4⟩
def REF_PRIO_P2 : Fld := ⟨.elzel, 0x40010, 0x0, 11, 8⟩
def REF_PRIO_P3 : Fld := ⟨.elzel, 0x40010, 0x0, 15, 12⟩
def REF_PRIO_P4 : Fld := ⟨.elzel, 0x40010, 0x0, 19, 16⟩
def REF_PRIO_P5 : Fld := ⟨.elzel, 0x40010, 0x0, 23, 20⟩

/-- `EZ_REF_SRC_s` (05_references_and_holdover.md), 64 bits.  -/
def REF_SRC : Nat := 0x40100
def REF_SRC_JUMP_THR : Fld := ⟨.elzel, 0x40100, 0x10, 63, 48⟩
def REF_SRC_QUAL_TIME : Fld := ⟨.elzel, 0x40100, 0x10, 47, 32⟩
def REF_SRC_HOLDOFF : Fld := ⟨.elzel, 0x40100, 0x10, 31, 24⟩
def REF_SRC_FREQ_LIM : Fld := ⟨.elzel, 0x40100, 0x10, 23, 16⟩
def REF_SRC_NEED_10M : Fld := ⟨.elzel, 0x40100, 0x10, 15, 15⟩
def REF_SRC_CLASS_MAX : Fld := ⟨.elzel, 0x40100, 0x10, 14, 7⟩

/-- `EZ_REF_SST_s` (05_references_and_holdover.md), 64 bits.  -/
def REF_SST : Nat := 0x40108
def REF_SST_STATE : Fld := ⟨.elzel, 0x40108, 0x10, 63, 61⟩
def REF_SST_REASON : Fld := ⟨.elzel, 0x40108, 0x10, 60, 57⟩
def REF_SST_JUMPS : Fld := ⟨.elzel, 0x40108, 0x10, 56, 48⟩
def REF_SST_OFFSET : Fld := ⟨.elzel, 0x40108, 0x10, 47, 0⟩

/-- `EZ_REF_CABLE_s` (05_references_and_holdover.md), 64 bits.  -/
def REF_CABLE : Nat := 0x40180
def REF_CABLE_CABLE : Fld := ⟨.elzel, 0x40180, 0x8, 31, 0⟩

/-- `EZ_CLN_CTL` (05_references_and_holdover.md), 64 bits.  -/
def CLN_CTL : Nat := 0x40200
def CLN_CTL_OPEN : Fld := ⟨.elzel, 0x40200, 0x0, 63, 63⟩
def CLN_CTL_FREEZE : Fld := ⟨.elzel, 0x40200, 0x0, 62, 62⟩
def CLN_CTL_KP_SHIFT : Fld := ⟨.elzel, 0x40200, 0x0, 61, 56⟩
def CLN_CTL_KI_SHIFT : Fld := ⟨.elzel, 0x40200, 0x0, 55, 50⟩
def CLN_CTL_LOCK_THR : Fld := ⟨.elzel, 0x40200, 0x0, 49, 34⟩
def CLN_CTL_LOCK_CNT : Fld := ⟨.elzel, 0x40200, 0x0, 33, 26⟩
def CLN_CTL_UNLOCK_THR : Fld := ⟨.elzel, 0x40200, 0x0, 25, 10⟩
def CLN_CTL_HOLD_AVG : Fld := ⟨.elzel, 0x40200, 0x0, 9, 0⟩

/-- `EZ_CLN_STATUS` (05_references_and_holdover.md), 64 bits.  -/
def CLN_STATUS : Nat := 0x40208
def CLN_STATUS_E : Fld := ⟨.elzel, 0x40208, 0x0, 63, 32⟩
def CLN_STATUS_Y : Fld := ⟨.elzel, 0x40208, 0x0, 31, 0⟩

/-- `EZ_CLN_DCO` (05_references_and_holdover.md), 64 bits.  -/
def CLN_DCO : Nat := 0x40210
def CLN_DCO_TRIM : Fld := ⟨.elzel, 0x40210, 0x0, 31, 0⟩

/-- `EZ_HT_SEC` (06_servo_and_redundant_domains.md), 64 bits.  -/
def HT_SEC : Nat := 0x50000
def HT_SEC_SEC : Fld := ⟨.elzel, 0x50000, 0x0, 47, 0⟩

/-- `EZ_HT_NS` (06_servo_and_redundant_domains.md), 64 bits.  -/
def HT_NS : Nat := 0x50008
def HT_NS_NS : Fld := ⟨.elzel, 0x50008, 0x0, 61, 32⟩
def HT_NS_FRAC : Fld := ⟨.elzel, 0x50008, 0x0, 31, 0⟩

/-- `EZ_HT_GT` (06_servo_and_redundant_domains.md), 64 bits.  -/
def HT_GT : Nat := 0x50010
def HT_GT_GT : Fld := ⟨.elzel, 0x50010, 0x0, 63, 0⟩

/-- `GJ_TB_CTL` (02_clocks_and_time_base.md), 64 bits.  -/
def TB_CTL : Nat := 0x50108
def TB_CTL_SERVO_EN : Fld := ⟨.elzel, 0x50108, 0x0, 63, 63⟩
def TB_CTL_NO_STEP : Fld := ⟨.elzel, 0x50108, 0x0, 62, 62⟩
def TB_CTL_FORCE_HOLD : Fld := ⟨.elzel, 0x50108, 0x0, 60, 60⟩

/-- `GJ_TB_INCR` (02_clocks_and_time_base.md), 64 bits.  -/
def TB_INCR : Nat := 0x50128
def TB_INCR_INT : Fld := ⟨.elzel, 0x50128, 0x0, 35, 32⟩
def TB_INCR_FRAC : Fld := ⟨.elzel, 0x50128, 0x0, 31, 0⟩

/-- `GJ_TB_STEER` (02_clocks_and_time_base.md), 64 bits.  -/
def TB_STEER : Nat := 0x50130
def TB_STEER_PEND : Fld := ⟨.elzel, 0x50130, 0x0, 63, 48⟩
def TB_STEER_INTERVAL : Fld := ⟨.elzel, 0x50130, 0x0, 47, 40⟩
def TB_STEER_TURNS : Fld := ⟨.elzel, 0x50130, 0x0, 31, 7⟩
def TB_STEER_PHASE : Fld := ⟨.elzel, 0x50130, 0x0, 6, 0⟩

/-- `GJ_TB_ADJ` (02_clocks_and_time_base.md), 64 bits.  -/
def TB_ADJ : Nat := 0x50138
def TB_ADJ_DELTA : Fld := ⟨.elzel, 0x50138, 0x0, 63, 0⟩

/-- `GJ_TB_LOCKCFG` (02_clocks_and_time_base.md), 64 bits.  -/
def TB_LOCKCFG : Nat := 0x50140
def TB_LOCKCFG_LOCK_THR : Fld := ⟨.elzel, 0x50140, 0x0, 63, 52⟩
def TB_LOCKCFG_LOCK_CNT : Fld := ⟨.elzel, 0x50140, 0x0, 51, 44⟩
def TB_LOCKCFG_UNLOCK_THR : Fld := ⟨.elzel, 0x50140, 0x0, 43, 30⟩
def TB_LOCKCFG_STEP_THR : Fld := ⟨.elzel, 0x50140, 0x0, 29, 14⟩
def TB_LOCKCFG_HOLD_LIMIT : Fld := ⟨.elzel, 0x50140, 0x0, 13, 0⟩

/-- `GJ_TS_CTL` (06_servo_and_redundant_domains.md), 64 bits.  -/
def TS_CTL : Nat := 0x50200
def TS_CTL_KP_SHIFT : Fld := ⟨.elzel, 0x50200, 0x0, 63, 58⟩
def TS_CTL_KI_SHIFT : Fld := ⟨.elzel, 0x50200, 0x0, 57, 52⟩
def TS_CTL_SPLIT_THR : Fld := ⟨.elzel, 0x50200, 0x0, 47, 32⟩
def TS_CTL_TRK_SHIFT : Fld := ⟨.elzel, 0x50200, 0x0, 31, 24⟩
def TS_CTL_TRK_MIN : Fld := ⟨.elzel, 0x50200, 0x0, 23, 16⟩
def TS_CTL_ACQ_THR : Fld := ⟨.elzel, 0x50200, 0x0, 15, 0⟩
def TS_CTL_REALIGN : Fld := ⟨.elzel, 0x50200, 0x0, 51, 51⟩

/-- `EZ_TS_STATUS` (06_servo_and_redundant_domains.md), 64 bits.  -/
def TS_STATUS : Nat := 0x50208
def TS_STATUS_STATE : Fld := ⟨.elzel, 0x50208, 0x0, 63, 62⟩
def TS_STATUS_INPUT : Fld := ⟨.elzel, 0x50208, 0x0, 61, 59⟩
def TS_STATUS_LATCHED : Fld := ⟨.elzel, 0x50208, 0x0, 58, 58⟩
def TS_STATUS_SWITCHES : Fld := ⟨.elzel, 0x50208, 0x0, 47, 32⟩
def TS_STATUS_INTEG : Fld := ⟨.elzel, 0x50208, 0x0, 31, 0⟩

/-- `GJ_TS_TRACK_p` (06_servo_and_redundant_domains.md), 64 bits.  -/
def TS_TRACK : Nat := 0x50210
def TS_TRACK_TRACKED : Fld := ⟨.elzel, 0x50210, 0x8, 63, 63⟩
def TS_TRACK_ACTIVE : Fld := ⟨.elzel, 0x50210, 0x8, 62, 62⟩
def TS_TRACK_SAMPLES : Fld := ⟨.elzel, 0x50210, 0x8, 61, 48⟩
def TS_TRACK_X : Fld := ⟨.elzel, 0x50210, 0x8, 47, 0⟩

/-- `EZ_DOM_CTL` (06_servo_and_redundant_domains.md), 64 bits.  -/
def DOM_CTL : Nat := 0x50300
def DOM_CTL_AUTO : Fld := ⟨.elzel, 0x50300, 0x0, 63, 63⟩
def DOM_CTL_MOVE_WAIT : Fld := ⟨.elzel, 0x50300, 0x0, 31, 0⟩

/-- `EZ_PTP_CTL_p` (07_external_time_ports.md), 64 bits.  -/
def PTP_CTL : Nat := 0x60000
def PTP_CTL_MODE : Fld := ⟨.elzel, 0x60000, 0x100, 63, 62⟩
def PTP_CTL_ONE_STEP : Fld := ⟨.elzel, 0x60000, 0x100, 61, 61⟩
def PTP_CTL_P2P : Fld := ⟨.elzel, 0x60000, 0x100, 60, 60⟩
def PTP_CTL_TRANSPORT : Fld := ⟨.elzel, 0x60000, 0x100, 59, 58⟩
def PTP_CTL_DOMAIN : Fld := ⟨.elzel, 0x60000, 0x100, 57, 50⟩
def PTP_CTL_LOG_SYNC : Fld := ⟨.elzel, 0x60000, 0x100, 49, 46⟩
def PTP_CTL_LOG_ANN : Fld := ⟨.elzel, 0x60000, 0x100, 45, 42⟩
def PTP_CTL_LOG_DREQ : Fld := ⟨.elzel, 0x60000, 0x100, 41, 38⟩
def PTP_CTL_PRIO1 : Fld := ⟨.elzel, 0x60000, 0x100, 37, 30⟩
def PTP_CTL_PRIO2 : Fld := ⟨.elzel, 0x60000, 0x100, 29, 22⟩
def PTP_CTL_ANN_TO : Fld := ⟨.elzel, 0x60000, 0x100, 21, 19⟩
def PTP_CTL_VLAN_EN : Fld := ⟨.elzel, 0x60000, 0x100, 18, 18⟩
def PTP_CTL_VID : Fld := ⟨.elzel, 0x60000, 0x100, 17, 6⟩

/-- `EZ_PTP_STATUS_p` (07_external_time_ports.md), 64 bits.  -/
def PTP_STATUS : Nat := 0x60008
def PTP_STATUS_STATE : Fld := ⟨.elzel, 0x60008, 0x100, 63, 60⟩
def PTP_STATUS_CLASS : Fld := ⟨.elzel, 0x60008, 0x100, 59, 52⟩
def PTP_STATUS_WR_IGN : Fld := ⟨.elzel, 0x60008, 0x100, 51, 48⟩
def PTP_STATUS_FOREIGN : Fld := ⟨.elzel, 0x60008, 0x100, 47, 40⟩
def PTP_STATUS_UNSUP : Fld := ⟨.elzel, 0x60008, 0x100, 39, 32⟩
def PTP_STATUS_MPD : Fld := ⟨.elzel, 0x60008, 0x100, 31, 0⟩

/-- `EZ_PTP_LAT_p` (07_external_time_ports.md), 64 bits.  -/
def PTP_LAT : Nat := 0x60010
def PTP_LAT_TX_LAT : Fld := ⟨.elzel, 0x60010, 0x100, 63, 48⟩
def PTP_LAT_RX_LAT : Fld := ⟨.elzel, 0x60010, 0x100, 47, 32⟩
def PTP_LAT_ASYM : Fld := ⟨.elzel, 0x60010, 0x100, 31, 0⟩

/-- `EZ_ETS_p` (07_external_time_ports.md), 64 bits.  -/
def ETS : Nat := 0x60018
def ETS_VALID : Fld := ⟨.elzel, 0x60018, 0x100, 63, 63⟩
def ETS_LOST_BEFORE : Fld := ⟨.elzel, 0x60018, 0x100, 62, 62⟩
def ETS_STEPS : Fld := ⟨.elzel, 0x60018, 0x100, 61, 60⟩
def ETS_LATE : Fld := ⟨.elzel, 0x60018, 0x100, 59, 59⟩
def ETS_ID : Fld := ⟨.elzel, 0x60018, 0x100, 15, 0⟩

/-- `EZ_ETS_STAMP_p` (07_external_time_ports.md), 64 bits.  -/
def ETS_STAMP : Nat := 0x60020
def ETS_STAMP_GT : Fld := ⟨.elzel, 0x60020, 0x100, 55, 16⟩
def ETS_STAMP_FRAC : Fld := ⟨.elzel, 0x60020, 0x100, 15, 0⟩

/-- `EZ_TXQ_STATUS_p` (07_external_time_ports.md), 64 bits.  -/
def TXQ_STATUS : Nat := 0x60028
def TXQ_STATUS_TQ_FILL : Fld := ⟨.elzel, 0x60028, 0x100, 63, 58⟩
def TXQ_STATUS_TSQ_FILL : Fld := ⟨.elzel, 0x60028, 0x100, 57, 51⟩
def TXQ_STATUS_TSQ_OVF : Fld := ⟨.elzel, 0x60028, 0x100, 47, 32⟩
def TXQ_STATUS_LATE : Fld := ⟨.elzel, 0x60028, 0x100, 31, 24⟩
def TXQ_STATUS_FULL : Fld := ⟨.elzel, 0x60028, 0x100, 23, 16⟩
def TXQ_STATUS_LOST_ID : Fld := ⟨.elzel, 0x60028, 0x100, 15, 0⟩

/-- `EZ_TXQ_D0_p` (07_external_time_ports.md), 64 bits.  -/
def TXQ_D0 : Nat := 0x60030
def TXQ_D0_SEC : Fld := ⟨.elzel, 0x60030, 0x100, 63, 16⟩
def TXQ_D0_ID : Fld := ⟨.elzel, 0x60030, 0x100, 15, 0⟩

/-- `EZ_TXQ_D1_p` (07_external_time_ports.md), 64 bits.  -/
def TXQ_D1 : Nat := 0x60038
def TXQ_D1_NS : Fld := ⟨.elzel, 0x60038, 0x100, 63, 34⟩
def TXQ_D1_TIMED : Fld := ⟨.elzel, 0x60038, 0x100, 33, 33⟩
def TXQ_D1_LATE_SEND : Fld := ⟨.elzel, 0x60038, 0x100, 32, 32⟩
def TXQ_D1_STAMP : Fld := ⟨.elzel, 0x60038, 0x100, 31, 31⟩
def TXQ_D1_ONESTEP : Fld := ⟨.elzel, 0x60038, 0x100, 30, 30⟩
def TXQ_D1_LEN : Fld := ⟨.elzel, 0x60038, 0x100, 29, 18⟩
def TXQ_D1_BUF : Fld := ⟨.elzel, 0x60038, 0x100, 17, 12⟩

/-- `EZ_PPS_CTL` (07_external_time_ports.md), 64 bits.  -/
def PPS_CTL : Nat := 0x60200
def PPS_CTL_PPS_EN : Fld := ⟨.elzel, 0x60200, 0x0, 63, 63⟩
def PPS_CTL_TENM_EN : Fld := ⟨.elzel, 0x60200, 0x0, 62, 62⟩
def PPS_CTL_SQUELCH : Fld := ⟨.elzel, 0x60200, 0x0, 61, 61⟩
def PPS_CTL_LAT_PPS : Fld := ⟨.elzel, 0x60200, 0x0, 55, 44⟩
def PPS_CTL_LAT_10M : Fld := ⟨.elzel, 0x60200, 0x0, 43, 32⟩
def PPS_CTL_LAT_SP : Fld := ⟨.elzel, 0x60200, 0x0, 31, 20⟩
def PPS_CTL_WIDTH : Fld := ⟨.elzel, 0x60200, 0x0, 19, 0⟩

/-- `EZ_PPS_STATUS` (07_external_time_ports.md), 64 bits.  -/
def PPS_STATUS : Nat := 0x60208
def PPS_STATUS_SQUELCHED : Fld := ⟨.elzel, 0x60208, 0x0, 63, 63⟩
def PPS_STATUS_SKIPPED : Fld := ⟨.elzel, 0x60208, 0x0, 47, 32⟩
def PPS_STATUS_ERR : Fld := ⟨.elzel, 0x60208, 0x0, 31, 0⟩

/-- `EZ_SPULSE_CTL` (07_external_time_ports.md), 64 bits.  -/
def SPULSE_CTL : Nat := 0x60300
def SPULSE_CTL_EN : Fld := ⟨.elzel, 0x60300, 0x0, 63, 63⟩
def SPULSE_CTL_REALIGN : Fld := ⟨.elzel, 0x60300, 0x0, 62, 62⟩
def SPULSE_CTL_GRADUAL : Fld := ⟨.elzel, 0x60300, 0x0, 61, 61⟩
def SPULSE_CTL_MAXADJ : Fld := ⟨.elzel, 0x60300, 0x0, 60, 48⟩
def SPULSE_CTL_PERIOD : Fld := ⟨.elzel, 0x60300, 0x0, 47, 16⟩
def SPULSE_CTL_WIDTH : Fld := ⟨.elzel, 0x60300, 0x0, 15, 0⟩

/-- `EZ_SPULSE_ANCHOR` (07_external_time_ports.md), 64 bits.  -/
def SPULSE_ANCHOR : Nat := 0x60308
def SPULSE_ANCHOR_ANCHOR : Fld := ⟨.elzel, 0x60308, 0x0, 63, 0⟩

/-- `EZ_SPULSE_STATUS` (07_external_time_ports.md), 64 bits.  -/
def SPULSE_STATUS : Nat := 0x60310
def SPULSE_STATUS_RUN : Fld := ⟨.elzel, 0x60310, 0x0, 63, 63⟩
def SPULSE_STATUS_ALIGNING : Fld := ⟨.elzel, 0x60310, 0x0, 62, 62⟩
def SPULSE_STATUS_DEV : Fld := ⟨.elzel, 0x60310, 0x0, 31, 0⟩

/-- `EZ_EPOCH_CTL` (07_external_time_ports.md), 64 bits.  -/
def EPOCH_CTL : Nat := 0x60400
def EPOCH_CTL_MODE : Fld := ⟨.elzel, 0x60400, 0x0, 63, 63⟩
def EPOCH_CTL_ALIGNED : Fld := ⟨.elzel, 0x60400, 0x0, 62, 62⟩
def EPOCH_CTL_UTC_VALID : Fld := ⟨.elzel, 0x60400, 0x0, 61, 61⟩
def EPOCH_CTL_LEAP61 : Fld := ⟨.elzel, 0x60400, 0x0, 60, 60⟩
def EPOCH_CTL_LEAP59 : Fld := ⟨.elzel, 0x60400, 0x0, 59, 59⟩
def EPOCH_CTL_UTC_OFF : Fld := ⟨.elzel, 0x60400, 0x0, 47, 32⟩
def EPOCH_CTL_WR_IGN : Fld := ⟨.elzel, 0x60400, 0x0, 31, 16⟩

/-- `EZ_CMB_CTL` (10_barrier_tree.md), 64 bits.  -/
def CMB_CTL : Nat := 0xC0000
def CMB_CTL_BYP_EN : Fld := ⟨.elzel, 0xC0000, 0x0, 63, 63⟩

/-- `EZ_CMB_STATUS` (10_barrier_tree.md), 64 bits.  -/
def CMB_STATUS : Nat := 0xC0008
def CMB_STATUS_SETTS_FREE : Fld := ⟨.elzel, 0xC0008, 0x0, 63, 49⟩
def CMB_STATUS_RECS_FREE : Fld := ⟨.elzel, 0xC0008, 0x0, 48, 38⟩
def CMB_STATUS_MAPS_FREE : Fld := ⟨.elzel, 0xC0008, 0x0, 37, 25⟩
def CMB_STATUS_HELD : Fld := ⟨.elzel, 0xC0008, 0x0, 24, 18⟩
def CMB_STATUS_WR_IGN : Fld := ⟨.elzel, 0xC0008, 0x0, 15, 0⟩

/-- `EZ_CMB_CNT0` (10_barrier_tree.md), 64 bits.  -/
def CMB_CNT0 : Nat := 0xC0010
def CMB_CNT0_BYPASS : Fld := ⟨.elzel, 0xC0010, 0x0, 63, 48⟩
def CMB_CNT0_DUP : Fld := ⟨.elzel, 0xC0010, 0x0, 47, 32⟩
def CMB_CNT0_LATE_ITEM : Fld := ⟨.elzel, 0xC0010, 0x0, 31, 16⟩
def CMB_CNT0_AHEAD : Fld := ⟨.elzel, 0xC0010, 0x0, 15, 0⟩

/-- `EZ_CMB_CNT1` (10_barrier_tree.md), 64 bits.  -/
def CMB_CNT1 : Nat := 0xC0018
def CMB_CNT1_HELD : Fld := ⟨.elzel, 0xC0018, 0x0, 63, 48⟩
def CMB_CNT1_DEADLINE : Fld := ⟨.elzel, 0xC0018, 0x0, 47, 32⟩
def CMB_CNT1_FAULT : Fld := ⟨.elzel, 0xC0018, 0x0, 31, 16⟩
def CMB_CNT1_DIG_MIS : Fld := ⟨.elzel, 0xC0018, 0x0, 15, 0⟩

/-- `EZ_RED_CNT` (11_exact_reductions.md), 64 bits.  -/
def RED_CNT : Nat := 0xC0020
def RED_CNT_INT_SAT : Fld := ⟨.elzel, 0xC0020, 0x0, 63, 48⟩
def RED_CNT_FP_OVF : Fld := ⟨.elzel, 0xC0020, 0x0, 47, 32⟩
def RED_CNT_NAN_OUT : Fld := ⟨.elzel, 0xC0020, 0x0, 31, 16⟩
def RED_CNT_DECODE : Fld := ⟨.elzel, 0xC0020, 0x0, 15, 0⟩

/-- `EZ_RED_CAP` (11_exact_reductions.md), 64 bits.  -/
def RED_CAP : Nat := 0xC0028
def RED_CAP_FMT : Fld := ⟨.elzel, 0xC0028, 0x0, 63, 48⟩
def RED_CAP_OP : Fld := ⟨.elzel, 0xC0028, 0x0, 47, 32⟩
def RED_CAP_MAX_SEG : Fld := ⟨.elzel, 0xC0028, 0x0, 31, 28⟩

/-- `EZ_LNC_CTL` (12_launch_and_run_ahead.md), 64 bits.  -/
def LNC_CTL : Nat := 0xC0100
def LNC_CTL_BCAST : Fld := ⟨.elzel, 0xC0100, 0x0, 63, 48⟩
def LNC_CTL_MARGIN : Fld := ⟨.elzel, 0xC0100, 0x0, 47, 32⟩

/-- `EZ_CMB_JOB_j` (10_barrier_tree.md), 64 bits.  -/
def CMB_JOB_W0 : Nat := 0x100000
def CMB_JOB_W0_VALID : Fld := ⟨.elzel, 0x100000, 0x20, 63, 63⟩
def CMB_JOB_W0_APEX : Fld := ⟨.elzel, 0x100000, 0x20, 62, 62⟩
def CMB_JOB_W0_CTX : Fld := ⟨.elzel, 0x100000, 0x20, 61, 54⟩
def CMB_JOB_W0_RESERVE : Fld := ⟨.elzel, 0x100000, 0x20, 53, 49⟩
def CMB_JOB_W0_BANK : Fld := ⟨.elzel, 0x100000, 0x20, 48, 48⟩
def CMB_JOB_W0_S_EFF : Fld := ⟨.elzel, 0x100000, 0x20, 47, 0⟩

/-- `EZ_CMB_JOB_j` (10_barrier_tree.md), 64 bits.  -/
def CMB_JOB_W1 : Nat := 0x100008
def CMB_JOB_W1_BAR_BASE : Fld := ⟨.elzel, 0x100008, 0x20, 63, 50⟩
def CMB_JOB_W1_BAR_CNT : Fld := ⟨.elzel, 0x100008, 0x20, 49, 39⟩
def CMB_JOB_W1_INUSE : Fld := ⟨.elzel, 0x100008, 0x20, 38, 34⟩

/-- `EZ_CMB_JOB_j` (10_barrier_tree.md), 64 bits.  -/
def CMB_JOB_W2 : Nat := 0x100010
def CMB_JOB_W2_REL_THRU : Fld := ⟨.elzel, 0x100010, 0x20, 47, 0⟩

/-- `EZ_CMB_JOB_j` (10_barrier_tree.md), 64 bits.  -/
def CMB_JOB_W3 : Nat := 0x100018
def CMB_JOB_W3_MEMBER : Fld := ⟨.elzel, 0x100018, 0x20, 63, 0⟩

/-- `EZ_CMB_BDESC_d` (10_barrier_tree.md), 64 bits.  -/
def CMB_BDESC_W0 : Nat := 0x200000
def CMB_BDESC_W0_VALID : Fld := ⟨.elzel, 0x200000, 0x10, 63, 63⟩
def CMB_BDESC_W0_FMT : Fld := ⟨.elzel, 0x200000, 0x10, 62, 59⟩
def CMB_BDESC_W0_OP : Fld := ⟨.elzel, 0x200000, 0x10, 58, 55⟩
def CMB_BDESC_W0_DIG : Fld := ⟨.elzel, 0x200000, 0x10, 54, 53⟩
def CMB_BDESC_W0_ACT : Fld := ⟨.elzel, 0x200000, 0x10, 52, 52⟩
def CMB_BDESC_W0_FIN : Fld := ⟨.elzel, 0x200000, 0x10, 51, 51⟩
def CMB_BDESC_W0_CMP : Fld := ⟨.elzel, 0x200000, 0x10, 50, 48⟩
def CMB_BDESC_W0_LANE : Fld := ⟨.elzel, 0x200000, 0x10, 47, 42⟩
def CMB_BDESC_W0_DEADLINE : Fld := ⟨.elzel, 0x200000, 0x10, 41, 10⟩

/-- `EZ_CMB_BDESC_d` (10_barrier_tree.md), 64 bits.  -/
def CMB_BDESC_W1 : Nat := 0x200008
def CMB_BDESC_W1_CONST : Fld := ⟨.elzel, 0x200008, 0x10, 63, 0⟩

/-- `EZ_CMB_DIES_j_b_p` (10_barrier_tree.md), 64 bits.  -/
def CMB_DIES : Nat := 0x800000
def CMB_DIES_DIES : Fld := ⟨.elzel, 0x800000, 0x8, 18, 0⟩

/-- `EZ_LNC_JOB_j` (12_launch_and_run_ahead.md), 64 bits.  -/
def LNC_JOB_W0 : Nat := 0xC00000
def LNC_JOB_W0_PERIOD : Fld := ⟨.elzel, 0xC00000, 0x10, 31, 0⟩

/-- `EZ_LNC_JOB_j` (12_launch_and_run_ahead.md), 64 bits.  -/
def LNC_JOB_W1 : Nat := 0xC00008
def LNC_JOB_W1_ANCHOR : Fld := ⟨.elzel, 0xC00008, 0x10, 63, 0⟩

/-- `GJ_CQP_p` (17_command_packets.md), 64 bits.  -/
def QP_SQ_BASE : Nat := 0xC80000
def QP_SQ_BASE_BASE : Fld := ⟨.elzel, 0xC80000, 0x40, 63, 6⟩

/-- `GJ_CQP_p` (17_command_packets.md), 64 bits.  -/
def QP_CQ_BASE : Nat := 0xC80008
def QP_CQ_BASE_BASE : Fld := ⟨.elzel, 0xC80008, 0x40, 63, 6⟩

/-- `GJ_CQP_p` (17_command_packets.md), 64 bits.  -/
def QP_PSHADOW : Nat := 0xC80010
def QP_PSHADOW_PSHADOW : Fld := ⟨.elzel, 0xC80010, 0x40, 63, 3⟩

/-- `GJ_CQP_p` (17_command_packets.md), 64 bits.  -/
def QP_CFG : Nat := 0xC80018
def QP_CFG_EN : Fld := ⟨.elzel, 0xC80018, 0x40, 63, 63⟩
def QP_CFG_ARM : Fld := ⟨.elzel, 0xC80018, 0x40, 62, 62⟩
def QP_CFG_LOG2N_SQ : Fld := ⟨.elzel, 0xC80018, 0x40, 61, 58⟩
def QP_CFG_LOG2N_CQ : Fld := ⟨.elzel, 0xC80018, 0x40, 57, 54⟩
def QP_CFG_CQ_DROP : Fld := ⟨.elzel, 0xC80018, 0x40, 15, 0⟩

/-- `GJ_CQP_p` (17_command_packets.md), 64 bits.  -/
def QP_SQ_IDX : Nat := 0xC80020
def QP_SQ_IDX_TAIL : Fld := ⟨.elzel, 0xC80020, 0x40, 63, 32⟩
def QP_SQ_IDX_HEAD : Fld := ⟨.elzel, 0xC80020, 0x40, 31, 0⟩

/-- `GJ_CQP_p` (17_command_packets.md), 64 bits.  -/
def QP_CQ_IDX : Nat := 0xC80028
def QP_CQ_IDX_PROD : Fld := ⟨.elzel, 0xC80028, 0x40, 63, 32⟩
def QP_CQ_IDX_CONS : Fld := ⟨.elzel, 0xC80028, 0x40, 31, 0⟩

/-- `EZ_CMD_CTL` (17_command_packets.md), 64 bits.  -/
def CMD_CTL : Nat := 0xC90000
def CMD_CTL_DEF_TMO : Fld := ⟨.elzel, 0xC90000, 0x0, 63, 48⟩

/-- `EZ_CMD_STATUS` (17_command_packets.md), 64 bits.  -/
def CMD_STATUS : Nat := 0xC90008
def CMD_STATUS_POOL : Fld := ⟨.elzel, 0xC90008, 0x0, 63, 51⟩
def CMD_STATUS_TMO : Fld := ⟨.elzel, 0xC90008, 0x0, 47, 32⟩
def CMD_STATUS_LATE_REPLY : Fld := ⟨.elzel, 0xC90008, 0x0, 31, 16⟩
def CMD_STATUS_DUP_TAG : Fld := ⟨.elzel, 0xC90008, 0x0, 15, 0⟩

/-- `GJ_CMD_CAP` (17_command_packets.md), 64 bits.  -/
def CMD_CAP : Nat := 0xC90010
def CMD_CAP_LVL_MIN : Fld := ⟨.elzel, 0xC90010, 0x0, 63, 56⟩
def CMD_CAP_LVL_MAX : Fld := ⟨.elzel, 0xC90010, 0x0, 55, 48⟩

/-- `GJ_STG_S_s` (13_staged_changes.md), 64 bits.  -/
def STG_S_W0 : Nat := 0xD00000
def STG_S_W0_STATE : Fld := ⟨.elzel, 0xD00000, 0x20, 63, 61⟩
def STG_S_W0_SCOPED : Fld := ⟨.elzel, 0xD00000, 0x20, 60, 60⟩
def STG_S_W0_SCOPE : Fld := ⟨.elzel, 0xD00000, 0x20, 59, 48⟩
def STG_S_W0_ENTRIES : Fld := ⟨.elzel, 0xD00000, 0x20, 44, 32⟩
def STG_S_W0_CHANGE : Fld := ⟨.elzel, 0xD00000, 0x20, 31, 0⟩

/-- `GJ_STG_S_s` (13_staged_changes.md), 64 bits.  -/
def STG_S_W1 : Nat := 0xD00008
def STG_S_W1_T : Fld := ⟨.elzel, 0xD00008, 0x20, 63, 0⟩

/-- `GJ_STG_S_s` (13_staged_changes.md), 64 bits.  -/
def STG_S_W2 : Nat := 0xD00010
def STG_S_W2_S_EFF : Fld := ⟨.elzel, 0xD00010, 0x20, 47, 0⟩

/-- `GJ_STG_CFG` (13_staged_changes.md), 64 bits.  -/
def STG_CFG : Nat := 0xD00200
def STG_CFG_LEAD : Fld := ⟨.elzel, 0xD00200, 0x0, 63, 48⟩
def STG_CFG_COMMIT_LEAD : Fld := ⟨.elzel, 0xD00200, 0x0, 47, 32⟩
def STG_CFG_ORPHAN : Fld := ⟨.elzel, 0xD00200, 0x0, 31, 0⟩

/-- `GJ_STG_CNT` (13_staged_changes.md), 64 bits.  -/
def STG_CNT : Nat := 0xD00208
def STG_CNT_APPLIED : Fld := ⟨.elzel, 0xD00208, 0x0, 63, 48⟩
def STG_CNT_NACK : Fld := ⟨.elzel, 0xD00208, 0x0, 47, 32⟩
def STG_CNT_LATE : Fld := ⟨.elzel, 0xD00208, 0x0, 31, 16⟩
def STG_CNT_WR_IGN : Fld := ⟨.elzel, 0xD00208, 0x0, 15, 0⟩

/-- `EZ_JRNL_CTL` (18_health_and_faults.md), 64 bits.  -/
def JRNL_CTL : Nat := 0xD80000
def JRNL_CTL_EN : Fld := ⟨.elzel, 0xD80000, 0x0, 63, 63⟩
def JRNL_CTL_TRACE_STOP : Fld := ⟨.elzel, 0xD80000, 0x0, 62, 62⟩
def JRNL_CTL_TRACE_ITEMS : Fld := ⟨.elzel, 0xD80000, 0x0, 61, 61⟩
def JRNL_CTL_DROP : Fld := ⟨.elzel, 0xD80000, 0x0, 31, 0⟩

/-- `EZ_JRNL_REG_r` (18_health_and_faults.md), 64 bits.  -/
def JRNL_REG_W0 : Nat := 0xD80100
def JRNL_REG_W0_BASE : Fld := ⟨.elzel, 0xD80100, 0x10, 63, 56⟩
def JRNL_REG_W0_SIZE : Fld := ⟨.elzel, 0xD80100, 0x10, 55, 48⟩

/-- `EZ_JRNL_REG_r` (18_health_and_faults.md), 64 bits.  -/
def JRNL_REG_W1 : Nat := 0xD80108
def JRNL_REG_W1_WR : Fld := ⟨.elzel, 0xD80108, 0x10, 63, 24⟩
def JRNL_REG_W1_WRAPS : Fld := ⟨.elzel, 0xD80108, 0x10, 23, 0⟩

/-- `EZ_JRNL_CKPT` (18_health_and_faults.md), 64 bits.  -/
def JRNL_CKPT_W0 : Nat := 0xD80200
def JRNL_CKPT_W0_JOB : Fld := ⟨.elzel, 0xD80200, 0x0, 63, 52⟩
def JRNL_CKPT_W0_STEP : Fld := ⟨.elzel, 0xD80200, 0x0, 47, 0⟩

/-- `EZ_JRNL_CKPT` (18_health_and_faults.md), 64 bits.  -/
def JRNL_CKPT_W1 : Nat := 0xD80208
def JRNL_CKPT_W1_HANDLE : Fld := ⟨.elzel, 0xD80208, 0x0, 63, 0⟩

/-- `EZ_HLT_CFG` (18_health_and_faults.md), 64 bits.  -/
def HLT_CFG : Nat := 0xDA0000
def HLT_CFG_WATCH : Fld := ⟨.elzel, 0xDA0000, 0x0, 63, 48⟩
def HLT_CFG_SUSPECT : Fld := ⟨.elzel, 0xDA0000, 0x0, 47, 32⟩
def HLT_CFG_EXPEL : Fld := ⟨.elzel, 0xDA0000, 0x0, 31, 16⟩
def HLT_CFG_DECAY_SHIFT : Fld := ⟨.elzel, 0xDA0000, 0x0, 15, 12⟩
def HLT_CFG_DECAY_INT : Fld := ⟨.elzel, 0xDA0000, 0x0, 11, 0⟩

/-- `EZ_HLT_WGT` (18_health_and_faults.md), 64 bits.  -/
def HLT_WGT : Nat := 0xDA0008
def HLT_WGT_DIG : Fld := ⟨.elzel, 0xDA0008, 0x0, 63, 48⟩
def HLT_WGT_OWL : Fld := ⟨.elzel, 0xDA0008, 0x0, 47, 32⟩
def HLT_WGT_REPLAY : Fld := ⟨.elzel, 0xDA0008, 0x0, 31, 16⟩
def HLT_WGT_HARD : Fld := ⟨.elzel, 0xDA0008, 0x0, 15, 12⟩
def HLT_WGT_CFX : Fld := ⟨.elzel, 0xDA0008, 0x0, 11, 8⟩
def HLT_WGT_LINK : Fld := ⟨.elzel, 0xDA0008, 0x0, 7, 4⟩

/-- `EZ_HLT_LIM` (18_health_and_faults.md), 64 bits.  -/
def HLT_LIM : Nat := 0xDA0010
def HLT_LIM_AUTO_OWL : Fld := ⟨.elzel, 0xDA0010, 0x0, 63, 63⟩
def HLT_LIM_EXP_MAX : Fld := ⟨.elzel, 0xDA0010, 0x0, 61, 56⟩
def HLT_LIM_EXP_WIN : Fld := ⟨.elzel, 0xDA0010, 0x0, 55, 48⟩
def HLT_LIM_OWL_CONFIRM : Fld := ⟨.elzel, 0xDA0010, 0x0, 47, 40⟩
def HLT_LIM_REPAIRING : Fld := ⟨.elzel, 0xDA0010, 0x0, 39, 32⟩
def HLT_LIM_OWL_CLEAR : Fld := ⟨.elzel, 0xDA0010, 0x0, 31, 16⟩
def HLT_LIM_TRIAL : Fld := ⟨.elzel, 0xDA0010, 0x0, 15, 0⟩

/-- `EZ_HLT_CNT` (18_health_and_faults.md), 64 bits.  -/
def HLT_CNT : Nat := 0xDA0018
def HLT_CNT_OPEN : Fld := ⟨.elzel, 0xDA0018, 0x0, 63, 56⟩
def HLT_CNT_SPARES_FREE : Fld := ⟨.elzel, 0xDA0018, 0x0, 55, 48⟩
def HLT_CNT_EXPELLED : Fld := ⟨.elzel, 0xDA0018, 0x0, 47, 32⟩
def HLT_CNT_HELD : Fld := ⟨.elzel, 0xDA0018, 0x0, 31, 16⟩
def HLT_CNT_WR_IGN : Fld := ⟨.elzel, 0xDA0018, 0x0, 15, 0⟩

/-- `EZ_HLT_REF` (18_health_and_faults.md), 64 bits.  -/
def HLT_REF_W0 : Nat := 0xDA0020
def HLT_REF_W0_JOB : Fld := ⟨.elzel, 0xDA0020, 0x0, 63, 52⟩
def HLT_REF_W0_STEP : Fld := ⟨.elzel, 0xDA0020, 0x0, 47, 0⟩

/-- `EZ_HLT_REF` (18_health_and_faults.md), 64 bits.  -/
def HLT_REF_W1 : Nat := 0xDA0028
def HLT_REF_W1_DIGEST : Fld := ⟨.elzel, 0xDA0028, 0x0, 63, 0⟩

/-- `EZ_HLT_DIE_n` (18_health_and_faults.md), 64 bits.  -/
def HLT_DIE_W0 : Nat := 0xDA1000
def HLT_DIE_W0_STATE : Fld := ⟨.elzel, 0xDA1000, 0x20, 63, 61⟩
def HLT_DIE_W0_VALID : Fld := ⟨.elzel, 0xDA1000, 0x20, 60, 60⟩
def HLT_DIE_W0_CHIP : Fld := ⟨.elzel, 0xDA1000, 0x20, 59, 42⟩
def HLT_DIE_W0_MISMATCHES : Fld := ⟨.elzel, 0xDA1000, 0x20, 31, 16⟩
def HLT_DIE_W0_SCORE : Fld := ⟨.elzel, 0xDA1000, 0x20, 15, 0⟩

/-- `EZ_HLT_DIE_n` (18_health_and_faults.md), 64 bits.  -/
def HLT_DIE_W1 : Nat := 0xDA1008
def HLT_DIE_W1_LAST_STEP : Fld := ⟨.elzel, 0xDA1008, 0x20, 63, 16⟩
def HLT_DIE_W1_OWL_MIS : Fld := ⟨.elzel, 0xDA1008, 0x20, 15, 0⟩

/-- `EZ_HLT_DIE_n` (18_health_and_faults.md), 64 bits.  -/
def HLT_DIE_W2 : Nat := 0xDA1010
def HLT_DIE_W2_LAST_HT : Fld := ⟨.elzel, 0xDA1010, 0x20, 63, 0⟩

/-- `EZ_HLT_DIE_n` (18_health_and_faults.md), 64 bits.  -/
def HLT_DIE_W3 : Nat := 0xDA1018
def HLT_DIE_W3_REMAPS : Fld := ⟨.elzel, 0xDA1018, 0x20, 63, 48⟩
def HLT_DIE_W3_TJ : Fld := ⟨.elzel, 0xDA1018, 0x20, 47, 32⟩
def HLT_DIE_W3_VDD : Fld := ⟨.elzel, 0xDA1018, 0x20, 31, 16⟩

/-- `EZ_HLT_SPARE_k` (18_health_and_faults.md), 64 bits.  -/
def HLT_SPARE : Nat := 0xDA2000
def HLT_SPARE_VALID : Fld := ⟨.elzel, 0xDA2000, 0x8, 63, 63⟩
def HLT_SPARE_TRIAL : Fld := ⟨.elzel, 0xDA2000, 0x8, 62, 62⟩
def HLT_SPARE_INUSE : Fld := ⟨.elzel, 0xDA2000, 0x8, 61, 61⟩
def HLT_SPARE_RESERVED : Fld := ⟨.elzel, 0xDA2000, 0x8, 60, 60⟩
def HLT_SPARE_CHIP : Fld := ⟨.elzel, 0xDA2000, 0x8, 17, 0⟩

/-- `EZ_HLT_OWL_k` (18_health_and_faults.md), 64 bits.  -/
def HLT_OWL_W0 : Nat := 0xDA3000
def HLT_OWL_W0_VALID : Fld := ⟨.elzel, 0xDA3000, 0x10, 63, 63⟩
def HLT_OWL_W0_OUTCOME : Fld := ⟨.elzel, 0xDA3000, 0x10, 62, 60⟩
def HLT_OWL_W0_TRIAL : Fld := ⟨.elzel, 0xDA3000, 0x10, 59, 59⟩
def HLT_OWL_W0_JOB : Fld := ⟨.elzel, 0xDA3000, 0x10, 58, 47⟩
def HLT_OWL_W0_SUBJ : Fld := ⟨.elzel, 0xDA3000, 0x10, 36, 19⟩
def HLT_OWL_W0_OWL : Fld := ⟨.elzel, 0xDA3000, 0x10, 18, 1⟩

/-- `EZ_HLT_OWL_k` (18_health_and_faults.md), 64 bits.  -/
def HLT_OWL_W1 : Nat := 0xDA3008
def HLT_OWL_W1_S_O : Fld := ⟨.elzel, 0xDA3008, 0x10, 63, 16⟩
def HLT_OWL_W1_MIS : Fld := ⟨.elzel, 0xDA3008, 0x10, 15, 0⟩

/-- `EZ_PWR_CTL` (14_power_envelope.md), 64 bits.  -/
def PWR_CTL : Nat := 0xE00000
def PWR_CTL_EN : Fld := ⟨.elzel, 0xE00000, 0x0, 63, 63⟩
def PWR_CTL_MASTER : Fld := ⟨.elzel, 0xE00000, 0x0, 62, 62⟩
def PWR_CTL_TAKEOVER : Fld := ⟨.elzel, 0xE00000, 0x0, 61, 61⟩
def PWR_CTL_ADDR : Fld := ⟨.elzel, 0xE00000, 0x0, 56, 50⟩
def PWR_CTL_POLL : Fld := ⟨.elzel, 0xE00000, 0x0, 49, 40⟩
def PWR_CTL_SOC_MIN : Fld := ⟨.elzel, 0xE00000, 0x0, 23, 16⟩

/-- `EZ_PWR_SHELF0` (14_power_envelope.md), 64 bits.  -/
def PWR_SHELF0 : Nat := 0xE00008
def PWR_SHELF0_TAU : Fld := ⟨.elzel, 0xE00008, 0x0, 63, 48⟩
def PWR_SHELF0_P_BUF : Fld := ⟨.elzel, 0xE00008, 0x0, 47, 32⟩
def PWR_SHELF0_E_BUF : Fld := ⟨.elzel, 0xE00008, 0x0, 31, 16⟩
def PWR_SHELF0_SLEW : Fld := ⟨.elzel, 0xE00008, 0x0, 15, 0⟩

/-- `EZ_PWR_SHELF1` (14_power_envelope.md), 64 bits.  -/
def PWR_SHELF1 : Nat := 0xE00010
def PWR_SHELF1_P_MAX : Fld := ⟨.elzel, 0xE00010, 0x0, 63, 48⟩
def PWR_SHELF1_CMD_TAU : Fld := ⟨.elzel, 0xE00010, 0x0, 47, 40⟩
def PWR_SHELF1_CMD_PBUF : Fld := ⟨.elzel, 0xE00010, 0x0, 39, 32⟩
def PWR_SHELF1_CMD_EBUF : Fld := ⟨.elzel, 0xE00010, 0x0, 31, 24⟩
def PWR_SHELF1_CMD_SOC : Fld := ⟨.elzel, 0xE00010, 0x0, 23, 16⟩

/-- `EZ_PWR_TEL0` (14_power_envelope.md), 64 bits.  -/
def PWR_TEL0 : Nat := 0xE00018
def PWR_TEL0_P_L : Fld := ⟨.elzel, 0xE00018, 0x0, 63, 48⟩
def PWR_TEL0_P_S : Fld := ⟨.elzel, 0xE00018, 0x0, 47, 32⟩
def PWR_TEL0_SOC : Fld := ⟨.elzel, 0xE00018, 0x0, 31, 24⟩
def PWR_TEL0_STATUS : Fld := ⟨.elzel, 0xE00018, 0x0, 23, 8⟩

/-- `EZ_PWR_TEL1` (14_power_envelope.md), 64 bits.  -/
def PWR_TEL1 : Nat := 0xE00020
def PWR_TEL1_E : Fld := ⟨.elzel, 0xE00020, 0x0, 63, 48⟩
def PWR_TEL1_VOUT : Fld := ⟨.elzel, 0xE00020, 0x0, 47, 32⟩

/-- `EZ_PWR_CNT` (14_power_envelope.md), 64 bits.  -/
def PWR_CNT : Nat := 0xE00028
def PWR_CNT_ENVELOPE : Fld := ⟨.elzel, 0xE00028, 0x0, 63, 48⟩
def PWR_CNT_PMBUS_ERR : Fld := ⟨.elzel, 0xE00028, 0x0, 47, 32⟩
def PWR_CNT_DEFERRED : Fld := ⟨.elzel, 0xE00028, 0x0, 31, 16⟩
def PWR_CNT_NOFIT : Fld := ⟨.elzel, 0xE00028, 0x0, 15, 0⟩

/-- `EZ_PWR_GRP_g` (14_power_envelope.md), 64 bits.  -/
def PWR_GRP : Nat := 0xE10000
def PWR_GRP_VALID : Fld := ⟨.elzel, 0xE10000, 0x8, 63, 63⟩
def PWR_GRP_G_MAX : Fld := ⟨.elzel, 0xE10000, 0x8, 39, 16⟩
def PWR_GRP_G_SLOPE : Fld := ⟨.elzel, 0xE10000, 0x8, 15, 0⟩

/-- `EZ_PWR_RACK_r` (14_power_envelope.md), 64 bits.  -/
def PWR_RACK : Nat := 0xE20000
def PWR_RACK_VALID : Fld := ⟨.elzel, 0xE20000, 0x8, 63, 63⟩
def PWR_RACK_LOW : Fld := ⟨.elzel, 0xE20000, 0x8, 62, 62⟩
def PWR_RACK_CAUSE : Fld := ⟨.elzel, 0xE20000, 0x8, 61, 60⟩
def PWR_RACK_GROUP : Fld := ⟨.elzel, 0xE20000, 0x8, 59, 54⟩
def PWR_RACK_P_L : Fld := ⟨.elzel, 0xE20000, 0x8, 47, 32⟩
def PWR_RACK_P_MAX : Fld := ⟨.elzel, 0xE20000, 0x8, 31, 16⟩

/-- `EZ_PST_CTL` (15_power_states.md), 64 bits.  -/
def PST_CTL : Nat := 0xE30000
def PST_CTL_QUIET_EN : Fld := ⟨.elzel, 0xE30000, 0x0, 63, 63⟩
def PST_CTL_AUTO_RESUME : Fld := ⟨.elzel, 0xE30000, 0x0, 62, 62⟩
def PST_CTL_REQ : Fld := ⟨.elzel, 0xE30000, 0x0, 61, 60⟩
def PST_CTL_FORCE : Fld := ⟨.elzel, 0xE30000, 0x0, 59, 59⟩
def PST_CTL_IDLE_MS : Fld := ⟨.elzel, 0xE30000, 0x0, 47, 32⟩

/-- `EZ_PST_STATUS` (15_power_states.md), 64 bits.  -/
def PST_STATUS : Nat := 0xE30008
def PST_STATUS_STATE : Fld := ⟨.elzel, 0xE30008, 0x0, 63, 62⟩
def PST_STATUS_ENTRY : Fld := ⟨.elzel, 0xE30008, 0x0, 61, 58⟩
def PST_STATUS_REFUSED : Fld := ⟨.elzel, 0xE30008, 0x0, 47, 32⟩
def PST_STATUS_DEN_TIME : Fld := ⟨.elzel, 0xE30008, 0x0, 31, 0⟩

/-- `EZ_PST_WAKE_AT` (15_power_states.md), 64 bits.  -/
def PST_WAKE_AT : Nat := 0xE30010
def PST_WAKE_AT_WAKE_AT : Fld := ⟨.elzel, 0xE30010, 0x0, 63, 0⟩

/-- `EZ_EVT_ROUTE_t` (16_events_and_interrupts.md), 64 bits.  -/
def EVT_ROUTE : Nat := 0xE40000
def EVT_ROUTE_RING_EN : Fld := ⟨.elzel, 0xE40000, 0x8, 63, 63⟩
def EVT_ROUTE_JRNL : Fld := ⟨.elzel, 0xE40000, 0x8, 62, 62⟩
def EVT_ROUTE_UP : Fld := ⟨.elzel, 0xE40000, 0x8, 61, 61⟩
def EVT_ROUTE_RING : Fld := ⟨.elzel, 0xE40000, 0x8, 53, 48⟩

/-- `GJ_EVT_RING_r` (16_events_and_interrupts.md), 64 bits.  -/
def EVT_RING_BASE : Nat := 0xE50000
def EVT_RING_BASE_BASE : Fld := ⟨.elzel, 0xE50000, 0x20, 63, 6⟩

/-- `GJ_EVT_RING_r` (16_events_and_interrupts.md), 64 bits.  -/
def EVT_RING_CFG : Nat := 0xE50008
def EVT_RING_CFG_EN : Fld := ⟨.elzel, 0xE50008, 0x20, 63, 63⟩
def EVT_RING_CFG_ARM : Fld := ⟨.elzel, 0xE50008, 0x20, 62, 62⟩
def EVT_RING_CFG_LOG2N : Fld := ⟨.elzel, 0xE50008, 0x20, 61, 57⟩
def EVT_RING_CFG_DROP : Fld := ⟨.elzel, 0xE50008, 0x20, 47, 32⟩

/-- `GJ_EVT_RING_r` (16_events_and_interrupts.md), 64 bits.  -/
def EVT_RING_PSHADOW : Nat := 0xE50010
def EVT_RING_PSHADOW_PSHADOW : Fld := ⟨.elzel, 0xE50010, 0x20, 63, 3⟩

/-- `GJ_EVT_RING_r` (16_events_and_interrupts.md), 64 bits.  -/
def EVT_RING_INDEX : Nat := 0xE50018
def EVT_RING_INDEX_PROD : Fld := ⟨.elzel, 0xE50018, 0x20, 63, 32⟩
def EVT_RING_INDEX_CONS : Fld := ⟨.elzel, 0xE50018, 0x20, 31, 0⟩

/-- `GJ_IRQ_PEND` (16_events_and_interrupts.md), 64 bits.  -/
def IRQ_PEND : Nat := 0xE60000
def IRQ_PEND_PEND : Fld := ⟨.elzel, 0xE60000, 0x0, 15, 0⟩

/-- `GJ_IRQ_MASK_p` (16_events_and_interrupts.md), 64 bits.  -/
def IRQ_MASK : Nat := 0xE60008
def IRQ_MASK_MASK : Fld := ⟨.elzel, 0xE60008, 0x0, 15, 0⟩

/-- `GJ_DEN_WATCH` (16_events_and_interrupts.md), 64 bits.  -/
def DEN_WATCH : Nat := 0xE60010
def DEN_WATCH_FIRED : Fld := ⟨.elzel, 0xE60010, 0x0, 63, 63⟩
def DEN_WATCH_REASON : Fld := ⟨.elzel, 0xE60010, 0x0, 62, 61⟩
def DEN_WATCH_TYPE : Fld := ⟨.elzel, 0xE60010, 0x0, 60, 51⟩
def DEN_WATCH_STAMP : Fld := ⟨.elzel, 0xE60010, 0x0, 47, 16⟩
def DEN_WATCH_WATCH_US : Fld := ⟨.elzel, 0xE60010, 0x0, 15, 0⟩

/-- `GJ_EVT_STATUS` (16_events_and_interrupts.md), 64 bits.  -/
def EVT_STATUS : Nat := 0xE60018
def EVT_STATUS_QFILL : Fld := ⟨.elzel, 0xE60018, 0x0, 63, 51⟩
def EVT_STATUS_QDROP : Fld := ⟨.elzel, 0xE60018, 0x0, 47, 32⟩
def EVT_STATUS_UP_DROP : Fld := ⟨.elzel, 0xE60018, 0x0, 31, 16⟩
def EVT_STATUS_NOROUTE : Fld := ⟨.elzel, 0xE60018, 0x0, 15, 8⟩
def EVT_STATUS_INIT_FAULT : Fld := ⟨.elzel, 0xE60018, 0x0, 7, 0⟩

/-- `GJ_RST_CTL` (19_reset_and_recovery.md), 64 bits.  -/
def RST_CTL : Nat := 0xE70000
def RST_CTL_LEVEL : Fld := ⟨.elzel, 0xE70000, 0x0, 63, 61⟩
def RST_CTL_SUBSYS : Fld := ⟨.elzel, 0xE70000, 0x0, 60, 56⟩
def RST_CTL_CTX : Fld := ⟨.elzel, 0xE70000, 0x0, 55, 48⟩
def RST_CTL_PART : Fld := ⟨.elzel, 0xE70000, 0x0, 47, 40⟩

/-- `GJ_RST_STATUS` (19_reset_and_recovery.md), 64 bits.  -/
def RST_STATUS : Nat := 0xE70008
def RST_STATUS_DONE : Fld := ⟨.elzel, 0xE70008, 0x0, 63, 63⟩
def RST_STATUS_BUSY : Fld := ⟨.elzel, 0xE70008, 0x0, 62, 62⟩
def RST_STATUS_OVER : Fld := ⟨.elzel, 0xE70008, 0x0, 61, 61⟩
def RST_STATUS_LEVEL : Fld := ⟨.elzel, 0xE70008, 0x0, 60, 58⟩
def RST_STATUS_STATUS : Fld := ⟨.elzel, 0xE70008, 0x0, 57, 50⟩
def RST_STATUS_ELAPSED : Fld := ⟨.elzel, 0xE70008, 0x0, 49, 32⟩
def RST_STATUS_COLDS : Fld := ⟨.elzel, 0xE70008, 0x0, 31, 16⟩
def RST_STATUS_RESETS : Fld := ⟨.elzel, 0xE70008, 0x0, 15, 0⟩

/-- `GJ_RST_HBCFG` (19_reset_and_recovery.md), 64 bits.  -/
def RST_HBCFG : Nat := 0xE70010
def RST_HBCFG_HB_EN : Fld := ⟨.elzel, 0xE70010, 0x0, 63, 63⟩
def RST_HBCFG_HB_INT : Fld := ⟨.elzel, 0xE70010, 0x0, 47, 32⟩
def RST_HBCFG_MARK : Fld := ⟨.elzel, 0xE70010, 0x0, 31, 24⟩
def RST_HBCFG_MISS : Fld := ⟨.elzel, 0xE70010, 0x0, 23, 16⟩

/-- `GJ_RST_STALL` (19_reset_and_recovery.md), 64 bits.  -/
def RST_STALL : Nat := 0xE70018
def RST_STALL_STALL_1 : Fld := ⟨.elzel, 0xE70018, 0x0, 7, 0⟩
def RST_STALL_STALL_2 : Fld := ⟨.elzel, 0xE70018, 0x0, 15, 8⟩
def RST_STALL_STALL_3 : Fld := ⟨.elzel, 0xE70018, 0x0, 23, 16⟩
def RST_STALL_STALL_4 : Fld := ⟨.elzel, 0xE70018, 0x0, 31, 24⟩
def RST_STALL_STALL_5 : Fld := ⟨.elzel, 0xE70018, 0x0, 39, 32⟩
def RST_STALL_STALL_6 : Fld := ⟨.elzel, 0xE70018, 0x0, 47, 40⟩
def RST_STALL_STALL_7 : Fld := ⟨.elzel, 0xE70018, 0x0, 55, 48⟩

/-- `GJ_RST_BEAT` (19_reset_and_recovery.md), 64 bits.  -/
def RST_BEAT : Nat := 0xE70020
def RST_BEAT_DEN_BEAT : Fld := ⟨.elzel, 0xE70020, 0x0, 63, 32⟩
def RST_BEAT_FW_BEAT : Fld := ⟨.elzel, 0xE70020, 0x0, 31, 0⟩

/-- `GJ_CAP_CTL` (19_reset_and_recovery.md), 64 bits.  -/
def CAP_CTL : Nat := 0xE70028
def CAP_CTL_SLOT : Fld := ⟨.elzel, 0xE70028, 0x0, 63, 63⟩
def CAP_CTL_UNREAD0 : Fld := ⟨.elzel, 0xE70028, 0x0, 62, 62⟩
def CAP_CTL_UNREAD1 : Fld := ⟨.elzel, 0xE70028, 0x0, 61, 61⟩
def CAP_CTL_NEWEST : Fld := ⟨.elzel, 0xE70028, 0x0, 60, 60⟩
def CAP_CTL_LOST : Fld := ⟨.elzel, 0xE70028, 0x0, 47, 32⟩
def CAP_CTL_INDEX : Fld := ⟨.elzel, 0xE70028, 0x0, 14, 0⟩

/-- `GJ_CAP_DATA` (19_reset_and_recovery.md), 64 bits.  -/
def CAP_DATA : Nat := 0xE70030
def CAP_DATA_DATA : Fld := ⟨.elzel, 0xE70030, 0x0, 63, 0⟩

/-- `EZ_BOOT_STATUS` (23_bring_up_and_monitor.md), 64 bits.  -/
def BOOT_STATUS : Nat := 0xE80000
def BOOT_STATUS_STAGE : Fld := ⟨.elzel, 0xE80000, 0x0, 63, 61⟩
def BOOT_STATUS_REASON : Fld := ⟨.elzel, 0xE80000, 0x0, 60, 57⟩
def BOOT_STATUS_TREE_READY : Fld := ⟨.elzel, 0xE80000, 0x0, 56, 56⟩
def BOOT_STATUS_STRAPS : Fld := ⟨.elzel, 0xE80000, 0x0, 55, 48⟩
def BOOT_STATUS_FW_LEVEL : Fld := ⟨.elzel, 0xE80000, 0x0, 47, 32⟩
def BOOT_STATUS_BOOT_MS : Fld := ⟨.elzel, 0xE80000, 0x0, 31, 0⟩

/-- `EZ_FW_ADDR` (23_bring_up_and_monitor.md), 64 bits.  -/
def FW_ADDR : Nat := 0xE80008
def FW_ADDR_ADDR : Fld := ⟨.elzel, 0xE80008, 0x0, 63, 6⟩

/-- `EZ_FW_CTL` (23_bring_up_and_monitor.md), 64 bits.  -/
def FW_CTL : Nat := 0xE80010
def FW_CTL_OP : Fld := ⟨.elzel, 0xE80010, 0x0, 63, 61⟩
def FW_CTL_STATE : Fld := ⟨.elzel, 0xE80010, 0x0, 60, 59⟩
def FW_CTL_STATUS : Fld := ⟨.elzel, 0xE80010, 0x0, 58, 51⟩
def FW_CTL_LEN : Fld := ⟨.elzel, 0xE80010, 0x0, 25, 0⟩

/-- `EZ_MON_CTL` (23_bring_up_and_monitor.md), 64 bits.  -/
def MON_CTL : Nat := 0xE80018
def MON_CTL_WRITE_EN : Fld := ⟨.elzel, 0xE80018, 0x0, 63, 63⟩

/-- `MSI-X table address` (16_events_and_interrupts.md), 64 bits.  -/
def MSIX_ADDR : Nat := 0xF00000
def MSIX_ADDR_ADDR : Fld := ⟨.elzel, 0xF00000, 0x10, 63, 0⟩

/-- `MSI-X table data and vector control` (16_events_and_interrupts.md), 64 bits.  -/
def MSIX_VEC : Nat := 0xF00008
def MSIX_VEC_MASK : Fld := ⟨.elzel, 0xF00008, 0x10, 32, 32⟩
def MSIX_VEC_DATA : Fld := ⟨.elzel, 0xF00008, 0x10, 31, 0⟩

/-- `MSI-X pending bit array` (16_events_and_interrupts.md), 64 bits.  -/
def MSIX_PBA : Nat := 0xF08000
def MSIX_PBA_PEND : Fld := ⟨.elzel, 0xF08000, 0x8, 63, 0⟩

/-- Rows of the register map: offset, stride, count, reset, and the RW, W1C, RC and WO masks. -/
def rows0 : List RegRow :=
  [⟨0x100, 0x0, 1, 0x0, 0xF800000000000000, 0x0, 0x0, 0x0⟩,
   ⟨0x1000, 0x8, 64, 0x0, 0xC00000000003FFFF, 0x0, 0x0, 0x0⟩,
   ⟨0x20000, 0x40, 76, 0x3C0000000000000, 0xFFFFFFFF80000000, 0x0, 0x0, 0x0⟩,
   ⟨0x20008, 0x40, 76, 0x2000000000000000, 0x0, 0x0, 0xFFFFFFFFFFFF00, 0x0⟩,
   ⟨0x20010, 0x40, 76, 0x0, 0x0, 0x0, 0xF0FFFFFFFFFFFFFF, 0x0⟩,
   ⟨0x20018, 0x40, 76, 0x0, 0xCFE00000FFFFFFFF, 0x0, 0x0, 0x0⟩,
   ⟨0x20020, 0x40, 76, 0x0, 0x0, 0x0, 0x9FFF000000000000, 0x0⟩,
   ⟨0x20028, 0x40, 76, 0x0, 0x9FFFFFFFFF000000, 0x0, 0x0, 0x0⟩,
   ⟨0x20030, 0x40, 76, 0x0, 0x0, 0x0, 0x8000000000000000, 0x0⟩,
   ⟨0x20038, 0x40, 76, 0x0, 0x0, 0x0, 0x0, 0x0⟩,
   ⟨0x21400, 0x0, 1, 0x28000400000A0000, 0x3E00FF00FFFF0000, 0x0, 0x0, 0x8000000000000000⟩,
   ⟨0x21408, 0x0, 1, 0x0, 0x7FFF, 0x0, 0x0, 0x0⟩,
   ⟨0x21410, 0x0, 1, 0x0, 0x0, 0x0, 0x0, 0x0⟩,
   ⟨0x30000, 0x80, 68, 0x80400C8000000000, 0xBFFFFF8000000000, 0x0, 0x0, 0x4000000000000000⟩,
   ⟨0x30008, 0x80, 68, 0x0, 0x0, 0x0, 0xFFF, 0x0⟩,
   ⟨0x30010, 0x80, 68, 0x0, 0xFFFFFFFF00000000, 0x0, 0x0, 0x0⟩,
   ⟨0x30018, 0x80, 68, 0x0, 0x0, 0x0, 0x0, 0x0⟩,
   ⟨0x30020, 0x80, 68, 0x0, 0x0, 0x0, 0x0, 0x0⟩,
   ⟨0x30028, 0x80, 68, 0x0, 0x0, 0x0, 0xFFFFFFFFFFFFFFFF, 0x0⟩,
   ⟨0x30030, 0x80, 68, 0x0, 0x0, 0x0, 0xFFFFFFFFFFFFFFFF, 0x0⟩,
   ⟨0x30038, 0x80, 68, 0x0, 0xFFFF, 0x0, 0x0, 0x0⟩,
   ⟨0x40000, 0x0, 1, 0x8000012C00320064, 0xC000FFFFFFFFFFFF, 0x0, 0x0, 0x3C00000000000000⟩,
   ⟨0x40008, 0x0, 1, 0x3800000000000000, 0x0, 0x0, 0xFFFF00000000, 0x0⟩,
   ⟨0x40010, 0x0, 1, 0xFFFFFF, 0xFFFFFF, 0x0, 0x0, 0x0⟩,
   ⟨0x40100, 0x10, 6, 0x0, 0xFFFFFFFFFFFFFF80, 0x0, 0x0, 0x0⟩,
   ⟨0x40108, 0x10, 6, 0x0, 0x0, 0x0, 0x1FF000000000000, 0x0⟩,
   ⟨0x40180, 0x8, 4, 0x0, 0xFFFFFFFF, 0x0, 0x0, 0x0⟩,
   ⟨0x40200, 0x0, 1, 0x52C9C40430D43E8, 0xFFFFFFFFFFFFFFFF, 0x0, 0x0, 0x0⟩,
   ⟨0x40208, 0x0, 1, 0x0, 0x0, 0x0, 0x0, 0x0⟩,
   ⟨0x40210, 0x0, 1, 0x0, 0xFFFFFFFF, 0x0, 0x0, 0x0⟩,
   ⟨0x50000, 0x0, 1, 0x0, 0x0, 0x0, 0x0, 0x0⟩,
   ⟨0x50008, 0x0, 1, 0x0, 0x0, 0x0, 0x0, 0x0⟩,
   ⟨0x50010, 0x0, 1, 0x0, 0x0, 0x0, 0x0, 0x0⟩,
   ⟨0x50108, 0x0, 1, 0x8000000000000000, 0xD000000000000000, 0x0, 0x0, 0x0⟩,
   ⟨0x50128, 0x0, 1, 0x100000000, 0xFFFFFFFFF, 0x0, 0x0, 0x0⟩,
   ⟨0x50130, 0x0, 1, 0x400000000000, 0xFFFFFF0000000000, 0x0, 0x0, 0x0⟩,
   ⟨0x50138, 0x0, 1, 0x0, 0x0, 0x0, 0x0, 0xFFFFFFFFFFFFFFFF⟩,
   ⟨0x50140, 0x0, 1, 0x64400FA00FA2710, 0xFFFFFFFFFFFFFFFF, 0x0, 0x0, 0x0⟩,
   ⟨0x50200, 0x0, 1, 0xCA0012C0440000A, 0xFFF0FFFFFFFFFFFF, 0x0, 0x0, 0x8000000000000⟩,
   ⟨0x50208, 0x0, 1, 0x3800000000000000, 0x0, 0x0, 0x0, 0x0⟩]

/-- Rows of the register map: offset, stride, count, reset, and the RW, W1C, RC and WO masks. -/
def rows1 : List RegRow :=
  [⟨0x50210, 0x8, 4, 0x0, 0x0, 0x0, 0x0, 0x0⟩,
   ⟨0x50300, 0x0, 1, 0x80000000000000C8, 0x80000000FFFFFFFF, 0x0, 0x0, 0x0⟩,
   ⟨0x60000, 0x100, 2, 0x42020180000, 0xFFFFFFFFFFFFFFC0, 0x0, 0x0, 0x0⟩,
   ⟨0x60008, 0x100, 2, 0x3000000000000000, 0x0, 0x0, 0xFFFFF00000000, 0x0⟩,
   ⟨0x60010, 0x100, 2, 0x0, 0xFFFFFFFFFFFFFFFF, 0x0, 0x0, 0x0⟩,
   ⟨0x60018, 0x100, 2, 0x0, 0x0, 0x0, 0xF80000000000FFFF, 0x0⟩,
   ⟨0x60020, 0x100, 2, 0x0, 0x0, 0x0, 0x0, 0x0⟩,
   ⟨0x60028, 0x100, 2, 0x0, 0x0, 0x0, 0xFFFFFFFF0000, 0x0⟩,
   ⟨0x60030, 0x100, 2, 0x0, 0x0, 0x0, 0x0, 0xFFFFFFFFFFFFFFFF⟩,
   ⟨0x60038, 0x100, 2, 0x0, 0x0, 0x0, 0x0, 0xFFFFFFFFFFFFF000⟩,
   ⟨0x60200, 0x0, 1, 0xE0000000000186A0, 0xE0FFFFFFFFFFFFFF, 0x0, 0x0, 0x0⟩,
   ⟨0x60208, 0x0, 1, 0x0, 0x0, 0x0, 0xFFFF00000000, 0x0⟩,
   ⟨0x60300, 0x0, 1, 0x32000F42400064, 0xBFFFFFFFFFFFFFFF, 0x0, 0x0, 0x4000000000000000⟩,
   ⟨0x60308, 0x0, 1, 0x0, 0xFFFFFFFFFFFFFFFF, 0x0, 0x0, 0x0⟩,
   ⟨0x60310, 0x0, 1, 0x0, 0x0, 0x0, 0x0, 0x0⟩,
   ⟨0x60400, 0x0, 1, 0x8000000000000000, 0xB800FFFF00000000, 0x0, 0xFFFF0000, 0x0⟩,
   ⟨0xC0000, 0x0, 1, 0x8000000000000000, 0x8000000000000000, 0x0, 0x0, 0x0⟩,
   ⟨0xC0008, 0x0, 1, 0x8001002000000000, 0x0, 0x0, 0xFFFF, 0x0⟩,
   ⟨0xC0010, 0x0, 1, 0x0, 0x0, 0x0, 0xFFFFFFFFFFFFFFFF, 0x0⟩,
   ⟨0xC0018, 0x0, 1, 0x0, 0x0, 0x0, 0xFFFFFFFFFFFFFFFF, 0x0⟩,
   ⟨0xC0020, 0x0, 1, 0x0, 0x0, 0x0, 0xFFFFFFFFFFFFFFFF, 0x0⟩,
   ⟨0xC0028, 0x0, 1, 0xFF00FF30000000, 0x0, 0x0, 0x0, 0x0⟩,
   ⟨0xC0100, 0x0, 1, 0xDAC00C800000000, 0xFFFFFFFF00000000, 0x0, 0x0, 0x0⟩,
   ⟨0x100000, 0x20, 4096, 0x0, 0xFFFFFFFFFFFFFFFF, 0x0, 0x0, 0x0⟩,
   ⟨0x100008, 0x20, 4096, 0x0, 0xFFFFFF8000000000, 0x0, 0x0, 0x0⟩,
   ⟨0x100010, 0x20, 4096, 0x0, 0x0, 0x0, 0x0, 0x0⟩,
   ⟨0x100018, 0x20, 4096, 0x0, 0x0, 0x0, 0x0, 0x0⟩,
   ⟨0x200000, 0x10, 16384, 0x0, 0xFFFFFFFFFFFFFC00, 0x0, 0x0, 0x0⟩,
   ⟨0x200008, 0x10, 16384, 0x0, 0xFFFFFFFFFFFFFFFF, 0x0, 0x0, 0x0⟩,
   ⟨0x800000, 0x8, 524288, 0x0, 0x7FFFF, 0x0, 0x0, 0x0⟩,
   ⟨0xC00000, 0x10, 4096, 0x0, 0xFFFFFFFF, 0x0, 0x0, 0x0⟩,
   ⟨0xC00008, 0x10, 4096, 0x0, 0xFFFFFFFFFFFFFFFF, 0x0, 0x0, 0x0⟩,
   ⟨0xC80000, 0x40, 1024, 0x0, 0xFFFFFFFFFFFFFFC0, 0x0, 0x0, 0x0⟩,
   ⟨0xC80008, 0x40, 1024, 0x0, 0xFFFFFFFFFFFFFFC0, 0x0, 0x0, 0x0⟩,
   ⟨0xC80010, 0x40, 1024, 0x0, 0xFFFFFFFFFFFFFFF8, 0x0, 0x0, 0x0⟩,
   ⟨0xC80018, 0x40, 1024, 0x1100000000000000, 0xFFC0000000000000, 0x0, 0xFFFF, 0x0⟩,
   ⟨0xC80020, 0x40, 1024, 0x0, 0x0, 0x0, 0x0, 0x0⟩,
   ⟨0xC80028, 0x40, 1024, 0x0, 0x0, 0x0, 0x0, 0x0⟩,
   ⟨0xC90000, 0x0, 1, 0x2710000000000000, 0xFFFF000000000000, 0x0, 0x0, 0x0⟩,
   ⟨0xC90008, 0x0, 1, 0x0, 0x0, 0x0, 0xFFFFFFFFFFFF, 0x0⟩]

/-- Rows of the register map: offset, stride, count, reset, and the RW, W1C, RC and WO masks. -/
def rows2 : List RegRow :=
  [⟨0xC90010, 0x0, 1, 0x0, 0x0, 0x0, 0x0, 0x0⟩,
   ⟨0xD00000, 0x20, 16, 0x0, 0x0, 0x0, 0x0, 0x0⟩,
   ⟨0xD00008, 0x20, 16, 0x0, 0x0, 0x0, 0x0, 0x0⟩,
   ⟨0xD00010, 0x20, 16, 0x0, 0x0, 0x0, 0x0, 0x0⟩,
   ⟨0xD00200, 0x0, 1, 0x3E8012C00002710, 0xFFFFFFFFFFFFFFFF, 0x0, 0x0, 0x0⟩,
   ⟨0xD00208, 0x0, 1, 0x0, 0x0, 0x0, 0xFFFFFFFFFFFFFFFF, 0x0⟩,
   ⟨0xD80000, 0x0, 1, 0x0, 0xE000000000000000, 0x0, 0xFFFFFFFF, 0x0⟩,
   ⟨0xD80100, 0x10, 5, 0x0, 0xFFFF000000000000, 0x0, 0x0, 0x0⟩,
   ⟨0xD80108, 0x10, 5, 0x0, 0x0, 0x0, 0x0, 0x0⟩,
   ⟨0xD80200, 0x0, 1, 0x0, 0x0, 0x0, 0x0, 0xFFF0FFFFFFFFFFFF⟩,
   ⟨0xD80208, 0x0, 1, 0x0, 0x0, 0x0, 0x0, 0xFFFFFFFFFFFFFFFF⟩,
   ⟨0xDA0000, 0x0, 1, 0x100020003000403C, 0xFFFFFFFFFFFFFFFF, 0x0, 0x0, 0x0⟩,
   ⟨0xDA0008, 0x0, 1, 0x2000200020002410, 0xFFFFFFFFFFFFFFF0, 0x0, 0x0, 0x0⟩,
   ⟨0xDA0010, 0x0, 1, 0x840F02000258012C, 0xBFFFFFFFFFFFFFFF, 0x0, 0x0, 0x0⟩,
   ⟨0xDA0018, 0x0, 1, 0x0, 0x0, 0x0, 0xFFFFFFFFFFFF, 0x0⟩,
   ⟨0xDA0020, 0x0, 1, 0x0, 0x0, 0x0, 0x0, 0xFFF0FFFFFFFFFFFF⟩,
   ⟨0xDA0028, 0x0, 1, 0x0, 0x0, 0x0, 0x0, 0xFFFFFFFFFFFFFFFF⟩,
   ⟨0xDA1000, 0x20, 64, 0x0, 0x0, 0x0, 0x0, 0x0⟩,
   ⟨0xDA1008, 0x20, 64, 0x0, 0x0, 0x0, 0x0, 0x0⟩,
   ⟨0xDA1010, 0x20, 64, 0x0, 0x0, 0x0, 0x0, 0x0⟩,
   ⟨0xDA1018, 0x20, 64, 0x0, 0x0, 0x0, 0x0, 0x0⟩,
   ⟨0xDA2000, 0x8, 64, 0x0, 0xC00000000003FFFF, 0x0, 0x0, 0x0⟩,
   ⟨0xDA3000, 0x10, 64, 0x0, 0x0, 0x0, 0x0, 0x0⟩,
   ⟨0xDA3008, 0x10, 64, 0x0, 0x0, 0x0, 0x0, 0x0⟩,
   ⟨0xE00000, 0x0, 1, 0xA0000320000, 0xC1FFFF0000FF0000, 0x0, 0x0, 0x0⟩,
   ⟨0xE00008, 0x0, 1, 0x0, 0xFFFFFFFFFFFFFFFF, 0x0, 0x0, 0x0⟩,
   ⟨0xE00010, 0x0, 1, 0x0, 0xFFFFFFFFFFFF0000, 0x0, 0x0, 0x0⟩,
   ⟨0xE00018, 0x0, 1, 0x0, 0x0, 0x0, 0x0, 0x0⟩,
   ⟨0xE00020, 0x0, 1, 0x0, 0x0, 0x0, 0x0, 0x0⟩,
   ⟨0xE00028, 0x0, 1, 0x0, 0x0, 0x0, 0xFFFFFFFFFFFFFFFF, 0x0⟩,
   ⟨0xE10000, 0x8, 64, 0x0, 0x800000FFFFFFFFFF, 0x0, 0x0, 0x0⟩,
   ⟨0xE20000, 0x8, 4096, 0x0, 0xFC0000000000000, 0x0, 0x0, 0x0⟩,
   ⟨0xE30000, 0x0, 1, 0x8000006400000000, 0xC000FFFF00000000, 0x0, 0x0, 0x3800000000000000⟩,
   ⟨0xE30008, 0x0, 1, 0x0, 0x0, 0x0, 0xFFFF00000000, 0x0⟩,
   ⟨0xE30010, 0x0, 1, 0x0, 0xFFFFFFFFFFFFFFFF, 0x0, 0x0, 0x0⟩,
   ⟨0xE40000, 0x8, 1024, 0xC000000000000000, 0xE03F000000000000, 0x0, 0x0, 0x0⟩,
   ⟨0xE50000, 0x20, 64, 0x0, 0xFFFFFFFFFFFFFFC0, 0x0, 0x0, 0x0⟩,
   ⟨0xE50008, 0x20, 64, 0x4C00000000000000, 0xFE00000000000000, 0x0, 0xFFFF00000000, 0x0⟩,
   ⟨0xE50010, 0x20, 64, 0x0, 0xFFFFFFFFFFFFFFF8, 0x0, 0x0, 0x0⟩,
   ⟨0xE50018, 0x20, 64, 0x0, 0x0, 0x0, 0x0, 0x0⟩]

/-- Rows of the register map: offset, stride, count, reset, and the RW, W1C, RC and WO masks. -/
def rows3 : List RegRow :=
  [⟨0xE60000, 0x0, 1, 0x0, 0x0, 0xFFFF, 0x0, 0x0⟩,
   ⟨0xE60008, 0x0, 1, 0xFFFF, 0xFFFF, 0x0, 0x0, 0x0⟩,
   ⟨0xE60010, 0x0, 1, 0x3E8, 0xFFFF, 0x0, 0x8000000000000000, 0x0⟩,
   ⟨0xE60018, 0x0, 1, 0x0, 0x0, 0x0, 0xFFFFFFFFFFFF, 0x0⟩,
   ⟨0xE70000, 0x0, 1, 0x0, 0x0, 0x0, 0x0, 0xFFFFFF0000000000⟩,
   ⟨0xE70008, 0x0, 1, 0x0, 0x0, 0x0, 0x0, 0x0⟩,
   ⟨0xE70010, 0x0, 1, 0x800003E864020000, 0x8000FFFFFFFF0000, 0x0, 0x0, 0x0⟩,
   ⟨0xE70018, 0x0, 1, 0x0, 0x0, 0x0, 0x0, 0x0⟩,
   ⟨0xE70020, 0x0, 1, 0x0, 0x0, 0x0, 0x0, 0x0⟩,
   ⟨0xE70028, 0x0, 1, 0x0, 0x8000000000007FFF, 0x0, 0xFFFF00000000, 0x0⟩,
   ⟨0xE70030, 0x0, 1, 0x0, 0x0, 0x0, 0x0, 0x0⟩,
   ⟨0xE80000, 0x0, 1, 0x0, 0x0, 0x0, 0x0, 0x0⟩,
   ⟨0xE80008, 0x0, 1, 0x0, 0xFFFFFFFFFFFFFFC0, 0x0, 0x0, 0x0⟩,
   ⟨0xE80010, 0x0, 1, 0x0, 0x3FFFFFF, 0x0, 0x0, 0xE000000000000000⟩,
   ⟨0xE80018, 0x0, 1, 0x0, 0x8000000000000000, 0x0, 0x0, 0x0⟩,
   ⟨0xF00000, 0x10, 2048, 0x0, 0xFFFFFFFFFFFFFFFF, 0x0, 0x0, 0x0⟩,
   ⟨0xF00008, 0x10, 2048, 0x100000000, 0x1FFFFFFFF, 0x0, 0x0, 0x0⟩,
   ⟨0xF08000, 0x8, 32, 0x0, 0x0, 0x0, 0x0, 0x0⟩]

/-- The register map of this part. -/
def rows : List RegRow := rows0 ++ rows1 ++ rows2 ++ rows3

/-- The rows whose reset value is not zero (offset, stride, count, value). -/
def nonzero : List (Nat × Nat × Nat × Nat) :=
  [(0x20000, 0x40, 76, 0x3C0000000000000),
   (0x20008, 0x40, 76, 0x2000000000000000),
   (0x21400, 0x0, 1, 0x28000400000A0000),
   (0x30000, 0x80, 68, 0x80400C8000000000),
   (0x40000, 0x0, 1, 0x8000012C00320064),
   (0x40008, 0x0, 1, 0x3800000000000000),
   (0x40010, 0x0, 1, 0xFFFFFF),
   (0x40200, 0x0, 1, 0x52C9C40430D43E8),
   (0x50108, 0x0, 1, 0x8000000000000000),
   (0x50128, 0x0, 1, 0x100000000),
   (0x50130, 0x0, 1, 0x400000000000),
   (0x50140, 0x0, 1, 0x64400FA00FA2710),
   (0x50200, 0x0, 1, 0xCA0012C0440000A),
   (0x50208, 0x0, 1, 0x3800000000000000),
   (0x50300, 0x0, 1, 0x80000000000000C8),
   (0x60000, 0x100, 2, 0x42020180000),
   (0x60008, 0x100, 2, 0x3000000000000000),
   (0x60200, 0x0, 1, 0xE0000000000186A0),
   (0x60300, 0x0, 1, 0x32000F42400064),
   (0x60400, 0x0, 1, 0x8000000000000000),
   (0xC0000, 0x0, 1, 0x8000000000000000),
   (0xC0008, 0x0, 1, 0x8001002000000000),
   (0xC0028, 0x0, 1, 0xFF00FF30000000),
   (0xC0100, 0x0, 1, 0xDAC00C800000000),
   (0xC80018, 0x40, 1024, 0x1100000000000000),
   (0xC90000, 0x0, 1, 0x2710000000000000),
   (0xD00200, 0x0, 1, 0x3E8012C00002710),
   (0xDA0000, 0x0, 1, 0x100020003000403C),
   (0xDA0008, 0x0, 1, 0x2000200020002410),
   (0xDA0010, 0x0, 1, 0x840F02000258012C),
   (0xE00000, 0x0, 1, 0xA0000320000),
   (0xE30000, 0x0, 1, 0x8000006400000000),
   (0xE40000, 0x8, 1024, 0xC000000000000000),
   (0xE50008, 0x20, 64, 0x4C00000000000000),
   (0xE60008, 0x0, 1, 0xFFFF),
   (0xE60010, 0x0, 1, 0x3E8),
   (0xE70010, 0x0, 1, 0x800003E864020000),
   (0xF00008, 0x10, 2048, 0x100000000)]

end EZ
end Sys2Proof.Machine
end

