-- ==== Sys2Proof/Machine/RegsGarja.lean ====
section
/-!
DEFINITION. Sys2Proof/Machine/RegsGarja.lean: the registers of Garja (R407) with their fields, access masks and reset values, from the register tables.
-/
namespace Sys2Proof.Machine
namespace GJ

/-- `GJ_CHIP` (01_hall_organisation.md), 64 bits.  -/
def CHIP : Nat := 0x40
def CHIP_VALID : Fld := ⟨.garja, 0x40, 0x0, 63, 63⟩
def CHIP_LOCK : Fld := ⟨.garja, 0x40, 0x0, 62, 62⟩
def CHIP_CHIP : Fld := ⟨.garja, 0x40, 0x0, 17, 0⟩

/-- `GJ_TREE_A` (01_hall_organisation.md), 64 bits.  -/
def TREE_A : Nat := 0x48
def TREE_A_VALID : Fld := ⟨.garja, 0x48, 0x0, 63, 63⟩
def TREE_A_DEPTH : Fld := ⟨.garja, 0x48, 0x0, 62, 61⟩
def TREE_A_HELD : Fld := ⟨.garja, 0x48, 0x0, 60, 60⟩
def TREE_A_T : Fld := ⟨.garja, 0x48, 0x0, 17, 12⟩
def TREE_A_L : Fld := ⟨.garja, 0x48, 0x0, 11, 6⟩
def TREE_A_P : Fld := ⟨.garja, 0x48, 0x0, 5, 0⟩

/-- `GJ_TREE_A` (01_hall_organisation.md), 64 bits.  -/
def TREE_B : Nat := 0x50
def TREE_B_VALID : Fld := ⟨.garja, 0x50, 0x0, 63, 63⟩
def TREE_B_DEPTH : Fld := ⟨.garja, 0x50, 0x0, 62, 61⟩
def TREE_B_HELD : Fld := ⟨.garja, 0x50, 0x0, 60, 60⟩
def TREE_B_T : Fld := ⟨.garja, 0x50, 0x0, 17, 12⟩
def TREE_B_L : Fld := ⟨.garja, 0x50, 0x0, 11, 6⟩
def TREE_B_P : Fld := ⟨.garja, 0x50, 0x0, 5, 0⟩

/-- `GJ_CLK_STATUS` (02_clocks_and_time_base.md), 64 bits.  -/
def CLK_STATUS : Nat := 0x100
def CLK_STATUS_GPLL_LOCK : Fld := ⟨.garja, 0x100, 0x0, 63, 63⟩
def CLK_STATUS_GPLL_SRC : Fld := ⟨.garja, 0x100, 0x0, 62, 61⟩
def CLK_STATUS_SCLK_GATED : Fld := ⟨.garja, 0x100, 0x0, 60, 60⟩
def CLK_STATUS_RELOCK_CNT : Fld := ⟨.garja, 0x100, 0x0, 31, 16⟩
def CLK_STATUS_SRC_CNT : Fld := ⟨.garja, 0x100, 0x0, 15, 0⟩

/-- `GJ_TB_CTL` (02_clocks_and_time_base.md), 64 bits.  -/
def TB_CTL : Nat := 0x108
def TB_CTL_SERVO_EN : Fld := ⟨.garja, 0x108, 0x0, 63, 63⟩
def TB_CTL_NO_STEP : Fld := ⟨.garja, 0x108, 0x0, 62, 62⟩
def TB_CTL_CLKFIX : Fld := ⟨.garja, 0x108, 0x0, 61, 61⟩
def TB_CTL_FORCE_HOLD : Fld := ⟨.garja, 0x108, 0x0, 60, 60⟩

/-- `GJ_TB_STATUS` (02_clocks_and_time_base.md), 64 bits.  -/
def TB_STATUS : Nat := 0x110
def TB_STATUS_LOCK : Fld := ⟨.garja, 0x110, 0x0, 63, 62⟩
def TB_STATUS_PORT : Fld := ⟨.garja, 0x110, 0x0, 61, 61⟩
def TB_STATUS_CLKFIX_ACT : Fld := ⟨.garja, 0x110, 0x0, 60, 60⟩
def TB_STATUS_WR_IGN : Fld := ⟨.garja, 0x110, 0x0, 47, 32⟩
def TB_STATUS_HOLD_TIME : Fld := ⟨.garja, 0x110, 0x0, 31, 0⟩

/-- `GJ_TB_GT` (02_clocks_and_time_base.md), 64 bits.  -/
def TB_GT : Nat := 0x118
def TB_GT_GT : Fld := ⟨.garja, 0x118, 0x0, 63, 0⟩

/-- `GJ_TB_FRAC` (02_clocks_and_time_base.md), 64 bits.  -/
def TB_FRAC : Nat := 0x120
def TB_FRAC_FRAC : Fld := ⟨.garja, 0x120, 0x0, 31, 0⟩

/-- `GJ_TB_INCR` (02_clocks_and_time_base.md), 64 bits.  -/
def TB_INCR : Nat := 0x128
def TB_INCR_INT : Fld := ⟨.garja, 0x128, 0x0, 35, 32⟩
def TB_INCR_FRAC : Fld := ⟨.garja, 0x128, 0x0, 31, 0⟩

/-- `GJ_TB_STEER` (02_clocks_and_time_base.md), 64 bits.  -/
def TB_STEER : Nat := 0x130
def TB_STEER_PEND : Fld := ⟨.garja, 0x130, 0x0, 63, 48⟩
def TB_STEER_INTERVAL : Fld := ⟨.garja, 0x130, 0x0, 47, 40⟩
def TB_STEER_TURNS : Fld := ⟨.garja, 0x130, 0x0, 31, 7⟩
def TB_STEER_PHASE : Fld := ⟨.garja, 0x130, 0x0, 6, 0⟩

/-- `GJ_TB_ADJ` (02_clocks_and_time_base.md), 64 bits.  -/
def TB_ADJ : Nat := 0x138
def TB_ADJ_DELTA : Fld := ⟨.garja, 0x138, 0x0, 63, 0⟩

/-- `GJ_TB_LOCKCFG` (02_clocks_and_time_base.md), 64 bits.  -/
def TB_LOCKCFG : Nat := 0x140
def TB_LOCKCFG_LOCK_THR : Fld := ⟨.garja, 0x140, 0x0, 63, 52⟩
def TB_LOCKCFG_LOCK_CNT : Fld := ⟨.garja, 0x140, 0x0, 51, 44⟩
def TB_LOCKCFG_UNLOCK_THR : Fld := ⟨.garja, 0x140, 0x0, 43, 30⟩
def TB_LOCKCFG_STEP_THR : Fld := ⟨.garja, 0x140, 0x0, 29, 14⟩
def TB_LOCKCFG_HOLD_LIMIT : Fld := ⟨.garja, 0x140, 0x0, 13, 0⟩

/-- `GJ_TB_REFMEAS` (05_references_and_holdover.md), 64 bits.  -/
def TB_REFMEAS : Nat := 0x148
def TB_REFMEAS_VALID : Fld := ⟨.garja, 0x148, 0x0, 63, 63⟩
def TB_REFMEAS_RATIO : Fld := ⟨.garja, 0x148, 0x0, 31, 0⟩

/-- `GJ_HOLD_STATUS` (05_references_and_holdover.md), 64 bits.  -/
def HOLD_STATUS : Nat := 0x150
def HOLD_STATUS_PATH : Fld := ⟨.garja, 0x150, 0x0, 63, 63⟩
def HOLD_STATUS_WR_IGN : Fld := ⟨.garja, 0x150, 0x0, 47, 32⟩
def HOLD_STATUS_EFF_TIME : Fld := ⟨.garja, 0x150, 0x0, 31, 0⟩

/-- `GJ_TS_CTL` (06_servo_and_redundant_domains.md), 64 bits.  -/
def TS_CTL : Nat := 0x160
def TS_CTL_KP_SHIFT : Fld := ⟨.garja, 0x160, 0x0, 63, 58⟩
def TS_CTL_KI_SHIFT : Fld := ⟨.garja, 0x160, 0x0, 57, 52⟩
def TS_CTL_SPLIT_THR : Fld := ⟨.garja, 0x160, 0x0, 47, 32⟩
def TS_CTL_TRK_SHIFT : Fld := ⟨.garja, 0x160, 0x0, 31, 24⟩
def TS_CTL_TRK_MIN : Fld := ⟨.garja, 0x160, 0x0, 23, 16⟩
def TS_CTL_ACQ_THR : Fld := ⟨.garja, 0x160, 0x0, 15, 0⟩

/-- `GJ_TS_STATUS` (06_servo_and_redundant_domains.md), 64 bits.  -/
def TS_STATUS : Nat := 0x168
def TS_STATUS_SWITCHES : Fld := ⟨.garja, 0x168, 0x0, 63, 48⟩
def TS_STATUS_SPLITS : Fld := ⟨.garja, 0x168, 0x0, 47, 32⟩
def TS_STATUS_INTEG : Fld := ⟨.garja, 0x168, 0x0, 31, 0⟩

/-- `GJ_TS_TRACK_p` (06_servo_and_redundant_domains.md), 64 bits.  -/
def TS_TRACK : Nat := 0x170
def TS_TRACK_TRACKED : Fld := ⟨.garja, 0x170, 0x8, 63, 63⟩
def TS_TRACK_ACTIVE : Fld := ⟨.garja, 0x170, 0x8, 62, 62⟩
def TS_TRACK_SAMPLES : Fld := ⟨.garja, 0x170, 0x8, 61, 48⟩
def TS_TRACK_X : Fld := ⟨.garja, 0x170, 0x8, 47, 0⟩

/-- `GJ_RGN_EN` (02_clocks_and_time_base.md), 64 bits.  -/
def RGN_EN : Nat := 0x200
def RGN_EN_EN : Fld := ⟨.garja, 0x200, 0x0, 63, 0⟩

/-- `GJ_RGN_CTL` (02_clocks_and_time_base.md), 64 bits.  -/
def RGN_CTL : Nat := 0x208
def RGN_CTL_SETTLE : Fld := ⟨.garja, 0x208, 0x0, 31, 16⟩
def RGN_CTL_VIOL_CNT : Fld := ⟨.garja, 0x208, 0x0, 15, 0⟩

/-- `GJ_TDC_CTL_n` (03_edge_interpolator.md), 64 bits.  -/
def TDC_CTL : Nat := 0x300
def TDC_CTL_EN : Fld := ⟨.garja, 0x300, 0x40, 63, 63⟩
def TDC_CTL_EDGE : Fld := ⟨.garja, 0x300, 0x40, 62, 61⟩
def TDC_CTL_HYST : Fld := ⟨.garja, 0x300, 0x40, 60, 59⟩
def TDC_CTL_VTH : Fld := ⟨.garja, 0x300, 0x40, 58, 53⟩
def TDC_CTL_HOLDOFF : Fld := ⟨.garja, 0x300, 0x40, 52, 45⟩
def TDC_CTL_POST : Fld := ⟨.garja, 0x300, 0x40, 44, 44⟩
def TDC_CTL_NOFIFO : Fld := ⟨.garja, 0x300, 0x40, 43, 43⟩
def TDC_CTL_DELAY : Fld := ⟨.garja, 0x300, 0x40, 42, 31⟩

/-- `GJ_TDC_STATUS_n` (03_edge_interpolator.md), 64 bits.  -/
def TDC_STATUS : Nat := 0x308
def TDC_STATUS_LIVE : Fld := ⟨.garja, 0x308, 0x40, 63, 63⟩
def TDC_STATUS_CALIB : Fld := ⟨.garja, 0x308, 0x40, 62, 62⟩
def TDC_STATUS_UNCAL : Fld := ⟨.garja, 0x308, 0x40, 61, 61⟩
def TDC_STATUS_FILL : Fld := ⟨.garja, 0x308, 0x40, 60, 56⟩
def TDC_STATUS_WRIGN : Fld := ⟨.garja, 0x308, 0x40, 55, 48⟩
def TDC_STATUS_OVF : Fld := ⟨.garja, 0x308, 0x40, 47, 32⟩
def TDC_STATUS_DROP : Fld := ⟨.garja, 0x308, 0x40, 31, 16⟩
def TDC_STATUS_CALFAIL : Fld := ⟨.garja, 0x308, 0x40, 15, 8⟩
def TDC_STATUS_REASON : Fld := ⟨.garja, 0x308, 0x40, 2, 0⟩

/-- `GJ_TDC_FIFO_n` (03_edge_interpolator.md), 64 bits.  -/
def TDC_FIFO : Nat := 0x310
def TDC_FIFO_VALID : Fld := ⟨.garja, 0x310, 0x40, 63, 63⟩
def TDC_FIFO_FALL : Fld := ⟨.garja, 0x310, 0x40, 62, 62⟩
def TDC_FIFO_LOCKED : Fld := ⟨.garja, 0x310, 0x40, 61, 61⟩
def TDC_FIFO_UNCAL : Fld := ⟨.garja, 0x310, 0x40, 60, 60⟩
def TDC_FIFO_GT : Fld := ⟨.garja, 0x310, 0x40, 55, 16⟩
def TDC_FIFO_FRAC : Fld := ⟨.garja, 0x310, 0x40, 15, 0⟩

/-- `GJ_TDC_SS_n` (03_edge_interpolator.md), 64 bits.  -/
def TDC_SS : Nat := 0x318
def TDC_SS_ARM : Fld := ⟨.garja, 0x318, 0x40, 63, 63⟩
def TDC_SS_REPEAT : Fld := ⟨.garja, 0x318, 0x40, 62, 62⟩
def TDC_SS_STOP : Fld := ⟨.garja, 0x318, 0x40, 59, 58⟩
def TDC_SS_TIMEOUT : Fld := ⟨.garja, 0x318, 0x40, 31, 0⟩

/-- `GJ_TDC_SSRES_n` (03_edge_interpolator.md), 64 bits.  -/
def TDC_SSRES : Nat := 0x320
def TDC_SSRES_DONE : Fld := ⟨.garja, 0x320, 0x40, 63, 63⟩
def TDC_SSRES_STATUS : Fld := ⟨.garja, 0x320, 0x40, 62, 61⟩
def TDC_SSRES_OVWR : Fld := ⟨.garja, 0x320, 0x40, 60, 48⟩
def TDC_SSRES_INTERVAL : Fld := ⟨.garja, 0x320, 0x40, 47, 0⟩

/-- `GJ_TDC_FREQ_n` (03_edge_interpolator.md), 64 bits.  -/
def TDC_FREQ : Nat := 0x328
def TDC_FREQ_ARM : Fld := ⟨.garja, 0x328, 0x40, 63, 63⟩
def TDC_FREQ_M : Fld := ⟨.garja, 0x328, 0x40, 60, 40⟩
def TDC_FREQ_D : Fld := ⟨.garja, 0x328, 0x40, 39, 24⟩

/-- `GJ_TDC_FRES_n` (03_edge_interpolator.md), 64 bits.  -/
def TDC_FRES : Nat := 0x330
def TDC_FRES_DONE : Fld := ⟨.garja, 0x330, 0x40, 63, 63⟩
def TDC_FRES_STATUS : Fld := ⟨.garja, 0x330, 0x40, 62, 61⟩
def TDC_FRES_RESID : Fld := ⟨.garja, 0x330, 0x40, 15, 0⟩

/-- `GJ_TDC_FPER_n` (03_edge_interpolator.md), 64 bits.  -/
def TDC_FPER : Nat := 0x338
def TDC_FPER_INT : Fld := ⟨.garja, 0x338, 0x40, 63, 32⟩
def TDC_FPER_FRAC : Fld := ⟨.garja, 0x338, 0x40, 31, 0⟩

/-- `GJ_TDC_CAL` (03_edge_interpolator.md), 64 bits.  -/
def TDC_CAL : Nat := 0x400
def TDC_CAL_FORCE : Fld := ⟨.garja, 0x400, 0x0, 63, 63⟩
def TDC_CAL_DLL_LOCK : Fld := ⟨.garja, 0x400, 0x0, 62, 62⟩
def TDC_CAL_LOG2N : Fld := ⟨.garja, 0x400, 0x0, 61, 57⟩
def TDC_CAL_DLL_THR : Fld := ⟨.garja, 0x400, 0x0, 47, 40⟩
def TDC_CAL_PERIOD : Fld := ⟨.garja, 0x400, 0x0, 31, 16⟩
def TDC_CAL_DLL_CODE : Fld := ⟨.garja, 0x400, 0x0, 9, 0⟩

/-- `GJ_TDC_TBL_IDX` (03_edge_interpolator.md), 64 bits.  -/
def TDC_TBL_IDX : Nat := 0x408
def TDC_TBL_IDX_CH : Fld := ⟨.garja, 0x408, 0x0, 9, 8⟩
def TDC_TBL_IDX_LINE : Fld := ⟨.garja, 0x408, 0x0, 7, 7⟩
def TDC_TBL_IDX_CODE : Fld := ⟨.garja, 0x408, 0x0, 6, 0⟩

/-- `GJ_TDC_TBL_DATA` (03_edge_interpolator.md), 64 bits.  -/
def TDC_TBL_DATA : Nat := 0x410
def TDC_TBL_DATA_VALID : Fld := ⟨.garja, 0x410, 0x0, 63, 63⟩
def TDC_TBL_DATA_HITS : Fld := ⟨.garja, 0x410, 0x0, 55, 32⟩
def TDC_TBL_DATA_WIDTH : Fld := ⟨.garja, 0x410, 0x0, 31, 16⟩
def TDC_TBL_DATA_CENTRE : Fld := ⟨.garja, 0x410, 0x0, 15, 0⟩

/-- `GJ_SL_CTL_p` (04_step_link.md), 64 bits.  -/
def SL_CTL : Nat := 0x500
def SL_CTL_EN : Fld := ⟨.garja, 0x500, 0x80, 63, 63⟩
def SL_CTL_RETRAIN : Fld := ⟨.garja, 0x500, 0x80, 62, 62⟩

/-- `GJ_SL_STATUS_p` (04_step_link.md), 64 bits.  -/
def SL_STATUS : Nat := 0x508
def SL_STATUS_STATE : Fld := ⟨.garja, 0x508, 0x80, 63, 61⟩
def SL_STATUS_RANGE_VALID : Fld := ⟨.garja, 0x508, 0x80, 60, 60⟩
def SL_STATUS_FAR_UNCAL : Fld := ⟨.garja, 0x508, 0x80, 59, 59⟩
def SL_STATUS_FAR_LOCK : Fld := ⟨.garja, 0x508, 0x80, 58, 57⟩
def SL_STATUS_FAR_KIND : Fld := ⟨.garja, 0x508, 0x80, 56, 56⟩
def SL_STATUS_LVL_RUN : Fld := ⟨.garja, 0x508, 0x80, 55, 48⟩
def SL_STATUS_FAR_LVL_MIN : Fld := ⟨.garja, 0x508, 0x80, 47, 40⟩
def SL_STATUS_FAR_LVL_MAX : Fld := ⟨.garja, 0x508, 0x80, 39, 32⟩
def SL_STATUS_UPS : Fld := ⟨.garja, 0x508, 0x80, 31, 16⟩
def SL_STATUS_DOWN_REASON : Fld := ⟨.garja, 0x508, 0x80, 15, 12⟩
def SL_STATUS_TRAIN_TO : Fld := ⟨.garja, 0x508, 0x80, 11, 0⟩

/-- `GJ_SL_LAT_p` (04_step_link.md), 64 bits.  -/
def SL_LAT : Nat := 0x510
def SL_LAT_TX_LAT : Fld := ⟨.garja, 0x510, 0x80, 63, 48⟩
def SL_LAT_RX_LAT : Fld := ⟨.garja, 0x510, 0x80, 47, 32⟩
def SL_LAT_FAR_TX_LAT : Fld := ⟨.garja, 0x510, 0x80, 31, 16⟩
def SL_LAT_FAR_RX_LAT : Fld := ⟨.garja, 0x510, 0x80, 15, 0⟩

/-- `GJ_SL_RANGE_p` (04_step_link.md), 64 bits.  -/
def SL_RANGE : Nat := 0x518
def SL_RANGE_DELAY : Fld := ⟨.garja, 0x518, 0x80, 63, 32⟩
def SL_RANGE_ASYM : Fld := ⟨.garja, 0x518, 0x80, 31, 16⟩
def SL_RANGE_SPREAD : Fld := ⟨.garja, 0x518, 0x80, 15, 0⟩

/-- `GJ_SL_OFFSET_p` (04_step_link.md), 64 bits.  -/
def SL_OFFSET : Nat := 0x520
def SL_OFFSET_SAMPLES : Fld := ⟨.garja, 0x520, 0x80, 63, 48⟩
def SL_OFFSET_THETA : Fld := ⟨.garja, 0x520, 0x80, 47, 0⟩

/-- `GJ_SL_ERR_p` (04_step_link.md), 64 bits.  -/
def SL_ERR : Nat := 0x528
def SL_ERR_CRC_ERR : Fld := ⟨.garja, 0x528, 0x80, 63, 48⟩
def SL_ERR_NAK_RX : Fld := ⟨.garja, 0x528, 0x80, 47, 32⟩
def SL_ERR_RESENT : Fld := ⟨.garja, 0x528, 0x80, 31, 16⟩
def SL_ERR_SYNC_ERR : Fld := ⟨.garja, 0x528, 0x80, 15, 0⟩

/-- `GJ_SL_DROP_p` (04_step_link.md), 64 bits.  -/
def SL_DROP : Nat := 0x530
def SL_DROP_DIR_DROP : Fld := ⟨.garja, 0x530, 0x80, 63, 48⟩
def SL_DROP_BADTYPE : Fld := ⟨.garja, 0x530, 0x80, 47, 32⟩
def SL_DROP_DISCARD : Fld := ⟨.garja, 0x530, 0x80, 31, 16⟩
def SL_DROP_LOST : Fld := ⟨.garja, 0x530, 0x80, 15, 0⟩

/-- `GJ_RGN_CFG_n` (02_clocks_and_time_base.md), 64 bits.  -/
def RGN_CFG : Nat := 0x2000
def RGN_CFG_PNOM : Fld := ⟨.garja, 0x2000, 0x8, 23, 0⟩

/-- `GJ_RGN_SLACK_n` (02_clocks_and_time_base.md), 64 bits.  -/
def RGN_SLACK : Nat := 0x2200
def RGN_SLACK_SLACK : Fld := ⟨.garja, 0x2200, 0x8, 23, 0⟩

/-- `GJ_RGN_LOST_n` (02_clocks_and_time_base.md), 64 bits.  -/
def RGN_LOST : Nat := 0x2400
def RGN_LOST_FAULT : Fld := ⟨.garja, 0x2400, 0x8, 63, 63⟩
def RGN_LOST_OPEN : Fld := ⟨.garja, 0x2400, 0x8, 62, 62⟩
def RGN_LOST_LOST : Fld := ⟨.garja, 0x2400, 0x8, 31, 0⟩

/-- `GJ_RGN_STR_n` (02_clocks_and_time_base.md), 64 bits.  -/
def RGN_STR : Nat := 0x2600
def RGN_STR_EPISODES : Fld := ⟨.garja, 0x2600, 0x8, 63, 32⟩
def RGN_STR_TICKS : Fld := ⟨.garja, 0x2600, 0x8, 31, 0⟩

/-- `GJ_HOLD_BUDGET_c` (05_references_and_holdover.md), 64 bits.  -/
def HOLD_BUDGET : Nat := 0x3000
def HOLD_BUDGET_PAUSED : Fld := ⟨.garja, 0x3000, 0x8, 63, 63⟩
def HOLD_BUDGET_BUDGET : Fld := ⟨.garja, 0x3000, 0x8, 31, 0⟩

/-- `GJ_BDOM_c` (06_servo_and_redundant_domains.md), 64 bits.  -/
def BDOM : Nat := 0x3800
def BDOM_PORT : Fld := ⟨.garja, 0x3800, 0x8, 63, 63⟩
def BDOM_PEND : Fld := ⟨.garja, 0x3800, 0x8, 62, 62⟩
def BDOM_S_EFF : Fld := ⟨.garja, 0x3800, 0x8, 47, 0⟩

/-- `GJ_SO_CTL` (08_sync_objects.md), 64 bits.  -/
def SO_CTL : Nat := 0x4000
def SO_CTL_BUILD : Fld := ⟨.garja, 0x4000, 0x0, 63, 63⟩
def SO_CTL_GATE_EN : Fld := ⟨.garja, 0x4000, 0x0, 62, 62⟩

/-- `GJ_SO_STATUS` (08_sync_objects.md), 64 bits.  -/
def SO_STATUS : Nat := 0x4008
def SO_STATUS_SLOTS : Fld := ⟨.garja, 0x4008, 0x0, 63, 50⟩
def SO_STATUS_EVT_SLOTS : Fld := ⟨.garja, 0x4008, 0x0, 49, 38⟩
def SO_STATUS_PASSES : Fld := ⟨.garja, 0x4008, 0x0, 37, 35⟩
def SO_STATUS_WR_IGN : Fld := ⟨.garja, 0x4008, 0x0, 31, 16⟩
def SO_STATUS_LOST : Fld := ⟨.garja, 0x4008, 0x0, 15, 0⟩

/-- `GJ_SO_DROP` (08_sync_objects.md), 64 bits.  -/
def SO_DROP : Nat := 0x4010
def SO_DROP_STALE : Fld := ⟨.garja, 0x4010, 0x0, 63, 48⟩
def SO_DROP_BADOP : Fld := ⟨.garja, 0x4010, 0x0, 47, 32⟩
def SO_DROP_BADPARAM : Fld := ⟨.garja, 0x4010, 0x0, 31, 16⟩
def SO_DROP_NOCTX : Fld := ⟨.garja, 0x4010, 0x0, 15, 0⟩

/-- `GJ_SO_CNT` (08_sync_objects.md), 64 bits.  -/
def SO_CNT : Nat := 0x4018
def SO_CNT_SAT : Fld := ⟨.garja, 0x4018, 0x0, 63, 48⟩
def SO_CNT_TMO : Fld := ⟨.garja, 0x4018, 0x0, 47, 32⟩
def SO_CNT_HAND : Fld := ⟨.garja, 0x4018, 0x0, 31, 16⟩
def SO_CNT_RLN_DIFF : Fld := ⟨.garja, 0x4018, 0x0, 15, 0⟩

/-- `GJ_SO_TAP` (08_sync_objects.md), 64 bits.  -/
def SO_TAP : Nat := 0x4020
def SO_TAP_PRESENT : Fld := ⟨.garja, 0x4020, 0x0, 31, 16⟩
def SO_TAP_EN : Fld := ⟨.garja, 0x4020, 0x0, 15, 0⟩

/-- `GJ_SO_TMO_k` (08_sync_objects.md), 64 bits.  -/
def SO_TMO : Nat := 0x4100
def SO_TMO_NS : Fld := ⟨.garja, 0x4100, 0x8, 39, 0⟩

/-- `GJ_SO_WIDX` (08_sync_objects.md), 64 bits.  -/
def SO_WIDX : Nat := 0x4200
def SO_WIDX_SLOT : Fld := ⟨.garja, 0x4200, 0x0, 12, 0⟩

/-- `GJ_SO_WDATA0` (08_sync_objects.md), 64 bits.  -/
def SO_WDATA0 : Nat := 0x4208
def SO_WDATA0_VALID : Fld := ⟨.garja, 0x4208, 0x0, 63, 63⟩
def SO_WDATA0_KIND : Fld := ⟨.garja, 0x4208, 0x0, 62, 61⟩
def SO_WDATA0_COND : Fld := ⟨.garja, 0x4208, 0x0, 60, 59⟩
def SO_WDATA0_PARKED : Fld := ⟨.garja, 0x4208, 0x0, 58, 58⟩
def SO_WDATA0_CTX : Fld := ⟨.garja, 0x4208, 0x0, 57, 50⟩
def SO_WDATA0_KEY : Fld := ⟨.garja, 0x4208, 0x0, 49, 36⟩
def SO_WDATA0_PROC : Fld := ⟨.garja, 0x4208, 0x0, 35, 33⟩
def SO_WDATA0_OBJ : Fld := ⟨.garja, 0x4208, 0x0, 16, 0⟩

/-- `GJ_SO_WDATA1` (08_sync_objects.md), 64 bits.  -/
def SO_WDATA1 : Nat := 0x4210
def SO_WDATA1_N : Fld := ⟨.garja, 0x4210, 0x0, 63, 32⟩
def SO_WDATA1_TO : Fld := ⟨.garja, 0x4210, 0x0, 31, 28⟩

/-- `GJ_SO_WDATA2` (08_sync_objects.md), 64 bits.  -/
def SO_WDATA2 : Nat := 0x4218
def SO_WDATA2_DEADLINE : Fld := ⟨.garja, 0x4218, 0x0, 63, 0⟩

/-- `GJ_SO_RLN_CTX_c` (08_sync_objects.md), 64 bits.  -/
def SO_RLN_CTX : Nat := 0x4800
def SO_RLN_CTX_PERIOD : Fld := ⟨.garja, 0x4800, 0x8, 63, 48⟩
def SO_RLN_CTX_BASE : Fld := ⟨.garja, 0x4800, 0x8, 47, 39⟩
def SO_RLN_CTX_COUNT : Fld := ⟨.garja, 0x4800, 0x8, 38, 32⟩

/-- `GJ_SO_RLN_e` (08_sync_objects.md), 64 bits.  -/
def SO_RLN : Nat := 0x5000
def SO_RLN_CHECK : Fld := ⟨.garja, 0x5000, 0x8, 63, 63⟩
def SO_RLN_SET : Fld := ⟨.garja, 0x5000, 0x8, 62, 62⟩
def SO_RLN_OBJ : Fld := ⟨.garja, 0x5000, 0x8, 48, 32⟩
def SO_RLN_EXPECT : Fld := ⟨.garja, 0x5000, 0x8, 31, 0⟩

/-- `GJ_CTX_XLAT_c` (09_contexts_and_teardown.md), 64 bits.  -/
def CTX_XLAT : Nat := 0x6000
def CTX_XLAT_SIZE : Fld := ⟨.garja, 0x6000, 0x8, 49, 32⟩
def CTX_XLAT_BASE : Fld := ⟨.garja, 0x6000, 0x8, 16, 0⟩

/-- `GJ_CTX_STATE_c` (09_contexts_and_teardown.md), 64 bits.  -/
def CTX_STATE : Nat := 0x6800
def CTX_STATE_STATE : Fld := ⟨.garja, 0x6800, 0x8, 63, 61⟩
def CTX_STATE_FROZEN : Fld := ⟨.garja, 0x6800, 0x8, 60, 60⟩
def CTX_STATE_FORCED : Fld := ⟨.garja, 0x6800, 0x8, 59, 59⟩
def CTX_STATE_OWNER : Fld := ⟨.garja, 0x6800, 0x8, 58, 55⟩
def CTX_STATE_CUR : Fld := ⟨.garja, 0x6800, 0x8, 47, 40⟩
def CTX_STATE_HIST : Fld := ⟨.garja, 0x6800, 0x8, 39, 8⟩

/-- `GJ_CTX_CMD` (09_contexts_and_teardown.md), 64 bits.  -/
def CTX_CMD : Nat := 0x7000
def CTX_CMD_OP : Fld := ⟨.garja, 0x7000, 0x0, 63, 60⟩
def CTX_CMD_CTX : Fld := ⟨.garja, 0x7000, 0x0, 59, 52⟩
def CTX_CMD_GEN : Fld := ⟨.garja, 0x7000, 0x0, 51, 44⟩
def CTX_CMD_USE_GEN : Fld := ⟨.garja, 0x7000, 0x0, 43, 43⟩
def CTX_CMD_FREEZE : Fld := ⟨.garja, 0x7000, 0x0, 42, 42⟩
def CTX_CMD_KEEP : Fld := ⟨.garja, 0x7000, 0x0, 41, 41⟩

/-- `GJ_CTX_CMDSTAT` (09_contexts_and_teardown.md), 64 bits.  -/
def CTX_CMDSTAT : Nat := 0x7008
def CTX_CMDSTAT_DONE : Fld := ⟨.garja, 0x7008, 0x0, 63, 63⟩
def CTX_CMDSTAT_STATUS : Fld := ⟨.garja, 0x7008, 0x0, 55, 48⟩
def CTX_CMDSTAT_OP : Fld := ⟨.garja, 0x7008, 0x0, 47, 44⟩
def CTX_CMDSTAT_CTX : Fld := ⟨.garja, 0x7008, 0x0, 43, 36⟩

/-- `GJ_CTX_CFG` (09_contexts_and_teardown.md), 64 bits.  -/
def CTX_CFG : Nat := 0x7010
def CTX_CFG_DRAIN_NS : Fld := ⟨.garja, 0x7010, 0x0, 63, 32⟩
def CTX_CFG_REUSE_NS : Fld := ⟨.garja, 0x7010, 0x0, 31, 0⟩

/-- `GJ_CTX_CNT` (09_contexts_and_teardown.md), 64 bits.  -/
def CTX_CNT : Nat := 0x7018
def CTX_CNT_FORCED : Fld := ⟨.garja, 0x7018, 0x0, 63, 48⟩
def CTX_CNT_ABANDON : Fld := ⟨.garja, 0x7018, 0x0, 47, 32⟩
def CTX_CNT_TEAR : Fld := ⟨.garja, 0x7018, 0x0, 31, 16⟩
def CTX_CNT_WR_IGN : Fld := ⟨.garja, 0x7018, 0x0, 15, 0⟩

/-- `GJ_FN_CTL` (09_contexts_and_teardown.md), 64 bits.  -/
def FN_CTL : Nat := 0x7020
def FN_CTL_DOORBELL : Fld := ⟨.garja, 0x7020, 0x0, 63, 63⟩
def FN_CTL_OBJWIN : Fld := ⟨.garja, 0x7020, 0x0, 62, 62⟩
def FN_CTL_SIG_A : Fld := ⟨.garja, 0x7020, 0x0, 61, 61⟩
def FN_CTL_SIG_B : Fld := ⟨.garja, 0x7020, 0x0, 60, 60⟩
def FN_CTL_DRAIN_NS : Fld := ⟨.garja, 0x7020, 0x0, 31, 0⟩

/-- `GJ_FN_STATUS` (09_contexts_and_teardown.md), 64 bits.  -/
def FN_STATUS : Nat := 0x7028
def FN_STATUS_FN : Fld := ⟨.garja, 0x7028, 0x0, 63, 56⟩
def FN_STATUS_TAP : Fld := ⟨.garja, 0x7028, 0x0, 55, 24⟩
def FN_STATUS_FORCED : Fld := ⟨.garja, 0x7028, 0x0, 23, 16⟩

/-- `GJ_CTX_INFL_c` (09_contexts_and_teardown.md), 64 bits.  -/
def CTX_INFL : Nat := 0x7800
def CTX_INFL_TAP : Fld := ⟨.garja, 0x7800, 0x8, 63, 48⟩
def CTX_INFL_OPS : Fld := ⟨.garja, 0x7800, 0x8, 47, 32⟩
def CTX_INFL_SIGOUT : Fld := ⟨.garja, 0x7800, 0x8, 31, 16⟩

/-- `GJ_CL_CTX_c` (10_barrier_tree.md), 64 bits.  -/
def CL_CTX : Nat := 0x8000
def CL_CTX_RBASE : Fld := ⟨.garja, 0x8000, 0x8, 63, 7⟩

/-- `GJ_CL_STATUS` (10_barrier_tree.md), 64 bits.  -/
def CL_STATUS : Nat := 0x8800
def CL_STATUS_STORE : Fld := ⟨.garja, 0x8800, 0x0, 63, 53⟩
def CL_STATUS_UNMATCHED : Fld := ⟨.garja, 0x8800, 0x0, 47, 32⟩
def CL_STATUS_IO_FAULT : Fld := ⟨.garja, 0x8800, 0x0, 31, 16⟩
def CL_STATUS_WR_IGN : Fld := ⟨.garja, 0x8800, 0x0, 15, 0⟩

/-- `GJ_SQ_CFG` (12_launch_and_run_ahead.md), 64 bits.  -/
def SQ_CFG : Nat := 0x9000
def SQ_CFG_REL_WAIT : Fld := ⟨.garja, 0x9000, 0x0, 63, 48⟩
def SQ_CFG_SQUASH_NS : Fld := ⟨.garja, 0x9000, 0x0, 47, 40⟩
def SQ_CFG_UNDO_RSV : Fld := ⟨.garja, 0x9000, 0x0, 39, 30⟩
def SQ_CFG_HOLD_RSV : Fld := ⟨.garja, 0x9000, 0x0, 29, 22⟩

/-- `GJ_SQ_STATUS` (12_launch_and_run_ahead.md), 64 bits.  -/
def SQ_STATUS : Nat := 0x9008
def SQ_STATUS_FOX_VALID : Fld := ⟨.garja, 0x9008, 0x0, 63, 63⟩
def SQ_STATUS_FOX_CTX : Fld := ⟨.garja, 0x9008, 0x0, 62, 55⟩
def SQ_STATUS_EPOCH : Fld := ⟨.garja, 0x9008, 0x0, 54, 53⟩
def SQ_STATUS_SPEC : Fld := ⟨.garja, 0x9008, 0x0, 52, 50⟩
def SQ_STATUS_HOLD_FILL : Fld := ⟨.garja, 0x9008, 0x0, 49, 39⟩
def SQ_STATUS_UNDO_FILL : Fld := ⟨.garja, 0x9008, 0x0, 38, 26⟩
def SQ_STATUS_WR_IGN : Fld := ⟨.garja, 0x9008, 0x0, 15, 0⟩

/-- `GJ_SQ_CNT` (12_launch_and_run_ahead.md), 64 bits.  -/
def SQ_CNT : Nat := 0x9010
def SQ_CNT_LATE : Fld := ⟨.garja, 0x9010, 0x0, 63, 48⟩
def SQ_CNT_SQUASH : Fld := ⟨.garja, 0x9010, 0x0, 47, 32⟩
def SQ_CNT_FAULT : Fld := ⟨.garja, 0x9010, 0x0, 31, 16⟩
def SQ_CNT_SPEC : Fld := ⟨.garja, 0x9010, 0x0, 15, 0⟩

/-- `GJ_SQ_PIDX` (12_launch_and_run_ahead.md), 64 bits.  -/
def SQ_PIDX : Nat := 0x9018
def SQ_PIDX_ADDR : Fld := ⟨.garja, 0x9018, 0x0, 11, 0⟩

/-- `GJ_SQ_PDATA` (12_launch_and_run_ahead.md), 64 bits.  -/
def SQ_PDATA : Nat := 0x9020
def SQ_PDATA_INSTR : Fld := ⟨.garja, 0x9020, 0x0, 63, 0⟩

/-- `GJ_SQ_FOXGRP` (12_launch_and_run_ahead.md), 64 bits.  -/
def SQ_FOXGRP : Nat := 0x9028
def SQ_FOXGRP_GROUPS : Fld := ⟨.garja, 0x9028, 0x0, 63, 0⟩

/-- `GJ_SQ_LMASK_m` (12_launch_and_run_ahead.md), 64 bits.  -/
def SQ_LMASK : Nat := 0x9400
def SQ_LMASK_GROUPS : Fld := ⟨.garja, 0x9400, 0x8, 63, 0⟩

/-- `GJ_SQ_ADDR_k` (12_launch_and_run_ahead.md), 64 bits.  -/
def SQ_ADDR : Nat := 0x9800
def SQ_ADDR_ADDR : Fld := ⟨.garja, 0x9800, 0x8, 63, 0⟩

/-- `GJ_STG_S_s` (13_staged_changes.md), 64 bits.  -/
def STG_S_W0 : Nat := 0xA000
def STG_S_W0_STATE : Fld := ⟨.garja, 0xA000, 0x20, 63, 61⟩
def STG_S_W0_SCOPED : Fld := ⟨.garja, 0xA000, 0x20, 60, 60⟩
def STG_S_W0_SCOPE : Fld := ⟨.garja, 0xA000, 0x20, 59, 52⟩
def STG_S_W0_ENTRIES : Fld := ⟨.garja, 0xA000, 0x20, 44, 32⟩
def STG_S_W0_CHANGE : Fld := ⟨.garja, 0xA000, 0x20, 31, 0⟩

/-- `GJ_STG_S_s` (13_staged_changes.md), 64 bits.  -/
def STG_S_W1 : Nat := 0xA008
def STG_S_W1_T : Fld := ⟨.garja, 0xA008, 0x20, 63, 0⟩

/-- `GJ_STG_S_s` (13_staged_changes.md), 64 bits.  -/
def STG_S_W2 : Nat := 0xA010
def STG_S_W2_S_EFF : Fld := ⟨.garja, 0xA010, 0x20, 47, 0⟩

/-- `GJ_STG_CFG` (13_staged_changes.md), 64 bits.  -/
def STG_CFG : Nat := 0xA100
def STG_CFG_ORPHAN : Fld := ⟨.garja, 0xA100, 0x0, 31, 0⟩

/-- `GJ_STG_CNT` (13_staged_changes.md), 64 bits.  -/
def STG_CNT : Nat := 0xA108
def STG_CNT_APPLIED : Fld := ⟨.garja, 0xA108, 0x0, 63, 48⟩
def STG_CNT_NACK : Fld := ⟨.garja, 0xA108, 0x0, 47, 32⟩
def STG_CNT_LATE : Fld := ⟨.garja, 0xA108, 0x0, 31, 16⟩
def STG_CNT_WR_IGN : Fld := ⟨.garja, 0xA108, 0x0, 15, 0⟩

/-- `GJ_HLT_FPRINT` (18_health_and_faults.md), 64 bits.  -/
def HLT_FPRINT : Nat := 0xA200
def HLT_FPRINT_FP : Fld := ⟨.garja, 0xA200, 0x0, 63, 0⟩

/-- `GJ_HLT_ARITH` (18_health_and_faults.md), 64 bits.  -/
def HLT_ARITH : Nat := 0xA208
def HLT_ARITH_ARITH : Fld := ⟨.garja, 0xA208, 0x0, 15, 0⟩

/-- `GJ_HLT_TELEM` (18_health_and_faults.md), 64 bits.  -/
def HLT_TELEM : Nat := 0xA210
def HLT_TELEM_TJ : Fld := ⟨.garja, 0xA210, 0x0, 63, 48⟩
def HLT_TELEM_VDD : Fld := ⟨.garja, 0xA210, 0x0, 47, 32⟩

/-- `GJ_HLT_STATUS` (18_health_and_faults.md), 64 bits.  -/
def HLT_STATUS : Nat := 0xA218
def HLT_STATUS_REMAPS : Fld := ⟨.garja, 0xA218, 0x0, 63, 48⟩
def HLT_STATUS_SPARES_USED : Fld := ⟨.garja, 0xA218, 0x0, 47, 40⟩
def HLT_STATUS_HELD_LOADS : Fld := ⟨.garja, 0xA218, 0x0, 31, 16⟩

/-- `GJ_HLT_SNAP_i` (18_health_and_faults.md), 64 bits.  -/
def HLT_SNAP_W0 : Nat := 0xA400
def HLT_SNAP_W0_CTX : Fld := ⟨.garja, 0xA400, 0x20, 63, 56⟩
def HLT_SNAP_W0_VALID : Fld := ⟨.garja, 0xA400, 0x20, 55, 55⟩
def HLT_SNAP_W0_STEP : Fld := ⟨.garja, 0xA400, 0x20, 47, 0⟩

/-- `GJ_HLT_SNAP_i` (18_health_and_faults.md), 64 bits.  -/
def HLT_SNAP_W1 : Nat := 0xA408
def HLT_SNAP_W1_TJ : Fld := ⟨.garja, 0xA408, 0x20, 63, 48⟩
def HLT_SNAP_W1_VDD : Fld := ⟨.garja, 0xA408, 0x20, 47, 32⟩
def HLT_SNAP_W1_STRETCH : Fld := ⟨.garja, 0xA408, 0x20, 31, 0⟩

/-- `GJ_HLT_SNAP_i` (18_health_and_faults.md), 64 bits.  -/
def HLT_SNAP_W2 : Nat := 0xA410
def HLT_SNAP_W2_REMAPS : Fld := ⟨.garja, 0xA410, 0x20, 63, 48⟩
def HLT_SNAP_W2_DLREG : Fld := ⟨.garja, 0xA410, 0x20, 47, 40⟩
def HLT_SNAP_W2_TELEM_AGE : Fld := ⟨.garja, 0xA410, 0x20, 31, 0⟩

/-- `GJ_PWR_CFG` (14_power_envelope.md), 64 bits.  -/
def PWR_CFG : Nat := 0xB000
def PWR_CFG_FILL_EN : Fld := ⟨.garja, 0xB000, 0x0, 63, 63⟩
def PWR_CFG_WAIT_LVL : Fld := ⟨.garja, 0xB000, 0x0, 62, 59⟩
def PWR_CFG_CTX : Fld := ⟨.garja, 0xB000, 0x0, 58, 51⟩
def PWR_CFG_BAL_STEP : Fld := ⟨.garja, 0xB000, 0x0, 50, 40⟩
def PWR_CFG_DEF_DWELL : Fld := ⟨.garja, 0xB000, 0x0, 31, 16⟩
def PWR_CFG_SLOT : Fld := ⟨.garja, 0xB000, 0x0, 15, 0⟩

/-- `GJ_PWR_RAMP0` (14_power_envelope.md), 64 bits.  -/
def PWR_RAMP0 : Nat := 0xB008
def PWR_RAMP0_ARM : Fld := ⟨.garja, 0xB008, 0x0, 63, 63⟩
def PWR_RAMP0_TRIG : Fld := ⟨.garja, 0xB008, 0x0, 62, 62⟩
def PWR_RAMP0_HANDOVER : Fld := ⟨.garja, 0xB008, 0x0, 61, 61⟩
def PWR_RAMP0_RUN : Fld := ⟨.garja, 0xB008, 0x0, 60, 60⟩
def PWR_RAMP0_FROM : Fld := ⟨.garja, 0xB008, 0x0, 59, 56⟩
def PWR_RAMP0_TO : Fld := ⟨.garja, 0xB008, 0x0, 55, 52⟩
def PWR_RAMP0_DWELL : Fld := ⟨.garja, 0xB008, 0x0, 23, 0⟩

/-- `GJ_PWR_RAMP1` (14_power_envelope.md), 64 bits.  -/
def PWR_RAMP1 : Nat := 0xB010
def PWR_RAMP1_START : Fld := ⟨.garja, 0xB010, 0x0, 63, 0⟩

/-- `GJ_PWR_STATUS` (14_power_envelope.md), 64 bits.  -/
def PWR_STATUS : Nat := 0xB018
def PWR_STATUS_LEVEL : Fld := ⟨.garja, 0xB018, 0x0, 63, 60⟩
def PWR_STATUS_RAMP : Fld := ⟨.garja, 0xB018, 0x0, 59, 59⟩
def PWR_STATUS_REQ : Fld := ⟨.garja, 0xB018, 0x0, 58, 58⟩
def PWR_STATUS_ACK : Fld := ⟨.garja, 0xB018, 0x0, 57, 57⟩
def PWR_STATUS_ACKS : Fld := ⟨.garja, 0xB018, 0x0, 47, 32⟩
def PWR_STATUS_UNRAMPED : Fld := ⟨.garja, 0xB018, 0x0, 31, 24⟩
def PWR_STATUS_UNPLANNED : Fld := ⟨.garja, 0xB018, 0x0, 23, 16⟩
def PWR_STATUS_WR_IGN : Fld := ⟨.garja, 0xB018, 0x0, 15, 0⟩

/-- `GJ_PWR_ENERGY` (14_power_envelope.md), 64 bits.  -/
def PWR_ENERGY : Nat := 0xB020
def PWR_ENERGY_LVL_US : Fld := ⟨.garja, 0xB020, 0x0, 63, 0⟩

/-- `GJ_PST_CTL` (15_power_states.md), 64 bits.  -/
def PST_CTL : Nat := 0xB100
def PST_CTL_PIN : Fld := ⟨.garja, 0xB100, 0x0, 63, 63⟩
def PST_CTL_NAP_EN : Fld := ⟨.garja, 0xB100, 0x0, 62, 62⟩
def PST_CTL_BURROW_EN : Fld := ⟨.garja, 0xB100, 0x0, 61, 61⟩
def PST_CTL_BURROW_MAX : Fld := ⟨.garja, 0xB100, 0x0, 55, 48⟩
def PST_CTL_IDLE_US : Fld := ⟨.garja, 0xB100, 0x0, 47, 32⟩

/-- `GJ_PST_LTR` (15_power_states.md), 64 bits.  -/
def PST_LTR : Nat := 0xB108
def PST_LTR_ACCESS : Fld := ⟨.garja, 0xB108, 0x0, 63, 32⟩
def PST_LTR_TIME : Fld := ⟨.garja, 0xB108, 0x0, 31, 0⟩

/-- `GJ_PST_STATUS` (15_power_states.md), 64 bits.  -/
def PST_STATUS : Nat := 0xB110
def PST_STATUS_LAST : Fld := ⟨.garja, 0xB110, 0x0, 63, 62⟩
def PST_STATUS_CAUSE : Fld := ⟨.garja, 0xB110, 0x0, 61, 58⟩
def PST_STATUS_WAKES : Fld := ⟨.garja, 0xB110, 0x0, 47, 32⟩
def PST_STATUS_EXIT_BURROW : Fld := ⟨.garja, 0xB110, 0x0, 31, 0⟩

/-- `GJ_PST_WAKE` (15_power_states.md), 64 bits.  -/
def PST_WAKE : Nat := 0xB118
def PST_WAKE_TIMER : Fld := ⟨.garja, 0xB118, 0x0, 63, 63⟩
def PST_WAKE_EVT0 : Fld := ⟨.garja, 0xB118, 0x0, 62, 62⟩
def PST_WAKE_EVT1 : Fld := ⟨.garja, 0xB118, 0x0, 61, 61⟩
def PST_WAKE_PWR_REQ : Fld := ⟨.garja, 0xB118, 0x0, 60, 60⟩

/-- `GJ_PST_TIMER` (15_power_states.md), 64 bits.  -/
def PST_TIMER : Nat := 0xB120
def PST_TIMER_WAKE_AT : Fld := ⟨.garja, 0xB120, 0x0, 63, 0⟩

/-- `GJ_SQ_CTX_c` (12_launch_and_run_ahead.md), 64 bits.  -/
def SQ_CTX_CFG : Nat := 0xC000
def SQ_CTX_CFG_FOX : Fld := ⟨.garja, 0xC000, 0x20, 63, 62⟩
def SQ_CTX_CFG_CODE_LO : Fld := ⟨.garja, 0xC000, 0x20, 59, 48⟩
def SQ_CTX_CFG_CODE_HI : Fld := ⟨.garja, 0xC000, 0x20, 47, 36⟩
def SQ_CTX_CFG_PERIOD : Fld := ⟨.garja, 0xC000, 0x20, 31, 0⟩

/-- `GJ_SQ_CTX_c` (12_launch_and_run_ahead.md), 64 bits.  -/
def SQ_CTX_ANCHOR : Nat := 0xC008
def SQ_CTX_ANCHOR_ANCHOR : Fld := ⟨.garja, 0xC008, 0x20, 63, 0⟩

/-- `GJ_SQ_CTX_c` (12_launch_and_run_ahead.md), 64 bits.  -/
def SQ_CTX_ABASE : Nat := 0xC010
def SQ_CTX_ABASE_ABASE : Fld := ⟨.garja, 0xC010, 0x20, 63, 6⟩

/-- `GJ_SQ_CTX_c` (12_launch_and_run_ahead.md), 64 bits.  -/
def SQ_CTX_STATE : Nat := 0xC018
def SQ_CTX_STATE_STATE : Fld := ⟨.garja, 0xC018, 0x20, 63, 61⟩
def SQ_CTX_STATE_REPRO : Fld := ⟨.garja, 0xC018, 0x20, 60, 60⟩
def SQ_CTX_STATE_PC : Fld := ⟨.garja, 0xC018, 0x20, 59, 48⟩
def SQ_CTX_STATE_STEP : Fld := ⟨.garja, 0xC018, 0x20, 47, 0⟩

/-- `GJ_EVT_ROUTE_t` (16_events_and_interrupts.md), 64 bits.  -/
def EVT_ROUTE : Nat := 0xE000
def EVT_ROUTE_RINGS : Fld := ⟨.garja, 0xE000, 0x8, 63, 48⟩
def EVT_ROUTE_PRIV : Fld := ⟨.garja, 0xE000, 0x8, 47, 47⟩
def EVT_ROUTE_UP : Fld := ⟨.garja, 0xE000, 0x8, 46, 46⟩

/-- `GJ_EVT_ROUTE_t` (16_events_and_interrupts.md), 64 bits.  -/
def EVT_ROUTE2 : Nat := 0xE900
def EVT_ROUTE2_RINGS : Fld := ⟨.garja, 0xE900, 0x8, 63, 48⟩
def EVT_ROUTE2_PRIV : Fld := ⟨.garja, 0xE900, 0x8, 47, 47⟩
def EVT_ROUTE2_UP : Fld := ⟨.garja, 0xE900, 0x8, 46, 46⟩

/-- `GJ_EVT_RING_r` (16_events_and_interrupts.md), 64 bits.  -/
def EVT_RING_BASE : Nat := 0xEA00
def EVT_RING_BASE_BASE : Fld := ⟨.garja, 0xEA00, 0x20, 63, 6⟩

/-- `GJ_EVT_RING_r` (16_events_and_interrupts.md), 64 bits.  -/
def EVT_RING_CFG : Nat := 0xEA08
def EVT_RING_CFG_EN : Fld := ⟨.garja, 0xEA08, 0x20, 63, 63⟩
def EVT_RING_CFG_LOG2N : Fld := ⟨.garja, 0xEA08, 0x20, 61, 57⟩
def EVT_RING_CFG_DROP : Fld := ⟨.garja, 0xEA08, 0x20, 47, 32⟩

/-- `GJ_EVT_RING_r` (16_events_and_interrupts.md), 64 bits.  -/
def EVT_RING_PSHADOW : Nat := 0xEA10
def EVT_RING_PSHADOW_PSHADOW : Fld := ⟨.garja, 0xEA10, 0x20, 63, 3⟩

/-- `GJ_EVT_RING_r` (16_events_and_interrupts.md), 64 bits.  -/
def EVT_RING_INDEX : Nat := 0xEA18
def EVT_RING_INDEX_PROD : Fld := ⟨.garja, 0xEA18, 0x20, 63, 32⟩
def EVT_RING_INDEX_CONS : Fld := ⟨.garja, 0xEA18, 0x20, 31, 0⟩

/-- `GJ_MSG_SRC_s` (16_events_and_interrupts.md), 64 bits.  -/
def MSG_SRC : Nat := 0xEC00
def MSG_SRC_EN : Fld := ⟨.garja, 0xEC00, 0x8, 63, 63⟩
def MSG_SRC_DEST : Fld := ⟨.garja, 0xEC00, 0x8, 62, 60⟩
def MSG_SRC_PRIO : Fld := ⟨.garja, 0xEC00, 0x8, 59, 56⟩
def MSG_SRC_VECTOR : Fld := ⟨.garja, 0xEC00, 0x8, 55, 48⟩
def MSG_SRC_PEND : Fld := ⟨.garja, 0xEC00, 0x8, 47, 47⟩
def MSG_SRC_INSVC : Fld := ⟨.garja, 0xEC00, 0x8, 46, 46⟩

/-- `GJ_EVT_PROC_p` (16_events_and_interrupts.md), 64 bits.  -/
def EVT_PROC : Nat := 0xED00
def EVT_PROC_WD_EN : Fld := ⟨.garja, 0xED00, 0x10, 63, 63⟩
def EVT_PROC_WD_RING : Fld := ⟨.garja, 0xED00, 0x10, 62, 59⟩
def EVT_PROC_DEPTH : Fld := ⟨.garja, 0xED00, 0x10, 58, 54⟩
def EVT_PROC_TOP_SRC : Fld := ⟨.garja, 0xED00, 0x10, 53, 49⟩
def EVT_PROC_TOP_PRIO : Fld := ⟨.garja, 0xED00, 0x10, 48, 45⟩
def EVT_PROC_STRAY : Fld := ⟨.garja, 0xED00, 0x10, 31, 16⟩
def EVT_PROC_SENT : Fld := ⟨.garja, 0xED00, 0x10, 15, 0⟩

/-- `GJ_MSG_EOI_p` (16_events_and_interrupts.md), 64 bits.  -/
def MSG_EOI : Nat := 0xED08
def MSG_EOI_SRC : Fld := ⟨.garja, 0xED08, 0x10, 4, 0⟩

/-- `GJ_IRQ_PEND` (16_events_and_interrupts.md), 64 bits.  -/
def IRQ_PEND : Nat := 0xEE00
def IRQ_PEND_PEND : Fld := ⟨.garja, 0xEE00, 0x0, 15, 0⟩

/-- `GJ_IRQ_ROUTE` (16_events_and_interrupts.md), 64 bits.  -/
def IRQ_ROUTE : Nat := 0xEE08
def IRQ_ROUTE_EN_0 : Fld := ⟨.garja, 0xEE08, 0x0, 3, 3⟩
def IRQ_ROUTE_PROC_0 : Fld := ⟨.garja, 0xEE08, 0x0, 2, 0⟩
def IRQ_ROUTE_EN_1 : Fld := ⟨.garja, 0xEE08, 0x0, 7, 7⟩
def IRQ_ROUTE_PROC_1 : Fld := ⟨.garja, 0xEE08, 0x0, 6, 4⟩
def IRQ_ROUTE_EN_2 : Fld := ⟨.garja, 0xEE08, 0x0, 11, 11⟩
def IRQ_ROUTE_PROC_2 : Fld := ⟨.garja, 0xEE08, 0x0, 10, 8⟩
def IRQ_ROUTE_EN_3 : Fld := ⟨.garja, 0xEE08, 0x0, 15, 15⟩
def IRQ_ROUTE_PROC_3 : Fld := ⟨.garja, 0xEE08, 0x0, 14, 12⟩
def IRQ_ROUTE_EN_4 : Fld := ⟨.garja, 0xEE08, 0x0, 19, 19⟩
def IRQ_ROUTE_PROC_4 : Fld := ⟨.garja, 0xEE08, 0x0, 18, 16⟩
def IRQ_ROUTE_EN_5 : Fld := ⟨.garja, 0xEE08, 0x0, 23, 23⟩
def IRQ_ROUTE_PROC_5 : Fld := ⟨.garja, 0xEE08, 0x0, 22, 20⟩
def IRQ_ROUTE_EN_6 : Fld := ⟨.garja, 0xEE08, 0x0, 27, 27⟩
def IRQ_ROUTE_PROC_6 : Fld := ⟨.garja, 0xEE08, 0x0, 26, 24⟩
def IRQ_ROUTE_EN_7 : Fld := ⟨.garja, 0xEE08, 0x0, 31, 31⟩
def IRQ_ROUTE_PROC_7 : Fld := ⟨.garja, 0xEE08, 0x0, 30, 28⟩
def IRQ_ROUTE_EN_8 : Fld := ⟨.garja, 0xEE08, 0x0, 35, 35⟩
def IRQ_ROUTE_PROC_8 : Fld := ⟨.garja, 0xEE08, 0x0, 34, 32⟩
def IRQ_ROUTE_EN_9 : Fld := ⟨.garja, 0xEE08, 0x0, 39, 39⟩
def IRQ_ROUTE_PROC_9 : Fld := ⟨.garja, 0xEE08, 0x0, 38, 36⟩
def IRQ_ROUTE_EN_10 : Fld := ⟨.garja, 0xEE08, 0x0, 43, 43⟩
def IRQ_ROUTE_PROC_10 : Fld := ⟨.garja, 0xEE08, 0x0, 42, 40⟩
def IRQ_ROUTE_EN_11 : Fld := ⟨.garja, 0xEE08, 0x0, 47, 47⟩
def IRQ_ROUTE_PROC_11 : Fld := ⟨.garja, 0xEE08, 0x0, 46, 44⟩
def IRQ_ROUTE_EN_12 : Fld := ⟨.garja, 0xEE08, 0x0, 51, 51⟩
def IRQ_ROUTE_PROC_12 : Fld := ⟨.garja, 0xEE08, 0x0, 50, 48⟩
def IRQ_ROUTE_EN_13 : Fld := ⟨.garja, 0xEE08, 0x0, 55, 55⟩
def IRQ_ROUTE_PROC_13 : Fld := ⟨.garja, 0xEE08, 0x0, 54, 52⟩
def IRQ_ROUTE_EN_14 : Fld := ⟨.garja, 0xEE08, 0x0, 59, 59⟩
def IRQ_ROUTE_PROC_14 : Fld := ⟨.garja, 0xEE08, 0x0, 58, 56⟩
def IRQ_ROUTE_EN_15 : Fld := ⟨.garja, 0xEE08, 0x0, 63, 63⟩
def IRQ_ROUTE_PROC_15 : Fld := ⟨.garja, 0xEE08, 0x0, 62, 60⟩

/-- `GJ_MSG_RAISE` (16_events_and_interrupts.md), 64 bits.  -/
def MSG_RAISE : Nat := 0xEE10
def MSG_RAISE_RAISE : Fld := ⟨.garja, 0xEE10, 0x0, 7, 0⟩

/-- `GJ_DEN_WATCH` (16_events_and_interrupts.md), 64 bits.  -/
def DEN_WATCH : Nat := 0xEE18
def DEN_WATCH_FIRED : Fld := ⟨.garja, 0xEE18, 0x0, 63, 63⟩
def DEN_WATCH_REASON : Fld := ⟨.garja, 0xEE18, 0x0, 62, 61⟩
def DEN_WATCH_TYPE : Fld := ⟨.garja, 0xEE18, 0x0, 60, 51⟩
def DEN_WATCH_STAMP : Fld := ⟨.garja, 0xEE18, 0x0, 47, 16⟩
def DEN_WATCH_WATCH_US : Fld := ⟨.garja, 0xEE18, 0x0, 15, 0⟩

/-- `GJ_EVT_STATUS` (16_events_and_interrupts.md), 64 bits.  -/
def EVT_STATUS : Nat := 0xEE20
def EVT_STATUS_QFILL : Fld := ⟨.garja, 0xEE20, 0x0, 63, 51⟩
def EVT_STATUS_QDROP : Fld := ⟨.garja, 0xEE20, 0x0, 47, 32⟩
def EVT_STATUS_UP_DROP : Fld := ⟨.garja, 0xEE20, 0x0, 31, 16⟩
def EVT_STATUS_NOROUTE : Fld := ⟨.garja, 0xEE20, 0x0, 15, 8⟩
def EVT_STATUS_INIT_FAULT : Fld := ⟨.garja, 0xEE20, 0x0, 7, 0⟩

/-- `GJ_IRQ_MASK_p` (16_events_and_interrupts.md), 64 bits.  -/
def IRQ_MASK : Nat := 0xEE40
def IRQ_MASK_MASK : Fld := ⟨.garja, 0xEE40, 0x8, 15, 0⟩

/-- `GJ_EVT_CTXRING_c` (16_events_and_interrupts.md), 64 bits.  -/
def EVT_CTXRING : Nat := 0xF000
def EVT_CTXRING_EN : Fld := ⟨.garja, 0xF000, 0x8, 63, 63⟩
def EVT_CTXRING_RING : Fld := ⟨.garja, 0xF000, 0x8, 59, 56⟩

/-- `GJ_CQP_p` (17_command_packets.md), 64 bits.  -/
def CQP_SQ_BASE : Nat := 0xF800
def CQP_SQ_BASE_BASE : Fld := ⟨.garja, 0xF800, 0x40, 63, 6⟩

/-- `GJ_CQP_p` (17_command_packets.md), 64 bits.  -/
def CQP_CQ_BASE : Nat := 0xF808
def CQP_CQ_BASE_BASE : Fld := ⟨.garja, 0xF808, 0x40, 63, 6⟩

/-- `GJ_CQP_p` (17_command_packets.md), 64 bits.  -/
def CQP_PSHADOW : Nat := 0xF810
def CQP_PSHADOW_PSHADOW : Fld := ⟨.garja, 0xF810, 0x40, 63, 3⟩

/-- `GJ_CQP_p` (17_command_packets.md), 64 bits.  -/
def CQP_CFG : Nat := 0xF818
def CQP_CFG_EN : Fld := ⟨.garja, 0xF818, 0x40, 63, 63⟩
def CQP_CFG_LOG2N_SQ : Fld := ⟨.garja, 0xF818, 0x40, 61, 58⟩
def CQP_CFG_LOG2N_CQ : Fld := ⟨.garja, 0xF818, 0x40, 57, 54⟩
def CQP_CFG_DONE_EN : Fld := ⟨.garja, 0xF818, 0x40, 53, 53⟩
def CQP_CFG_DONE_CTX : Fld := ⟨.garja, 0xF818, 0x40, 52, 45⟩
def CQP_CFG_DONE_OBJ : Fld := ⟨.garja, 0xF818, 0x40, 44, 28⟩
def CQP_CFG_CQ_DROP : Fld := ⟨.garja, 0xF818, 0x40, 15, 0⟩

/-- `GJ_CQP_p` (17_command_packets.md), 64 bits.  -/
def CQP_SQ_IDX : Nat := 0xF820
def CQP_SQ_IDX_TAIL : Fld := ⟨.garja, 0xF820, 0x40, 63, 32⟩
def CQP_SQ_IDX_HEAD : Fld := ⟨.garja, 0xF820, 0x40, 31, 0⟩

/-- `GJ_CQP_p` (17_command_packets.md), 64 bits.  -/
def CQP_CQ_IDX : Nat := 0xF828
def CQP_CQ_IDX_PROD : Fld := ⟨.garja, 0xF828, 0x40, 63, 32⟩
def CQP_CQ_IDX_CONS : Fld := ⟨.garja, 0xF828, 0x40, 31, 0⟩

/-- `GJ_CMD_CAP` (17_command_packets.md), 64 bits.  -/
def CMD_CAP : Nat := 0xFA00
def CMD_CAP_LVL_MIN : Fld := ⟨.garja, 0xFA00, 0x0, 63, 56⟩
def CMD_CAP_LVL_MAX : Fld := ⟨.garja, 0xFA00, 0x0, 55, 48⟩

/-- `GJ_CMD_STATUS` (17_command_packets.md), 64 bits.  -/
def CMD_STATUS : Nat := 0xFA08
def CMD_STATUS_RUNNING : Fld := ⟨.garja, 0xFA08, 0x0, 63, 61⟩
def CMD_STATUS_REFUSED : Fld := ⟨.garja, 0xFA08, 0x0, 47, 32⟩
def CMD_STATUS_ABANDONED : Fld := ⟨.garja, 0xFA08, 0x0, 31, 16⟩
def CMD_STATUS_WR_IGN : Fld := ⟨.garja, 0xFA08, 0x0, 15, 0⟩

/-- `GJ_RST_CTL` (19_reset_and_recovery.md), 64 bits.  -/
def RST_CTL : Nat := 0xFC00
def RST_CTL_LEVEL : Fld := ⟨.garja, 0xFC00, 0x0, 63, 61⟩
def RST_CTL_SUBSYS : Fld := ⟨.garja, 0xFC00, 0x0, 60, 56⟩
def RST_CTL_CTX : Fld := ⟨.garja, 0xFC00, 0x0, 55, 48⟩
def RST_CTL_PART : Fld := ⟨.garja, 0xFC00, 0x0, 47, 40⟩

/-- `GJ_RST_STATUS` (19_reset_and_recovery.md), 64 bits.  -/
def RST_STATUS : Nat := 0xFC08
def RST_STATUS_DONE : Fld := ⟨.garja, 0xFC08, 0x0, 63, 63⟩
def RST_STATUS_BUSY : Fld := ⟨.garja, 0xFC08, 0x0, 62, 62⟩
def RST_STATUS_OVER : Fld := ⟨.garja, 0xFC08, 0x0, 61, 61⟩
def RST_STATUS_LEVEL : Fld := ⟨.garja, 0xFC08, 0x0, 60, 58⟩
def RST_STATUS_STATUS : Fld := ⟨.garja, 0xFC08, 0x0, 57, 50⟩
def RST_STATUS_ELAPSED : Fld := ⟨.garja, 0xFC08, 0x0, 49, 32⟩
def RST_STATUS_COLDS : Fld := ⟨.garja, 0xFC08, 0x0, 31, 16⟩
def RST_STATUS_RESETS : Fld := ⟨.garja, 0xFC08, 0x0, 15, 0⟩

/-- `GJ_RST_HBCFG` (19_reset_and_recovery.md), 64 bits.  -/
def RST_HBCFG : Nat := 0xFC10
def RST_HBCFG_HB_EN : Fld := ⟨.garja, 0xFC10, 0x0, 63, 63⟩
def RST_HBCFG_HB_INT : Fld := ⟨.garja, 0xFC10, 0x0, 47, 32⟩

/-- `GJ_RST_STALL` (19_reset_and_recovery.md), 64 bits.  -/
def RST_STALL : Nat := 0xFC18
def RST_STALL_STALL_1 : Fld := ⟨.garja, 0xFC18, 0x0, 7, 0⟩
def RST_STALL_STALL_2 : Fld := ⟨.garja, 0xFC18, 0x0, 15, 8⟩
def RST_STALL_STALL_3 : Fld := ⟨.garja, 0xFC18, 0x0, 23, 16⟩
def RST_STALL_STALL_4 : Fld := ⟨.garja, 0xFC18, 0x0, 31, 24⟩
def RST_STALL_STALL_5 : Fld := ⟨.garja, 0xFC18, 0x0, 39, 32⟩
def RST_STALL_STALL_6 : Fld := ⟨.garja, 0xFC18, 0x0, 47, 40⟩
def RST_STALL_STALL_7 : Fld := ⟨.garja, 0xFC18, 0x0, 55, 48⟩
def RST_STALL_STALL_8 : Fld := ⟨.garja, 0xFC18, 0x0, 63, 56⟩

/-- `GJ_RST_BEAT` (19_reset_and_recovery.md), 64 bits.  -/
def RST_BEAT : Nat := 0xFC20
def RST_BEAT_BEAT : Fld := ⟨.garja, 0xFC20, 0x0, 63, 32⟩

/-- `GJ_CAP_CTL` (19_reset_and_recovery.md), 64 bits.  -/
def CAP_CTL : Nat := 0xFC28
def CAP_CTL_SLOT : Fld := ⟨.garja, 0xFC28, 0x0, 63, 63⟩
def CAP_CTL_UNREAD0 : Fld := ⟨.garja, 0xFC28, 0x0, 62, 62⟩
def CAP_CTL_UNREAD1 : Fld := ⟨.garja, 0xFC28, 0x0, 61, 61⟩
def CAP_CTL_NEWEST : Fld := ⟨.garja, 0xFC28, 0x0, 60, 60⟩
def CAP_CTL_LOST : Fld := ⟨.garja, 0xFC28, 0x0, 47, 32⟩
def CAP_CTL_INDEX : Fld := ⟨.garja, 0xFC28, 0x0, 10, 0⟩

/-- `GJ_CAP_DATA` (19_reset_and_recovery.md), 64 bits.  -/
def CAP_DATA : Nat := 0xFC30
def CAP_DATA_DATA : Fld := ⟨.garja, 0xFC30, 0x0, 63, 0⟩

/-- Rows of the register map: offset, stride, count, reset, and the RW, W1C, RC and WO masks. -/
def rows0 : List RegRow :=
  [⟨0x40, 0x0, 1, 0x0, 0x800000000003FFFF, 0x0, 0x0, 0x0⟩,
   ⟨0x48, 0x0, 1, 0x0, 0x0, 0x0, 0x0, 0x0⟩,
   ⟨0x50, 0x0, 1, 0x0, 0x0, 0x0, 0x0, 0x0⟩,
   ⟨0x100, 0x0, 1, 0x0, 0x0, 0x0, 0x0, 0x0⟩,
   ⟨0x108, 0x0, 1, 0x8000000000000000, 0xF000000000000000, 0x0, 0x0, 0x0⟩,
   ⟨0x110, 0x0, 1, 0x0, 0x0, 0x0, 0xFFFF00000000, 0x0⟩,
   ⟨0x118, 0x0, 1, 0x0, 0x0, 0x0, 0x0, 0x0⟩,
   ⟨0x120, 0x0, 1, 0x0, 0x0, 0x0, 0x0, 0x0⟩,
   ⟨0x128, 0x0, 1, 0x100000000, 0xFFFFFFFFF, 0x0, 0x0, 0x0⟩,
   ⟨0x130, 0x0, 1, 0x400000000000, 0xFFFFFF0000000000, 0x0, 0x0, 0x0⟩,
   ⟨0x138, 0x0, 1, 0x0, 0x0, 0x0, 0x0, 0xFFFFFFFFFFFFFFFF⟩,
   ⟨0x140, 0x0, 1, 0x64400FA00FA2710, 0xFFFFFFFFFFFFFFFF, 0x0, 0x0, 0x0⟩,
   ⟨0x148, 0x0, 1, 0x0, 0x0, 0x0, 0x0, 0x0⟩,
   ⟨0x150, 0x0, 1, 0x0, 0x0, 0x0, 0xFFFF00000000, 0x0⟩,
   ⟨0x160, 0x0, 1, 0xCA0012C0440000A, 0xFFF0FFFFFFFFFFFF, 0x0, 0x0, 0x0⟩,
   ⟨0x168, 0x0, 1, 0x0, 0x0, 0x0, 0x0, 0x0⟩,
   ⟨0x170, 0x8, 2, 0x0, 0x0, 0x0, 0x0, 0x0⟩,
   ⟨0x200, 0x0, 1, 0x0, 0xFFFFFFFFFFFFFFFF, 0x0, 0x0, 0x0⟩,
   ⟨0x208, 0x0, 1, 0x27100000, 0xFFFF0000, 0x0, 0xFFFF, 0x0⟩,
   ⟨0x300, 0x40, 4, 0x3C0000000000000, 0xFFFFFFFF80000000, 0x0, 0x0, 0x0⟩,
   ⟨0x308, 0x40, 4, 0x2000000000000000, 0x0, 0x0, 0xFFFFFFFFFFFF00, 0x0⟩,
   ⟨0x310, 0x40, 4, 0x0, 0x0, 0x0, 0xF0FFFFFFFFFFFFFF, 0x0⟩,
   ⟨0x318, 0x40, 4, 0x0, 0xCC000000FFFFFFFF, 0x0, 0x0, 0x0⟩,
   ⟨0x320, 0x40, 4, 0x0, 0x0, 0x0, 0x9FFF000000000000, 0x0⟩,
   ⟨0x328, 0x40, 4, 0x0, 0x9FFFFFFFFF000000, 0x0, 0x0, 0x0⟩,
   ⟨0x330, 0x40, 4, 0x0, 0x0, 0x0, 0x8000000000000000, 0x0⟩,
   ⟨0x338, 0x40, 4, 0x0, 0x0, 0x0, 0x0, 0x0⟩,
   ⟨0x400, 0x0, 1, 0x28000400000A0000, 0x3E00FF00FFFF0000, 0x0, 0x0, 0x8000000000000000⟩,
   ⟨0x408, 0x0, 1, 0x0, 0x3FF, 0x0, 0x0, 0x0⟩,
   ⟨0x410, 0x0, 1, 0x0, 0x0, 0x0, 0x0, 0x0⟩,
   ⟨0x500, 0x80, 2, 0x8000000000000000, 0x8000000000000000, 0x0, 0x0, 0x4000000000000000⟩,
   ⟨0x508, 0x80, 2, 0x0, 0x0, 0x0, 0xFFF, 0x0⟩,
   ⟨0x510, 0x80, 2, 0x0, 0xFFFFFFFF00000000, 0x0, 0x0, 0x0⟩,
   ⟨0x518, 0x80, 2, 0x0, 0x0, 0x0, 0x0, 0x0⟩,
   ⟨0x520, 0x80, 2, 0x0, 0x0, 0x0, 0x0, 0x0⟩,
   ⟨0x528, 0x80, 2, 0x0, 0x0, 0x0, 0xFFFFFFFFFFFFFFFF, 0x0⟩,
   ⟨0x530, 0x80, 2, 0x0, 0x0, 0x0, 0xFFFFFFFFFFFFFFFF, 0x0⟩,
   ⟨0x2000, 0x8, 64, 0x0, 0xFFFFFF, 0x0, 0x0, 0x0⟩,
   ⟨0x2200, 0x8, 64, 0x0, 0xFFFFFF, 0x0, 0x0, 0x0⟩,
   ⟨0x2400, 0x8, 64, 0x0, 0x0, 0x0, 0x0, 0x0⟩]

/-- Rows of the register map: offset, stride, count, reset, and the RW, W1C, RC and WO masks. -/
def rows1 : List RegRow :=
  [⟨0x2600, 0x8, 64, 0x0, 0x0, 0x0, 0x0, 0x0⟩,
   ⟨0x3000, 0x8, 256, 0x4E20, 0xFFFFFFFF, 0x0, 0x0, 0x0⟩,
   ⟨0x3800, 0x8, 256, 0x0, 0x8000000000000000, 0x0, 0x0, 0x0⟩,
   ⟨0x4000, 0x0, 1, 0x0, 0x4000000000000000, 0x0, 0x0, 0x0⟩,
   ⟨0x4008, 0x0, 1, 0x0, 0x0, 0x0, 0xFFFFFFFF, 0x0⟩,
   ⟨0x4010, 0x0, 1, 0x0, 0x0, 0x0, 0xFFFFFFFFFFFFFFFF, 0x0⟩,
   ⟨0x4018, 0x0, 1, 0x0, 0x0, 0x0, 0xFFFFFFFFFFFFFFFF, 0x0⟩,
   ⟨0x4020, 0x0, 1, 0x0, 0xFFFF, 0x0, 0x0, 0x0⟩,
   ⟨0x4100, 0x8, 16, 0x0, 0xFFFFFFFFFF, 0x0, 0x0, 0x0⟩,
   ⟨0x4200, 0x0, 1, 0x0, 0x1FFF, 0x0, 0x0, 0x0⟩,
   ⟨0x4208, 0x0, 1, 0x0, 0x0, 0x0, 0x0, 0x0⟩,
   ⟨0x4210, 0x0, 1, 0x0, 0x0, 0x0, 0x0, 0x0⟩,
   ⟨0x4218, 0x0, 1, 0x0, 0x0, 0x0, 0x0, 0x0⟩,
   ⟨0x4800, 0x8, 256, 0x0, 0xFFFFFFFF00000000, 0x0, 0x0, 0x0⟩,
   ⟨0x5000, 0x8, 512, 0x0, 0xC001FFFFFFFFFFFF, 0x0, 0x0, 0x0⟩,
   ⟨0x6000, 0x8, 256, 0x0, 0x3FFFF0001FFFF, 0x0, 0x0, 0x0⟩,
   ⟨0x6800, 0x8, 256, 0x0, 0x0, 0x0, 0x0, 0x0⟩,
   ⟨0x7000, 0x0, 1, 0x0, 0x0, 0x0, 0x0, 0xFFFFFE0000000000⟩,
   ⟨0x7008, 0x0, 1, 0x0, 0x0, 0x0, 0x8000000000000000, 0x0⟩,
   ⟨0x7010, 0x0, 1, 0xC35000002710, 0xFFFFFFFFFFFFFFFF, 0x0, 0x0, 0x0⟩,
   ⟨0x7018, 0x0, 1, 0x0, 0x0, 0x0, 0xFFFFFFFFFFFFFFFF, 0x0⟩,
   ⟨0x7020, 0x0, 1, 0xF000000000002710, 0xF0000000FFFFFFFF, 0x0, 0x0, 0x0⟩,
   ⟨0x7028, 0x0, 1, 0x0, 0x0, 0x0, 0xFF0000, 0x0⟩,
   ⟨0x7800, 0x8, 256, 0x0, 0x0, 0x0, 0x0, 0x0⟩,
   ⟨0x8000, 0x8, 256, 0x0, 0xFFFFFFFFFFFFFF80, 0x0, 0x0, 0x0⟩,
   ⟨0x8800, 0x0, 1, 0x0, 0x0, 0x0, 0xFFFFFFFFFFFF, 0x0⟩,
   ⟨0x9000, 0x0, 1, 0x2710C84010000000, 0xFFFFFFFFFFC00000, 0x0, 0x0, 0x0⟩,
   ⟨0x9008, 0x0, 1, 0x0, 0x0, 0x0, 0xFFFF, 0x0⟩,
   ⟨0x9010, 0x0, 1, 0x0, 0x0, 0x0, 0xFFFFFFFFFFFFFFFF, 0x0⟩,
   ⟨0x9018, 0x0, 1, 0x0, 0xFFF, 0x0, 0x0, 0x0⟩,
   ⟨0x9020, 0x0, 1, 0x0, 0xFFFFFFFFFFFFFFFF, 0x0, 0x0, 0x0⟩,
   ⟨0x9028, 0x0, 1, 0x0, 0xFFFFFFFFFFFFFFFF, 0x0, 0x0, 0x0⟩,
   ⟨0x9400, 0x8, 64, 0x0, 0xFFFFFFFFFFFFFFFF, 0x0, 0x0, 0x0⟩,
   ⟨0x9800, 0x8, 256, 0x0, 0xFFFFFFFFFFFFFFFF, 0x0, 0x0, 0x0⟩,
   ⟨0xA000, 0x20, 4, 0x0, 0x0, 0x0, 0x0, 0x0⟩,
   ⟨0xA008, 0x20, 4, 0x0, 0x0, 0x0, 0x0, 0x0⟩,
   ⟨0xA010, 0x20, 4, 0x0, 0x0, 0x0, 0x0, 0x0⟩,
   ⟨0xA100, 0x0, 1, 0x2710, 0xFFFFFFFF, 0x0, 0x0, 0x0⟩,
   ⟨0xA108, 0x0, 1, 0x0, 0x0, 0x0, 0xFFFFFFFFFFFFFFFF, 0x0⟩,
   ⟨0xA200, 0x0, 1, 0x0, 0x0, 0x0, 0x0, 0x0⟩]

/-- Rows of the register map: offset, stride, count, reset, and the RW, W1C, RC and WO masks. -/
def rows2 : List RegRow :=
  [⟨0xA208, 0x0, 1, 0x0, 0xFFFF, 0x0, 0x0, 0x0⟩,
   ⟨0xA210, 0x0, 1, 0x0, 0xFFFFFFFF00000000, 0x0, 0x0, 0x0⟩,
   ⟨0xA218, 0x0, 1, 0x0, 0x0, 0x0, 0xFFFF0000, 0x0⟩,
   ⟨0xA400, 0x20, 64, 0x0, 0x0, 0x0, 0x0, 0x0⟩,
   ⟨0xA408, 0x20, 64, 0x0, 0x0, 0x0, 0x0, 0x0⟩,
   ⟨0xA410, 0x20, 64, 0x0, 0x0, 0x0, 0x0, 0x0⟩,
   ⟨0xB000, 0x0, 1, 0x0, 0xFFF80000FFFFFFFF, 0x0, 0x0, 0x0⟩,
   ⟨0xB008, 0x0, 1, 0x0, 0xEFF0000000FFFFFF, 0x0, 0x0, 0x0⟩,
   ⟨0xB010, 0x0, 1, 0x0, 0xFFFFFFFFFFFFFFFF, 0x0, 0x0, 0x0⟩,
   ⟨0xB018, 0x0, 1, 0x0, 0x0, 0x0, 0xFFFFFFFFFFFF, 0x0⟩,
   ⟨0xB020, 0x0, 1, 0x0, 0x0, 0x0, 0x0, 0x0⟩,
   ⟨0xB100, 0x0, 1, 0x4008000A00000000, 0xE0FFFFFF00000000, 0x0, 0x0, 0x0⟩,
   ⟨0xB108, 0x0, 1, 0x0, 0xFFFFFFFFFFFFFFFF, 0x0, 0x0, 0x0⟩,
   ⟨0xB110, 0x0, 1, 0x41A, 0x0, 0x0, 0xFFFF00000000, 0x0⟩,
   ⟨0xB118, 0x0, 1, 0x0, 0xF000000000000000, 0x0, 0x0, 0x0⟩,
   ⟨0xB120, 0x0, 1, 0x0, 0xFFFFFFFFFFFFFFFF, 0x0, 0x0, 0x0⟩,
   ⟨0xC000, 0x20, 256, 0x0, 0xCFFFFFF0FFFFFFFF, 0x0, 0x0, 0x0⟩,
   ⟨0xC008, 0x20, 256, 0x0, 0xFFFFFFFFFFFFFFFF, 0x0, 0x0, 0x0⟩,
   ⟨0xC010, 0x20, 256, 0x0, 0xFFFFFFFFFFFFFFC0, 0x0, 0x0, 0x0⟩,
   ⟨0xC018, 0x20, 256, 0x0, 0x0, 0x0, 0x0, 0x0⟩,
   ⟨0xE000, 0x8, 256, 0x0, 0xFFFFC00000000000, 0x0, 0x0, 0x0⟩,
   ⟨0xE900, 0x8, 32, 0x0, 0xFFFFC00000000000, 0x0, 0x0, 0x0⟩,
   ⟨0xEA00, 0x20, 16, 0x0, 0xFFFFFFFFFFFFFFC0, 0x0, 0x0, 0x0⟩,
   ⟨0xEA08, 0x20, 16, 0xC00000000000000, 0xBE00000000000000, 0x0, 0xFFFF00000000, 0x0⟩,
   ⟨0xEA10, 0x20, 16, 0x0, 0xFFFFFFFFFFFFFFF8, 0x0, 0x0, 0x0⟩,
   ⟨0xEA18, 0x20, 16, 0x0, 0xFFFFFFFF, 0x0, 0x0, 0x0⟩,
   ⟨0xEC00, 0x8, 32, 0x0, 0xFFFF000000000000, 0x0, 0x0, 0x0⟩,
   ⟨0xED00, 0x10, 8, 0x0, 0xF800000000000000, 0x0, 0xFFFFFFFF, 0x0⟩,
   ⟨0xED08, 0x10, 8, 0x0, 0x0, 0x0, 0x0, 0x1F⟩,
   ⟨0xEE00, 0x0, 1, 0x0, 0x0, 0xFFFF, 0x0, 0x0⟩,
   ⟨0xEE08, 0x0, 1, 0x0, 0xFFFFFFFFFFFFFFFF, 0x0, 0x0, 0x0⟩,
   ⟨0xEE10, 0x0, 1, 0x0, 0x0, 0x0, 0x0, 0xFF⟩,
   ⟨0xEE18, 0x0, 1, 0x3E8, 0xFFFF, 0x0, 0x8000000000000000, 0x0⟩,
   ⟨0xEE20, 0x0, 1, 0x0, 0x0, 0x0, 0xFFFFFFFFFFFF, 0x0⟩,
   ⟨0xEE40, 0x8, 8, 0xFFFF, 0xFFFF, 0x0, 0x0, 0x0⟩,
   ⟨0xF000, 0x8, 256, 0x0, 0x8F00000000000000, 0x0, 0x0, 0x0⟩,
   ⟨0xF800, 0x40, 8, 0x0, 0xFFFFFFFFFFFFFFC0, 0x0, 0x0, 0x0⟩,
   ⟨0xF808, 0x40, 8, 0x0, 0xFFFFFFFFFFFFFFC0, 0x0, 0x0, 0x0⟩,
   ⟨0xF810, 0x40, 8, 0x0, 0xFFFFFFFFFFFFFFF8, 0x0, 0x0, 0x0⟩,
   ⟨0xF818, 0x40, 8, 0x1100000000000000, 0xBFFFFFFFF0000000, 0x0, 0xFFFF, 0x0⟩]

/-- Rows of the register map: offset, stride, count, reset, and the RW, W1C, RC and WO masks. -/
def rows3 : List RegRow :=
  [⟨0xF820, 0x40, 8, 0x0, 0xFFFFFFFF00000000, 0x0, 0x0, 0x0⟩,
   ⟨0xF828, 0x40, 8, 0x0, 0xFFFFFFFF, 0x0, 0x0, 0x0⟩,
   ⟨0xFA00, 0x0, 1, 0x101000000000000, 0x0, 0x0, 0x0, 0x0⟩,
   ⟨0xFA08, 0x0, 1, 0x0, 0x0, 0x0, 0xFFFFFFFFFFFF, 0x0⟩,
   ⟨0xFC00, 0x0, 1, 0x0, 0x0, 0x0, 0x0, 0xFFFFFF0000000000⟩,
   ⟨0xFC08, 0x0, 1, 0x0, 0x0, 0x0, 0x0, 0x0⟩,
   ⟨0xFC10, 0x0, 1, 0x800003E800000000, 0x8000FFFF00000000, 0x0, 0x0, 0x0⟩,
   ⟨0xFC18, 0x0, 1, 0x0, 0x0, 0x0, 0x0, 0x0⟩,
   ⟨0xFC20, 0x0, 1, 0x0, 0x0, 0x0, 0x0, 0x0⟩,
   ⟨0xFC28, 0x0, 1, 0x0, 0x80000000000007FF, 0x0, 0xFFFF00000000, 0x0⟩,
   ⟨0xFC30, 0x0, 1, 0x0, 0x0, 0x0, 0x0, 0x0⟩]

/-- The register map of this part. -/
def rows : List RegRow := rows0 ++ rows1 ++ rows2 ++ rows3

/-- The rows whose reset value is not zero (offset, stride, count, value). -/
def nonzero : List (Nat × Nat × Nat × Nat) :=
  [(0x108, 0x0, 1, 0x8000000000000000),
   (0x128, 0x0, 1, 0x100000000),
   (0x130, 0x0, 1, 0x400000000000),
   (0x140, 0x0, 1, 0x64400FA00FA2710),
   (0x160, 0x0, 1, 0xCA0012C0440000A),
   (0x208, 0x0, 1, 0x27100000),
   (0x300, 0x40, 4, 0x3C0000000000000),
   (0x308, 0x40, 4, 0x2000000000000000),
   (0x400, 0x0, 1, 0x28000400000A0000),
   (0x500, 0x80, 2, 0x8000000000000000),
   (0x3000, 0x8, 256, 0x4E20),
   (0x7010, 0x0, 1, 0xC35000002710),
   (0x7020, 0x0, 1, 0xF000000000002710),
   (0x9000, 0x0, 1, 0x2710C84010000000),
   (0xA100, 0x0, 1, 0x2710),
   (0xB100, 0x0, 1, 0x4008000A00000000),
   (0xB110, 0x0, 1, 0x41A),
   (0xEA08, 0x20, 16, 0xC00000000000000),
   (0xEE18, 0x0, 1, 0x3E8),
   (0xEE40, 0x8, 8, 0xFFFF),
   (0xF818, 0x40, 8, 0x1100000000000000),
   (0xFA00, 0x0, 1, 0x101000000000000),
   (0xFC10, 0x0, 1, 0x800003E800000000)]

end GJ
end Sys2Proof.Machine
end

