-- ==== Sys2Proof/Machine/RegsBoth.lean ====
section
/-!
DEFINITION. Sys2Proof/Machine/RegsBoth.lean: the registers that both parts have under one name, by part.
-/
namespace Sys2Proof.Machine
namespace PT

def TB_CTL_SERVO_EN : Part → Fld
  | .garja => GJ.TB_CTL_SERVO_EN
  | .elzel => EZ.TB_CTL_SERVO_EN
def TB_CTL_NO_STEP : Part → Fld
  | .garja => GJ.TB_CTL_NO_STEP
  | .elzel => EZ.TB_CTL_NO_STEP
def TB_CTL_FORCE_HOLD : Part → Fld
  | .garja => GJ.TB_CTL_FORCE_HOLD
  | .elzel => EZ.TB_CTL_FORCE_HOLD
def TB_INCR_INT : Part → Fld
  | .garja => GJ.TB_INCR_INT
  | .elzel => EZ.TB_INCR_INT
def TB_INCR_FRAC : Part → Fld
  | .garja => GJ.TB_INCR_FRAC
  | .elzel => EZ.TB_INCR_FRAC
def TB_STEER_PEND : Part → Fld
  | .garja => GJ.TB_STEER_PEND
  | .elzel => EZ.TB_STEER_PEND
def TB_STEER_INTERVAL : Part → Fld
  | .garja => GJ.TB_STEER_INTERVAL
  | .elzel => EZ.TB_STEER_INTERVAL
def TB_STEER_TURNS : Part → Fld
  | .garja => GJ.TB_STEER_TURNS
  | .elzel => EZ.TB_STEER_TURNS
def TB_STEER_PHASE : Part → Fld
  | .garja => GJ.TB_STEER_PHASE
  | .elzel => EZ.TB_STEER_PHASE
def TB_ADJ_DELTA : Part → Fld
  | .garja => GJ.TB_ADJ_DELTA
  | .elzel => EZ.TB_ADJ_DELTA
def TB_LOCKCFG_LOCK_THR : Part → Fld
  | .garja => GJ.TB_LOCKCFG_LOCK_THR
  | .elzel => EZ.TB_LOCKCFG_LOCK_THR
def TB_LOCKCFG_LOCK_CNT : Part → Fld
  | .garja => GJ.TB_LOCKCFG_LOCK_CNT
  | .elzel => EZ.TB_LOCKCFG_LOCK_CNT
def TB_LOCKCFG_UNLOCK_THR : Part → Fld
  | .garja => GJ.TB_LOCKCFG_UNLOCK_THR
  | .elzel => EZ.TB_LOCKCFG_UNLOCK_THR
def TB_LOCKCFG_STEP_THR : Part → Fld
  | .garja => GJ.TB_LOCKCFG_STEP_THR
  | .elzel => EZ.TB_LOCKCFG_STEP_THR
def TB_LOCKCFG_HOLD_LIMIT : Part → Fld
  | .garja => GJ.TB_LOCKCFG_HOLD_LIMIT
  | .elzel => EZ.TB_LOCKCFG_HOLD_LIMIT
def TS_CTL_KP_SHIFT : Part → Fld
  | .garja => GJ.TS_CTL_KP_SHIFT
  | .elzel => EZ.TS_CTL_KP_SHIFT
def TS_CTL_KI_SHIFT : Part → Fld
  | .garja => GJ.TS_CTL_KI_SHIFT
  | .elzel => EZ.TS_CTL_KI_SHIFT
def TS_CTL_SPLIT_THR : Part → Fld
  | .garja => GJ.TS_CTL_SPLIT_THR
  | .elzel => EZ.TS_CTL_SPLIT_THR
def TS_CTL_TRK_SHIFT : Part → Fld
  | .garja => GJ.TS_CTL_TRK_SHIFT
  | .elzel => EZ.TS_CTL_TRK_SHIFT
def TS_CTL_TRK_MIN : Part → Fld
  | .garja => GJ.TS_CTL_TRK_MIN
  | .elzel => EZ.TS_CTL_TRK_MIN
def TS_CTL_ACQ_THR : Part → Fld
  | .garja => GJ.TS_CTL_ACQ_THR
  | .elzel => EZ.TS_CTL_ACQ_THR
def TS_STATUS_SWITCHES : Part → Fld
  | .garja => GJ.TS_STATUS_SWITCHES
  | .elzel => EZ.TS_STATUS_SWITCHES
def TS_STATUS_INTEG : Part → Fld
  | .garja => GJ.TS_STATUS_INTEG
  | .elzel => EZ.TS_STATUS_INTEG
def TS_TRACK_TRACKED : Part → Fld
  | .garja => GJ.TS_TRACK_TRACKED
  | .elzel => EZ.TS_TRACK_TRACKED
def TS_TRACK_ACTIVE : Part → Fld
  | .garja => GJ.TS_TRACK_ACTIVE
  | .elzel => EZ.TS_TRACK_ACTIVE
def TS_TRACK_SAMPLES : Part → Fld
  | .garja => GJ.TS_TRACK_SAMPLES
  | .elzel => EZ.TS_TRACK_SAMPLES
def TS_TRACK_X : Part → Fld
  | .garja => GJ.TS_TRACK_X
  | .elzel => EZ.TS_TRACK_X
def TDC_CTL_EN : Part → Fld
  | .garja => GJ.TDC_CTL_EN
  | .elzel => EZ.TDC_CTL_EN
def TDC_CTL_EDGE : Part → Fld
  | .garja => GJ.TDC_CTL_EDGE
  | .elzel => EZ.TDC_CTL_EDGE
def TDC_CTL_HYST : Part → Fld
  | .garja => GJ.TDC_CTL_HYST
  | .elzel => EZ.TDC_CTL_HYST
def TDC_CTL_VTH : Part → Fld
  | .garja => GJ.TDC_CTL_VTH
  | .elzel => EZ.TDC_CTL_VTH
def TDC_CTL_HOLDOFF : Part → Fld
  | .garja => GJ.TDC_CTL_HOLDOFF
  | .elzel => EZ.TDC_CTL_HOLDOFF
def TDC_CTL_POST : Part → Fld
  | .garja => GJ.TDC_CTL_POST
  | .elzel => EZ.TDC_CTL_POST
def TDC_CTL_NOFIFO : Part → Fld
  | .garja => GJ.TDC_CTL_NOFIFO
  | .elzel => EZ.TDC_CTL_NOFIFO
def TDC_CTL_DELAY : Part → Fld
  | .garja => GJ.TDC_CTL_DELAY
  | .elzel => EZ.TDC_CTL_DELAY
def TDC_STATUS_LIVE : Part → Fld
  | .garja => GJ.TDC_STATUS_LIVE
  | .elzel => EZ.TDC_STATUS_LIVE
def TDC_STATUS_CALIB : Part → Fld
  | .garja => GJ.TDC_STATUS_CALIB
  | .elzel => EZ.TDC_STATUS_CALIB
def TDC_STATUS_UNCAL : Part → Fld
  | .garja => GJ.TDC_STATUS_UNCAL
  | .elzel => EZ.TDC_STATUS_UNCAL
def TDC_STATUS_FILL : Part → Fld
  | .garja => GJ.TDC_STATUS_FILL
  | .elzel => EZ.TDC_STATUS_FILL
def TDC_STATUS_WRIGN : Part → Fld
  | .garja => GJ.TDC_STATUS_WRIGN
  | .elzel => EZ.TDC_STATUS_WRIGN
def TDC_STATUS_OVF : Part → Fld
  | .garja => GJ.TDC_STATUS_OVF
  | .elzel => EZ.TDC_STATUS_OVF
def TDC_STATUS_DROP : Part → Fld
  | .garja => GJ.TDC_STATUS_DROP
  | .elzel => EZ.TDC_STATUS_DROP
def TDC_STATUS_CALFAIL : Part → Fld
  | .garja => GJ.TDC_STATUS_CALFAIL
  | .elzel => EZ.TDC_STATUS_CALFAIL
def TDC_STATUS_REASON : Part → Fld
  | .garja => GJ.TDC_STATUS_REASON
  | .elzel => EZ.TDC_STATUS_REASON
def TDC_FIFO_VALID : Part → Fld
  | .garja => GJ.TDC_FIFO_VALID
  | .elzel => EZ.TDC_FIFO_VALID
def TDC_FIFO_FALL : Part → Fld
  | .garja => GJ.TDC_FIFO_FALL
  | .elzel => EZ.TDC_FIFO_FALL
def TDC_FIFO_LOCKED : Part → Fld
  | .garja => GJ.TDC_FIFO_LOCKED
  | .elzel => EZ.TDC_FIFO_LOCKED
def TDC_FIFO_UNCAL : Part → Fld
  | .garja => GJ.TDC_FIFO_UNCAL
  | .elzel => EZ.TDC_FIFO_UNCAL
def TDC_FIFO_GT : Part → Fld
  | .garja => GJ.TDC_FIFO_GT
  | .elzel => EZ.TDC_FIFO_GT
def TDC_FIFO_FRAC : Part → Fld
  | .garja => GJ.TDC_FIFO_FRAC
  | .elzel => EZ.TDC_FIFO_FRAC
def TDC_SS_ARM : Part → Fld
  | .garja => GJ.TDC_SS_ARM
  | .elzel => EZ.TDC_SS_ARM
def TDC_SS_REPEAT : Part → Fld
  | .garja => GJ.TDC_SS_REPEAT
  | .elzel => EZ.TDC_SS_REPEAT
def TDC_SS_STOP : Part → Fld
  | .garja => GJ.TDC_SS_STOP
  | .elzel => EZ.TDC_SS_STOP
def TDC_SS_TIMEOUT : Part → Fld
  | .garja => GJ.TDC_SS_TIMEOUT
  | .elzel => EZ.TDC_SS_TIMEOUT
def TDC_SSRES_DONE : Part → Fld
  | .garja => GJ.TDC_SSRES_DONE
  | .elzel => EZ.TDC_SSRES_DONE
def TDC_SSRES_STATUS : Part → Fld
  | .garja => GJ.TDC_SSRES_STATUS
  | .elzel => EZ.TDC_SSRES_STATUS
def TDC_SSRES_OVWR : Part → Fld
  | .garja => GJ.TDC_SSRES_OVWR
  | .elzel => EZ.TDC_SSRES_OVWR
def TDC_SSRES_INTERVAL : Part → Fld
  | .garja => GJ.TDC_SSRES_INTERVAL
  | .elzel => EZ.TDC_SSRES_INTERVAL
def TDC_FREQ_ARM : Part → Fld
  | .garja => GJ.TDC_FREQ_ARM
  | .elzel => EZ.TDC_FREQ_ARM
def TDC_FREQ_M : Part → Fld
  | .garja => GJ.TDC_FREQ_M
  | .elzel => EZ.TDC_FREQ_M
def TDC_FREQ_D : Part → Fld
  | .garja => GJ.TDC_FREQ_D
  | .elzel => EZ.TDC_FREQ_D
def TDC_FRES_DONE : Part → Fld
  | .garja => GJ.TDC_FRES_DONE
  | .elzel => EZ.TDC_FRES_DONE
def TDC_FRES_STATUS : Part → Fld
  | .garja => GJ.TDC_FRES_STATUS
  | .elzel => EZ.TDC_FRES_STATUS
def TDC_FRES_RESID : Part → Fld
  | .garja => GJ.TDC_FRES_RESID
  | .elzel => EZ.TDC_FRES_RESID
def TDC_FPER_INT : Part → Fld
  | .garja => GJ.TDC_FPER_INT
  | .elzel => EZ.TDC_FPER_INT
def TDC_FPER_FRAC : Part → Fld
  | .garja => GJ.TDC_FPER_FRAC
  | .elzel => EZ.TDC_FPER_FRAC
def TDC_CAL_FORCE : Part → Fld
  | .garja => GJ.TDC_CAL_FORCE
  | .elzel => EZ.TDC_CAL_FORCE
def TDC_CAL_DLL_LOCK : Part → Fld
  | .garja => GJ.TDC_CAL_DLL_LOCK
  | .elzel => EZ.TDC_CAL_DLL_LOCK
def TDC_CAL_LOG2N : Part → Fld
  | .garja => GJ.TDC_CAL_LOG2N
  | .elzel => EZ.TDC_CAL_LOG2N
def TDC_CAL_DLL_THR : Part → Fld
  | .garja => GJ.TDC_CAL_DLL_THR
  | .elzel => EZ.TDC_CAL_DLL_THR
def TDC_CAL_PERIOD : Part → Fld
  | .garja => GJ.TDC_CAL_PERIOD
  | .elzel => EZ.TDC_CAL_PERIOD
def TDC_CAL_DLL_CODE : Part → Fld
  | .garja => GJ.TDC_CAL_DLL_CODE
  | .elzel => EZ.TDC_CAL_DLL_CODE
def TDC_TBL_IDX_CH : Part → Fld
  | .garja => GJ.TDC_TBL_IDX_CH
  | .elzel => EZ.TDC_TBL_IDX_CH
def TDC_TBL_IDX_LINE : Part → Fld
  | .garja => GJ.TDC_TBL_IDX_LINE
  | .elzel => EZ.TDC_TBL_IDX_LINE
def TDC_TBL_IDX_CODE : Part → Fld
  | .garja => GJ.TDC_TBL_IDX_CODE
  | .elzel => EZ.TDC_TBL_IDX_CODE
def TDC_TBL_DATA_VALID : Part → Fld
  | .garja => GJ.TDC_TBL_DATA_VALID
  | .elzel => EZ.TDC_TBL_DATA_VALID
def TDC_TBL_DATA_HITS : Part → Fld
  | .garja => GJ.TDC_TBL_DATA_HITS
  | .elzel => EZ.TDC_TBL_DATA_HITS
def TDC_TBL_DATA_WIDTH : Part → Fld
  | .garja => GJ.TDC_TBL_DATA_WIDTH
  | .elzel => EZ.TDC_TBL_DATA_WIDTH
def TDC_TBL_DATA_CENTRE : Part → Fld
  | .garja => GJ.TDC_TBL_DATA_CENTRE
  | .elzel => EZ.TDC_TBL_DATA_CENTRE
def SL_CTL_EN : Part → Fld
  | .garja => GJ.SL_CTL_EN
  | .elzel => EZ.SL_CTL_EN
def SL_CTL_RETRAIN : Part → Fld
  | .garja => GJ.SL_CTL_RETRAIN
  | .elzel => EZ.SL_CTL_RETRAIN
def SL_STATUS_STATE : Part → Fld
  | .garja => GJ.SL_STATUS_STATE
  | .elzel => EZ.SL_STATUS_STATE
def SL_STATUS_RANGE_VALID : Part → Fld
  | .garja => GJ.SL_STATUS_RANGE_VALID
  | .elzel => EZ.SL_STATUS_RANGE_VALID
def SL_STATUS_FAR_UNCAL : Part → Fld
  | .garja => GJ.SL_STATUS_FAR_UNCAL
  | .elzel => EZ.SL_STATUS_FAR_UNCAL
def SL_STATUS_FAR_LOCK : Part → Fld
  | .garja => GJ.SL_STATUS_FAR_LOCK
  | .elzel => EZ.SL_STATUS_FAR_LOCK
def SL_STATUS_FAR_KIND : Part → Fld
  | .garja => GJ.SL_STATUS_FAR_KIND
  | .elzel => EZ.SL_STATUS_FAR_KIND
def SL_STATUS_LVL_RUN : Part → Fld
  | .garja => GJ.SL_STATUS_LVL_RUN
  | .elzel => EZ.SL_STATUS_LVL_RUN
def SL_STATUS_FAR_LVL_MIN : Part → Fld
  | .garja => GJ.SL_STATUS_FAR_LVL_MIN
  | .elzel => EZ.SL_STATUS_FAR_LVL_MIN
def SL_STATUS_FAR_LVL_MAX : Part → Fld
  | .garja => GJ.SL_STATUS_FAR_LVL_MAX
  | .elzel => EZ.SL_STATUS_FAR_LVL_MAX
def SL_STATUS_UPS : Part → Fld
  | .garja => GJ.SL_STATUS_UPS
  | .elzel => EZ.SL_STATUS_UPS
def SL_STATUS_DOWN_REASON : Part → Fld
  | .garja => GJ.SL_STATUS_DOWN_REASON
  | .elzel => EZ.SL_STATUS_DOWN_REASON
def SL_STATUS_TRAIN_TO : Part → Fld
  | .garja => GJ.SL_STATUS_TRAIN_TO
  | .elzel => EZ.SL_STATUS_TRAIN_TO
def SL_LAT_TX_LAT : Part → Fld
  | .garja => GJ.SL_LAT_TX_LAT
  | .elzel => EZ.SL_LAT_TX_LAT
def SL_LAT_RX_LAT : Part → Fld
  | .garja => GJ.SL_LAT_RX_LAT
  | .elzel => EZ.SL_LAT_RX_LAT
def SL_LAT_FAR_TX_LAT : Part → Fld
  | .garja => GJ.SL_LAT_FAR_TX_LAT
  | .elzel => EZ.SL_LAT_FAR_TX_LAT
def SL_LAT_FAR_RX_LAT : Part → Fld
  | .garja => GJ.SL_LAT_FAR_RX_LAT
  | .elzel => EZ.SL_LAT_FAR_RX_LAT
def SL_RANGE_DELAY : Part → Fld
  | .garja => GJ.SL_RANGE_DELAY
  | .elzel => EZ.SL_RANGE_DELAY
def SL_RANGE_ASYM : Part → Fld
  | .garja => GJ.SL_RANGE_ASYM
  | .elzel => EZ.SL_RANGE_ASYM
def SL_RANGE_SPREAD : Part → Fld
  | .garja => GJ.SL_RANGE_SPREAD
  | .elzel => EZ.SL_RANGE_SPREAD
def SL_OFFSET_SAMPLES : Part → Fld
  | .garja => GJ.SL_OFFSET_SAMPLES
  | .elzel => EZ.SL_OFFSET_SAMPLES
def SL_OFFSET_THETA : Part → Fld
  | .garja => GJ.SL_OFFSET_THETA
  | .elzel => EZ.SL_OFFSET_THETA
def SL_ERR_CRC_ERR : Part → Fld
  | .garja => GJ.SL_ERR_CRC_ERR
  | .elzel => EZ.SL_ERR_CRC_ERR
def SL_ERR_NAK_RX : Part → Fld
  | .garja => GJ.SL_ERR_NAK_RX
  | .elzel => EZ.SL_ERR_NAK_RX
def SL_ERR_RESENT : Part → Fld
  | .garja => GJ.SL_ERR_RESENT
  | .elzel => EZ.SL_ERR_RESENT
def SL_ERR_SYNC_ERR : Part → Fld
  | .garja => GJ.SL_ERR_SYNC_ERR
  | .elzel => EZ.SL_ERR_SYNC_ERR
def SL_DROP_DIR_DROP : Part → Fld
  | .garja => GJ.SL_DROP_DIR_DROP
  | .elzel => EZ.SL_DROP_DIR_DROP
def SL_DROP_BADTYPE : Part → Fld
  | .garja => GJ.SL_DROP_BADTYPE
  | .elzel => EZ.SL_DROP_BADTYPE
def SL_DROP_DISCARD : Part → Fld
  | .garja => GJ.SL_DROP_DISCARD
  | .elzel => EZ.SL_DROP_DISCARD
def SL_DROP_LOST : Part → Fld
  | .garja => GJ.SL_DROP_LOST
  | .elzel => EZ.SL_DROP_LOST
def STG_S_W0_STATE : Part → Fld
  | .garja => GJ.STG_S_W0_STATE
  | .elzel => EZ.STG_S_W0_STATE
def STG_S_W0_SCOPED : Part → Fld
  | .garja => GJ.STG_S_W0_SCOPED
  | .elzel => EZ.STG_S_W0_SCOPED
def STG_S_W0_SCOPE : Part → Fld
  | .garja => GJ.STG_S_W0_SCOPE
  | .elzel => EZ.STG_S_W0_SCOPE
def STG_S_W0_ENTRIES : Part → Fld
  | .garja => GJ.STG_S_W0_ENTRIES
  | .elzel => EZ.STG_S_W0_ENTRIES
def STG_S_W0_CHANGE : Part → Fld
  | .garja => GJ.STG_S_W0_CHANGE
  | .elzel => EZ.STG_S_W0_CHANGE
def STG_S_W1_T : Part → Fld
  | .garja => GJ.STG_S_W1_T
  | .elzel => EZ.STG_S_W1_T
def STG_S_W2_S_EFF : Part → Fld
  | .garja => GJ.STG_S_W2_S_EFF
  | .elzel => EZ.STG_S_W2_S_EFF
def STG_CFG_ORPHAN : Part → Fld
  | .garja => GJ.STG_CFG_ORPHAN
  | .elzel => EZ.STG_CFG_ORPHAN
def STG_CNT_APPLIED : Part → Fld
  | .garja => GJ.STG_CNT_APPLIED
  | .elzel => EZ.STG_CNT_APPLIED
def STG_CNT_NACK : Part → Fld
  | .garja => GJ.STG_CNT_NACK
  | .elzel => EZ.STG_CNT_NACK
def STG_CNT_LATE : Part → Fld
  | .garja => GJ.STG_CNT_LATE
  | .elzel => EZ.STG_CNT_LATE
def STG_CNT_WR_IGN : Part → Fld
  | .garja => GJ.STG_CNT_WR_IGN
  | .elzel => EZ.STG_CNT_WR_IGN
def EVT_ROUTE_UP : Part → Fld
  | .garja => GJ.EVT_ROUTE_UP
  | .elzel => EZ.EVT_ROUTE_UP
def EVT_RING_BASE_BASE : Part → Fld
  | .garja => GJ.EVT_RING_BASE_BASE
  | .elzel => EZ.EVT_RING_BASE_BASE
def EVT_RING_CFG_EN : Part → Fld
  | .garja => GJ.EVT_RING_CFG_EN
  | .elzel => EZ.EVT_RING_CFG_EN
def EVT_RING_CFG_LOG2N : Part → Fld
  | .garja => GJ.EVT_RING_CFG_LOG2N
  | .elzel => EZ.EVT_RING_CFG_LOG2N
def EVT_RING_CFG_DROP : Part → Fld
  | .garja => GJ.EVT_RING_CFG_DROP
  | .elzel => EZ.EVT_RING_CFG_DROP
def EVT_RING_PSHADOW_PSHADOW : Part → Fld
  | .garja => GJ.EVT_RING_PSHADOW_PSHADOW
  | .elzel => EZ.EVT_RING_PSHADOW_PSHADOW
def EVT_RING_INDEX_PROD : Part → Fld
  | .garja => GJ.EVT_RING_INDEX_PROD
  | .elzel => EZ.EVT_RING_INDEX_PROD
def EVT_RING_INDEX_CONS : Part → Fld
  | .garja => GJ.EVT_RING_INDEX_CONS
  | .elzel => EZ.EVT_RING_INDEX_CONS
def IRQ_PEND_PEND : Part → Fld
  | .garja => GJ.IRQ_PEND_PEND
  | .elzel => EZ.IRQ_PEND_PEND
def DEN_WATCH_FIRED : Part → Fld
  | .garja => GJ.DEN_WATCH_FIRED
  | .elzel => EZ.DEN_WATCH_FIRED
def DEN_WATCH_REASON : Part → Fld
  | .garja => GJ.DEN_WATCH_REASON
  | .elzel => EZ.DEN_WATCH_REASON
def DEN_WATCH_TYPE : Part → Fld
  | .garja => GJ.DEN_WATCH_TYPE
  | .elzel => EZ.DEN_WATCH_TYPE
def DEN_WATCH_STAMP : Part → Fld
  | .garja => GJ.DEN_WATCH_STAMP
  | .elzel => EZ.DEN_WATCH_STAMP
def DEN_WATCH_WATCH_US : Part → Fld
  | .garja => GJ.DEN_WATCH_WATCH_US
  | .elzel => EZ.DEN_WATCH_WATCH_US
def EVT_STATUS_QFILL : Part → Fld
  | .garja => GJ.EVT_STATUS_QFILL
  | .elzel => EZ.EVT_STATUS_QFILL
def EVT_STATUS_QDROP : Part → Fld
  | .garja => GJ.EVT_STATUS_QDROP
  | .elzel => EZ.EVT_STATUS_QDROP
def EVT_STATUS_UP_DROP : Part → Fld
  | .garja => GJ.EVT_STATUS_UP_DROP
  | .elzel => EZ.EVT_STATUS_UP_DROP
def EVT_STATUS_NOROUTE : Part → Fld
  | .garja => GJ.EVT_STATUS_NOROUTE
  | .elzel => EZ.EVT_STATUS_NOROUTE
def EVT_STATUS_INIT_FAULT : Part → Fld
  | .garja => GJ.EVT_STATUS_INIT_FAULT
  | .elzel => EZ.EVT_STATUS_INIT_FAULT
def IRQ_MASK_MASK : Part → Fld
  | .garja => GJ.IRQ_MASK_MASK
  | .elzel => EZ.IRQ_MASK_MASK
def QP_SQ_BASE_BASE : Part → Fld
  | .garja => GJ.CQP_SQ_BASE_BASE
  | .elzel => EZ.QP_SQ_BASE_BASE
def QP_CQ_BASE_BASE : Part → Fld
  | .garja => GJ.CQP_CQ_BASE_BASE
  | .elzel => EZ.QP_CQ_BASE_BASE
def QP_PSHADOW_PSHADOW : Part → Fld
  | .garja => GJ.CQP_PSHADOW_PSHADOW
  | .elzel => EZ.QP_PSHADOW_PSHADOW
def QP_CFG_EN : Part → Fld
  | .garja => GJ.CQP_CFG_EN
  | .elzel => EZ.QP_CFG_EN
def QP_CFG_LOG2N_SQ : Part → Fld
  | .garja => GJ.CQP_CFG_LOG2N_SQ
  | .elzel => EZ.QP_CFG_LOG2N_SQ
def QP_CFG_LOG2N_CQ : Part → Fld
  | .garja => GJ.CQP_CFG_LOG2N_CQ
  | .elzel => EZ.QP_CFG_LOG2N_CQ
def QP_CFG_CQ_DROP : Part → Fld
  | .garja => GJ.CQP_CFG_CQ_DROP
  | .elzel => EZ.QP_CFG_CQ_DROP
def QP_SQ_IDX_TAIL : Part → Fld
  | .garja => GJ.CQP_SQ_IDX_TAIL
  | .elzel => EZ.QP_SQ_IDX_TAIL
def QP_SQ_IDX_HEAD : Part → Fld
  | .garja => GJ.CQP_SQ_IDX_HEAD
  | .elzel => EZ.QP_SQ_IDX_HEAD
def QP_CQ_IDX_PROD : Part → Fld
  | .garja => GJ.CQP_CQ_IDX_PROD
  | .elzel => EZ.QP_CQ_IDX_PROD
def QP_CQ_IDX_CONS : Part → Fld
  | .garja => GJ.CQP_CQ_IDX_CONS
  | .elzel => EZ.QP_CQ_IDX_CONS
def CMD_CAP_LVL_MIN : Part → Fld
  | .garja => GJ.CMD_CAP_LVL_MIN
  | .elzel => EZ.CMD_CAP_LVL_MIN
def CMD_CAP_LVL_MAX : Part → Fld
  | .garja => GJ.CMD_CAP_LVL_MAX
  | .elzel => EZ.CMD_CAP_LVL_MAX
def RST_CTL_LEVEL : Part → Fld
  | .garja => GJ.RST_CTL_LEVEL
  | .elzel => EZ.RST_CTL_LEVEL
def RST_CTL_SUBSYS : Part → Fld
  | .garja => GJ.RST_CTL_SUBSYS
  | .elzel => EZ.RST_CTL_SUBSYS
def RST_CTL_CTX : Part → Fld
  | .garja => GJ.RST_CTL_CTX
  | .elzel => EZ.RST_CTL_CTX
def RST_CTL_PART : Part → Fld
  | .garja => GJ.RST_CTL_PART
  | .elzel => EZ.RST_CTL_PART
def RST_STATUS_DONE : Part → Fld
  | .garja => GJ.RST_STATUS_DONE
  | .elzel => EZ.RST_STATUS_DONE
def RST_STATUS_BUSY : Part → Fld
  | .garja => GJ.RST_STATUS_BUSY
  | .elzel => EZ.RST_STATUS_BUSY
def RST_STATUS_OVER : Part → Fld
  | .garja => GJ.RST_STATUS_OVER
  | .elzel => EZ.RST_STATUS_OVER
def RST_STATUS_LEVEL : Part → Fld
  | .garja => GJ.RST_STATUS_LEVEL
  | .elzel => EZ.RST_STATUS_LEVEL
def RST_STATUS_STATUS : Part → Fld
  | .garja => GJ.RST_STATUS_STATUS
  | .elzel => EZ.RST_STATUS_STATUS
def RST_STATUS_ELAPSED : Part → Fld
  | .garja => GJ.RST_STATUS_ELAPSED
  | .elzel => EZ.RST_STATUS_ELAPSED
def RST_STATUS_COLDS : Part → Fld
  | .garja => GJ.RST_STATUS_COLDS
  | .elzel => EZ.RST_STATUS_COLDS
def RST_STATUS_RESETS : Part → Fld
  | .garja => GJ.RST_STATUS_RESETS
  | .elzel => EZ.RST_STATUS_RESETS
def RST_HBCFG_HB_EN : Part → Fld
  | .garja => GJ.RST_HBCFG_HB_EN
  | .elzel => EZ.RST_HBCFG_HB_EN
def RST_HBCFG_HB_INT : Part → Fld
  | .garja => GJ.RST_HBCFG_HB_INT
  | .elzel => EZ.RST_HBCFG_HB_INT
def RST_STALL_STALL_1 : Part → Fld
  | .garja => GJ.RST_STALL_STALL_1
  | .elzel => EZ.RST_STALL_STALL_1
def RST_STALL_STALL_2 : Part → Fld
  | .garja => GJ.RST_STALL_STALL_2
  | .elzel => EZ.RST_STALL_STALL_2
def RST_STALL_STALL_3 : Part → Fld
  | .garja => GJ.RST_STALL_STALL_3
  | .elzel => EZ.RST_STALL_STALL_3
def RST_STALL_STALL_4 : Part → Fld
  | .garja => GJ.RST_STALL_STALL_4
  | .elzel => EZ.RST_STALL_STALL_4
def RST_STALL_STALL_5 : Part → Fld
  | .garja => GJ.RST_STALL_STALL_5
  | .elzel => EZ.RST_STALL_STALL_5
def RST_STALL_STALL_6 : Part → Fld
  | .garja => GJ.RST_STALL_STALL_6
  | .elzel => EZ.RST_STALL_STALL_6
def RST_STALL_STALL_7 : Part → Fld
  | .garja => GJ.RST_STALL_STALL_7
  | .elzel => EZ.RST_STALL_STALL_7
def CAP_CTL_SLOT : Part → Fld
  | .garja => GJ.CAP_CTL_SLOT
  | .elzel => EZ.CAP_CTL_SLOT
def CAP_CTL_UNREAD0 : Part → Fld
  | .garja => GJ.CAP_CTL_UNREAD0
  | .elzel => EZ.CAP_CTL_UNREAD0
def CAP_CTL_UNREAD1 : Part → Fld
  | .garja => GJ.CAP_CTL_UNREAD1
  | .elzel => EZ.CAP_CTL_UNREAD1
def CAP_CTL_NEWEST : Part → Fld
  | .garja => GJ.CAP_CTL_NEWEST
  | .elzel => EZ.CAP_CTL_NEWEST
def CAP_CTL_LOST : Part → Fld
  | .garja => GJ.CAP_CTL_LOST
  | .elzel => EZ.CAP_CTL_LOST
def CAP_CTL_INDEX : Part → Fld
  | .garja => GJ.CAP_CTL_INDEX
  | .elzel => EZ.CAP_CTL_INDEX
def CAP_DATA_DATA : Part → Fld
  | .garja => GJ.CAP_DATA_DATA
  | .elzel => EZ.CAP_DATA_DATA

end PT
end Sys2Proof.Machine
end

