-- ==== Sys2Proof/Machine/State.lean ====
section
/-!
DEFINITION. Sys2Proof/Machine/State.lean: the state of the block: one Garja, one Elzel, the die memory and the host memory
they write, and the queue of commands that wait. A register has one home, the register file of its part; what is not a
register stands in a field of its own.
-/
namespace Sys2Proof.Machine

/-! ### Registers -/

/-- A register file: (offset, value), offsets strictly rising, no entry equal to the register's reset value. -/
abbrev RegFile := List (Nat × Word)

/-- A sparse byte memory: addresses strictly rising, no entry equal to 0. -/
abbrev Mem := List Host.Cell

/-! ### Time base (02) and servo (06) -/

structure TimeBase where
  /-- Consecutive updates within LOCK_THR, and beyond UNLOCK_THR (R35). -/
  inCnt : Nat := 0
  outCnt : Nat := 0
  /-- LOCKED has been reached since COLD (R35). -/
  everLocked : Bool := false
  /-- GT at which the current HOLDOVER began, in local ns. -/
  holdSince : Nat := 0
  /-- TCLK periods since the last steering step (R34). -/
  sinceStep : Nat := 0
  /-- Local time at which PAUSED last cleared (R119). -/
  resumedAt : Nat := 0
  /-- Local time until which launches are held after a change of GJ_CLKFIX (R47). -/
  settleUntil : Nat := 0
  /-- A change of GJ_CLKFIX waiting for every accounting window to close (R47). -/
  clkfixWait : Option Bool := none
  /-- The GJ_REFCLK ratio that HOLDOVER and BURROW use (R117), 2^-16 ppb. -/
  ratioFrozen : Int := 0
  /-- Nanoseconds counted into EFF_TIME (R118). -/
  effNs : Nat := 0
  /-- The GT integer of the last EPOCH_MARK emitted by R40's 2^29 ns rule. -/
  markAt : Option Nat := none
  /-- Servo integrator i and accumulator a, in 2^-76 ps (R123). -/
  sI : Int := 0
  sA : Int := 0
  /-- The servo slews (R124). -/
  slewing : Bool := false
deriving DecidableEq, Repr

/-- A tracking filter x as the exact dyadic number num / 2^exp, in 2^-16 ns (R129), and the split latch (R132). -/
structure Track where
  num : Int := 0
  exp : Nat := 0
  split : Bool := false
deriving DecidableEq, Repr

/-! ### Clock regions (R42 to R48) -/

/-- The accounting window of a region (R43, R44). -/
structure Region where
  /-- GT of the first tick of the window, in ns. -/
  t0 : Option Nat := none
  k : Nat := 0
  pnom : Nat := 0
  /-- Stretched ticks of the window. -/
  stretched : Nat := 0
  /-- The step whose window this is (R43). -/
  ctx : Nat := 0
  step : Nat := 0
deriving DecidableEq, Repr

/-! ### Edge interpolator (03) -/

/-- A bin table of a delay line: the hits of each code and log2 of the edges collected; empty while there is none. -/
structure TdcTable where
  hits : List Nat := []
  log2n : Nat := 20
deriving DecidableEq, Repr

/-- A start and stop measurement (R63). -/
inductive SsState where
  | idle
  | waitStart
  | waitStop (start : Nat)
deriving DecidableEq, Repr

/-- A frequency measurement (R66): edges counted, samples taken, the first and last stamps and the sums of the fit. -/
structure FreqRun where
  edges : Nat
  k : Nat
  t0 : Nat
  last : Nat
  sumT : Nat
  sumKT : Nat
  sumTT : Nat
deriving DecidableEq, Repr

structure Tdc where
  /-- Records that wait, oldest first, with the full stamp in ns of each. -/
  fifo : List (Word × Nat) := []
  /-- End of the hold-off, in 2^-16 ns. -/
  holdEnd : Option Nat := none
  /-- Tables of lines X and Y. -/
  tabX : TdcTable := {}
  tabY : TdcTable := {}
  /-- The table of a calibration that succeeded and waits for its swap (R62). -/
  newTab : Option TdcTable := none
  /-- Local time and DLL code at which the live table was made (R59). -/
  madeAt : Nat := 0
  madeCode : Nat := 0
  ss : SsState := .idle
  freq : Option FreqRun := none
deriving DecidableEq, Repr

/-! ### Step link (04) -/

/-- The credit classes (R77). -/
inductive Cls where
  | bar
  | rel
  | sig
  | mgmt
  | evt
deriving DecidableEq, Repr

/-- One value per credit class (R77). -/
structure Per5 (α : Type) where
  bar : α
  rel : α
  sig : α
  mgmt : α
  evt : α
deriving DecidableEq, Repr

/-- A packet in a transmit queue: its flits, the blocks it has waited (R82), and the context that counts it (R198). -/
structure TxPkt where
  flits : Pkt
  waited : Nat := 0
  ctx : Option Nat := none
deriving DecidableEq, Repr

/-- A sequenced block in the retry buffer (R87): its flits with IDLE in place of TICK and CAL, the local time at which it
was last sent, and the classes of the packets that end in it. -/
structure TxBlock where
  seq : Nat
  flits : List Flit
  since : Nat
  ends : List Cls
deriving DecidableEq, Repr

/-- A TICK as a port remembers it: its ID, its stamp, and whether the stamp is uncalibrated (R92). -/
structure TickRec where
  id : Nat
  stamp : Nat
  uncal : Bool
deriving DecidableEq, Repr

/-- An item that waits (R226): its packets, with the job written (R214), the first as it was received, whether it is a chain from the staging area,
and whether it has been counted in HELD. -/
structure HeldItem where
  pkts : List Pkt
  raw : Pkt
  chain : Bool
  counted : Bool := false
deriving DecidableEq, Repr

structure Link where
  /-- Local time at which the training state was entered. -/
  since : Nat := 0
  /-- The far end's TRAIN has been received; a TRAIN with SEEN = 1 has been sent (R89). -/
  trainSeen : Bool := false
  seenSent : Bool := false
  /-- LVL_RUN, ROLE, DOMAIN, STEPPING and HOST_STEP in the far end's TRAIN. -/
  farRun : Nat := 0
  farRole : Nat := 0
  farDomain : Bool := false
  farStepping : Nat := 0
  farHostStep : Nat := 0
  /-- Single flits due in a payload slot of their own, and a TRAIN due (R82, R89). -/
  tickDue : Option Flit := none
  calDue : Bool := false
  trainDue : Option Pkt := none
  /-- Transmit queues, what is left of the packet being sent, and its class. -/
  txq : Per5 (List TxPkt) := ⟨[], [], [], [], []⟩
  cur : List Flit := []
  curCls : Cls := .mgmt
  /-- Retry buffer, the next sequence number, the blocks still to resend, resends of the oldest block, and the ACK_SEQ
  for which a NAK is being served (R87). -/
  seqTx : Nat := 0
  retry : List TxBlock := []
  resend : List TxBlock := []
  resends : Nat := 0
  nakFor : Option Nat := none
  /-- The block last sent: seven flits and the trailer. -/
  lastTx : List Flit := []
  /-- Credits: buffers the far end advertised, flits started and the far end's freed count, mod 256 (R81). -/
  far : Per5 Nat := ⟨0, 0, 0, 0, 0⟩
  spent : Per5 Nat := ⟨0, 0, 0, 0, 0⟩
  farFreed : Per5 Nat := ⟨0, 0, 0, 0, 0⟩
  /-- Receive side: expected SEQ, blocks accepted since UP (at most 64 counted), a resend outstanding, NAK to send (R86). -/
  seqRx : Nat := 0
  nAcc : Nat := 0
  failing : Bool := false
  nak : Bool := false
  /-- The packet being received and the flits still missing; a packet that is dropped flit by flit. -/
  part : List Flit := []
  need : Nat := 0
  /-- Packets received and not yet taken, and the flits freed since UP, mod 256. -/
  rx : Per5 (List Pkt) := ⟨[], [], [], [], []⟩
  freed : Per5 Nat := ⟨0, 0, 0, 0, 0⟩
  /-- TICK, CAL and TRAIN received and not yet taken. -/
  rxOwn : List Pkt := []
  /-- Consecutive invalid sync headers. -/
  badSync : Nat := 0
  /-- Ranging (R93, R94): the next TICK number, the last own TICK, the last far TICK received and its departure. -/
  tickId : Nat := 0
  ownTick : Option TickRec := none
  farTick : Option TickRec := none
  farDepart : Nat := 0
  /-- DELAY in 2^-24 ns, whether one is held, the consecutive samples of R94, and whether a CAL came since UP. -/
  delay : Int := 0
  have_ : Bool := false
  good : Nat := 0
  bad : Nat := 0
  calSeen : Bool := false
  /-- RT/2 of the last sample within 500 ps, in 2^-24 ns. -/
  lastHalf : Int := 0
  /-- Whole turns of 2^32 ns between the two ends' labels, from TICKs with HI = 1 (R93, R36). -/
  ext : Int := 0
  /-- The far end's ASYM from CAL, in ps. -/
  farAsym : Int := 0
  /-- Local time since which the port has been out of UP or held (R137). -/
  outSince : Option Nat := none
  /-- Discovery (R18): local time of the DISC_DOWN that is not answered, and DISC_TIMEOUT raised. -/
  discAt : Option Nat := none
  discLate : Bool := false
  /-- Segments of the ARRIVE_X chain under way on this port (R244), and whether the chain was dropped at its SEG 0. -/
  chain : List Pkt := []
  chainDrop : Bool := false
  /-- Items that wait for the combining engine, oldest first (R226). -/
  barHeld : List HeldItem := []
  /-- Local time until which the transmitter is held in electrical idle (R313). -/
  idleUntil : Nat := 0
deriving DecidableEq, Repr

/-! ### Events (16) -/

/-- A record that waits: its eight words (SEQ zero), the local time at which it was taken, how many steps of the time came
before it (R41), and the rings left. -/
structure EvRec where
  words : List Word
  at_ : Nat
  era : Nat
  rings : List Nat
deriving DecidableEq, Repr

/-- What a ring keeps beside its registers (R323, R325): records dropped since the last EVT_LOST, TYPE and stamp of the
first of them, whether its first record must be EPOCH_MARK, and whether a write failed once. -/
structure RingSt where
  lost : Nat := 0
  lostTyp : Nat := 0
  lostStamp : Nat := 0
  markFirst : Bool := false
  failed : Bool := false
deriving DecidableEq, Repr

structure Events where
  queue : List EvRec := []
  rings : List RingSt := []
  /-- Message sources 16 to 23 raised (R327), and the sources in service. -/
  raised : Nat := 0
  inSvc : Nat := 0
  /-- Priority stacks, top first: (source, PRIO) (R328). -/
  prio : List (List (Nat × Nat)) := []
  /-- Messages delivered and not yet seen outside: (processor, vector) of the last delivery. -/
  lastMsg : Option (Nat × Nat) := none
  /-- Steps of the time taken (R41). -/
  era : Nat := 0
  /-- Local time at which the Den watcher was last able to start anew, and a DEN_WATCH record that waits (R332). -/
  denFrom : Nat := 0
  denDue : Bool := false
  /-- MSI-X vectors sent, newest first (R334 to R336). -/
  msix : List Nat := []
deriving DecidableEq, Repr
/-! ### Reference selection (05) -/

/-- What the selector keeps of a source beside EZ_REF_SST (R102 to R109). -/
structure Source where
  healthySince : Option Nat := none
  holdoffEnd : Nat := 0
  /-- OFFSET holds an offset measured since the source left ABSENT. -/
  known : Bool := false
  accepted : Bool := false
deriving DecidableEq, Repr

structure RefLoop where
  sources : List Source := []
  /-- A better-ranked source and the local time since which it ranks better, unbroken (R107). -/
  better : Option (Nat × Nat) := none
  /-- Clean-up loop integrator in 2^-96 ppb (R110), and its last phase error in 2^-16 ns. -/
  i : Int := 0
  e : Int := 0
  inCnt : Nat := 0
  outCnt : Nat := 0
  everLocked : Bool := false
  lockedSince : Nat := 0
  holdSince : Nat := 0
  /-- The trim when a slew began (R111), 2^-16 ppb. -/
  yEntry : Option Int := none
  /-- Outputs of the loop: (local time, y in 2^-16 ppb), newest first (R114). -/
  hist : List (Nat × Int) := []
  /-- The latched phase error of R134 and R161, 2^-16 ns; whether one is held for R161. -/
  latch : Int := 0
  localLatched : Bool := false
  /-- The OCXO differed by more than 100 ppb at the last comparison. -/
  ocxoBad : Bool := false
deriving DecidableEq, Repr

/-! ### External time ports (07) -/

/-- A transmit descriptor (R152). -/
structure TxDesc where
  d0 : Word
  d1 : Word
deriving DecidableEq, Repr

/-- What a port does with the frame at the head of its queue (R152 to R154). -/
inductive TxHead where
  | none_
  | waiting (d : TxDesc)
  | sending (d : TxDesc) (late : Bool)
deriving DecidableEq, Repr

/-- A master heard by a SLAVE instance: its Announce data and the local time of its last Announce (R145). -/
structure Master where
  msg : PtpMsg
  heardAt : Nat
deriving DecidableEq, Repr

/-- A record of the transmit stamp queue (R150): the EZ_ETS word, the stamp word, and the local time it was written. -/
structure TxStamp where
  ets : Word
  stamp : Word
  at_ : Nat
deriving DecidableEq, Repr

structure PtpPort where
  masters : List Master := []
  best : Option (BitVec 80) := none
  /-- The root's values and the local time they were fetched (R147). -/
  fetched : Option PtpValues := none
  fetchedAt : Nat := 0
  /-- Word 0 of the descriptor being written, the descriptors that wait, and the frame at the head (R152, R153). -/
  d0 : Word := 0
  txq : List TxDesc := []
  head : TxHead := .none_
  /-- Transmit stamp queue, and a record lost since the last one written (R150). -/
  tsq : List TxStamp := []
  lostBefore : Bool := false
  /-- The last frame sent, byte by byte (R149, R152), and the messages the instance sent, newest first. -/
  lastFrame : List (BitVec 8) := []
  sent : List PtpKind := []
  /-- The last receive stamp with STEPS (R148, R151), and the receive stamp of the last Pdelay_Req (R149). -/
  lastRx : Option (BitVec 80 × Nat) := none
  pdelayRx : BitVec 80 := 0
deriving DecidableEq, Repr

/-- The outputs (R155 to R160). -/
structure Outputs where
  /-- Interpolator positions in 1/128 ns of the 1PPS, 10 MHz and step-pulse outputs; positive: earlier. -/
  trimPps : Int := 0
  trimTen : Int := 0
  trimSp : Int := 0
  /-- Local time of the last 1PPS rising edge and its width in ns. -/
  lastPps : Option (Nat × Nat) := none
  /-- The step pulse: settings in use, local time (TCLK edges) of the next pulse, SPULSE_DEV latch, a realignment asked for or
  under way, and the last pulse (local time, width in ns). -/
  spPeriod : Nat := 0
  spWidth : Nat := 0
  spAnchor : Nat := 0
  spNext : Nat := 0
  spDev : Bool := false
  spAlign : Bool := false
  lastPulse : Option (Nat × Nat) := none
deriving DecidableEq, Repr

/-! ### Commands (17): what both parts keep of them -/

/-- A reply that waits for a completion queue: its queue pair and its words (R341, R342). -/
structure ReplyRec where
  q : Nat
  words : List Word
deriving DecidableEq, Repr

/-- Commands under way (R342, R350, R351): every command taken and not yet answered, oldest first, with whether it has been
started, and the replies not yet written. -/
structure CmdSt where
  open_ : List Order := []
  replies : List ReplyRec := []
deriving DecidableEq, Repr

/-! ### Sync objects (08) -/

/-- How an operation came to the engine (R167, R177); void: from a sequencer that a PARK has since sent back (R273). -/
inductive OpPath where
  | realign (step : Nat) (check set_ : Bool)
  | seq
  | tap (n : Nat)
  | sig (p : Nat)
  | door (r : Requester)
  | window (r : Requester)
  | timeout (slot : Nat)
  | void
deriving DecidableEq, Repr

/-- An operation on its way through the engine: the context, OBJ, the physical object, OP, VALUE or N (the whole word for an
object-window write), TO, the step of the fox window it belongs to (R266), and whether it carries a retired generation (R199). -/
structure SoOp where
  path : OpPath
  ctx : Nat
  obj : Nat
  phys : Nat
  op : Nat
  val : Nat
  to_ : Nat := 0
  step : Option Nat := none
  old : Bool := false
deriving DecidableEq, Repr

/-- A waiter in its slot (R171): the slot is the key. `cond` is GE 0, GE_C 1, EQ 2, FLAG 3. -/
structure Waiter where
  slot : Nat
  ctx : Nat
  obj : Nat
  phys : Nat
  cond : Nat
  n : Nat
  to_ : Nat
  /-- GT integer of the deadline, if the wait has one. -/
  deadline : Option Nat
  /-- GT integer bits 31:0 at acceptance. -/
  stamp : Nat
  parked : Bool := false
  proc : Nat := 0
  step : Option Nat := none
deriving DecidableEq, Repr

/-- A grant pass under way on an object, with the waits granted at acceptance whose outcome it delivers, and the doorbell
answers that follow them (R172, R173). -/
structure Pass where
  phys : Nat
  early : List Waiter := []
  answers : List (Requester × Nat) := []
deriving DecidableEq, Repr

structure Engine where
  /-- Object words without NWAIT, by physical object; an unlisted one is 0 (R166). -/
  objs : RegFile := []
  /-- Waiters, slots rising. -/
  waiters : List Waiter := []
  passes : List Pass := []
  /-- Operations that wait, in the order of R177. -/
  intake : List SoOp := []
  /-- Result words by tile, an unlisted one 0; wake wire t is high while NEW is 1 (R175, R176). -/
  results : RegFile := []
  /-- Statuses answered by the target port, newest first (R169). -/
  answers : List (Requester × Nat) := []
deriving DecidableEq, Repr

/-- A signal that a tap has presented: address word, OP, VALUE, whether its context has retired that generation since (R199),
and whether the signal has been cut off (R200). -/
structure TapSig where
  addr : Word
  op : Nat
  val : Nat
  old : Bool := false
  cut : Bool := false
deriving DecidableEq, Repr

/-- A signal tap (R430): the signal presented, and DONE. -/
structure Tap where
  sig : Option TapSig := none
  done : Bool := false
deriving DecidableEq, Repr

/-! ### Contexts (09) -/

/-- Where a context command came from, and so where its end is reported (R196). -/
inductive CtxVia where
  | reg
  | packet (o : Order)
  | stage
  | reset
deriving DecidableEq, Repr

/-- The context commands. -/
inductive CtxKind where
  | activate
  | park
  | resume
  | teardown
  | abandon
deriving DecidableEq, Repr

/-- A context command accepted and not yet applied (R196): the requester coded as OWNER. -/
structure CtxCmd where
  kind : CtxKind
  by_ : Nat
  via : CtxVia
  flag : Bool := false
deriving DecidableEq, Repr

structure CtxRun where
  /-- Waits for the grant passes of its objects to end. -/
  due : Option CtxCmd := none
  /-- A PARK that waits for the sequencer to stop (R201). -/
  park : Option CtxCmd := none
  /-- Commands whose reply waits for FREE (R347). -/
  freeing : List Order := []
  /-- The requester that began the teardown, coded as OWNER. -/
  by_ : Nat := 0
  /-- Local time of the last entry to FREE by clearing (R196), and of the entry to DRAINING. -/
  freeAt : Option Nat := none
  drainAt : Nat := 0
deriving DecidableEq, Repr

/-! ### Sequencer and fox window (12) -/

/-- A RELEASE taken (R269). -/
structure RelTaken where
  step : Nat
  p : Bool
  tl : Nat
deriving DecidableEq, Repr

/-- What the sequencer keeps of a context beside GJ_SQ_CTX_c. -/
structure SeqCtx where
  /-- The number the next STEP takes; whether it is the first since START; whether a STEP has been executed since START. -/
  nxt : Nat := 0
  first : Bool := false
  begun : Bool := false
  /-- The current step's ARRIVE has been issued (R253). -/
  arrived : Bool := true
  lc : Nat := 0
  try_ : Bool := false
  /-- Steps whose ARRIVE has issued and whose RELEASE has not been taken, with the local time of the ARRIVE, ascending. -/
  unrel : List (Nat × Nat) := []
  /-- Releases taken, newest first, and the step of the last ARRIVE. -/
  rels : List RelTaken := []
  last : Option Nat := none
  /-- The highest step whose ARRIVE has been sent since the context became ACTIVE (R262). -/
  sent : Option Nat := none
  /-- The STEP under way: CLASS, NOSPEC, DL, the groups it launches, and whether it awaits its launch. -/
  cls : Nat := 0
  nospec : Bool := false
  dl : Nat := 0
  mask : Nat := 0
  await_ : Bool := false
  /-- The last step with a FIRM miss (R260). -/
  firm : Option Nat := none
  /-- Between LAUNCH and ARRIVE (R283), and the GT integer of the launch. -/
  inStep : Bool := false
  launchGt : Nat := 0
  /-- DEADLINE_STEP of this step has been raised. -/
  dlDone : Bool := false
  /-- An object operation of the sequencer is under way (R250). -/
  busy : Bool := false
  /-- The end of that operation or wait, not yet acted on: OP and status. -/
  ended : Option (Nat × Nat) := none
  /-- Local times at which the conditions of R259 were last met: RELEASE, REALIGN, WORK and GROUP. -/
  relAt : Nat := 0
  realignAt : Nat := 0
  workAt : Nat := 0
  groupAt : Nat := 0
  /-- The state of R263 to return to from STOPPED. -/
  saved : Nat := 0
  /-- An SWAIT that was accepted has not ended (R252), and the PC has run past 4,095 (R254). -/
  waiting : Bool := false
  pcOver : Bool := false
  /-- PC of the instruction last issued, and a BR on P that waits for its RELEASE: P1 or P0, and TARGET (R254). -/
  ipc : Nat := 0
  br : Option (Bool × Nat) := none
  /-- PC of the STEP under way, for the event of a fault and for R273. -/
  stepPc : Nat := 0
  /-- Sequencer SIG that wait in the port's queue of 16 are counted there; SIG committed from the hold buffer that find the
  queue full wait here, in order (R252). -/
  sigs : List Flit := []
deriving DecidableEq, Repr

/-- LC, TRY and the PC of STEP at a launch of the fox context (R273). -/
structure FoxSave where
  step : Nat
  pc : Nat
  lc : Nat
  try_ : Bool
deriving DecidableEq, Repr

/-- An entry of the undo log (R268). A base entry holds the object word; another records an operation (an object operation's
OP, or the change that a grant or a try made), its operand, the step it belongs to (none: committed), and whether it changed
the word. -/
structure UndoEntry where
  phys : Nat
  base : Bool
  word : Nat := 0
  op : Nat := 0
  n : Nat := 0
  step : Option Nat := none
  changed : Bool := false
deriving DecidableEq, Repr

/-- What the hold buffer holds (R267): a SIG, or an SQ_MARK with its CODE and PC. -/
inductive Held where
  | sig (f : Flit)
  | mark (code pc : Nat)
deriving DecidableEq, Repr

/-- A squash between its trigger and its restore (R270). -/
structure Squash where
  ctx : Nat
  first : Nat
  steps : List Nat
  at_ : Nat
deriving DecidableEq, Repr

structure Fox where
  /-- The most recently launched step of the fox context, and the steps launched and not committed, ascending. -/
  launched : Option Nat := none
  spec : List Nat := []
  saves : List FoxSave := []
  undo : List UndoEntry := []
  hold : List (Nat × Held) := []
  squash : Option Squash := none
  /-- Strobes driven, newest first: a squash strobe or a commit strobe, and its tag (R271). -/
  strobes : List (Bool × Nat) := []
deriving DecidableEq, Repr

/-! ### Collective lane (10) -/

/-- A read of the payload and digest of an ARRIVE under way (R213). -/
structure LaneRead where
  ctx : Nat
  step : Nat
  bar : Nat
  fmt : Nat
  addr : Nat
  /-- The PORT digest, when the source is PORT. -/
  port : Option Word
deriving DecidableEq, Repr

/-- A stored ARRIVE (R136). -/
structure StoreEnt where
  ctx : Nat
  step : Nat
  pkt : Pkt
deriving DecidableEq, Repr

/-- A release record to be written (R228): 128 bytes at `addr`. -/
structure RelRecord where
  ctx : Nat
  step : Nat
  status : Nat
  p : Bool
  tl : Nat
  addr : Nat
  bytes : List (BitVec 8)
  failed : Bool := false
deriving DecidableEq, Repr

structure Lane where
  reads : List LaneRead := []
  store : List StoreEnt := []
  records : List RelRecord := []
  /-- The value last latched from GJ_DIGEST (R432). -/
  digest : Word := 0
deriving DecidableEq, Repr

/-! ### Ballast (14) -/

structure Ballast where
  /-- F acts: an ARRIVE, squash strobe or power end of CTX has come since its last LAUNCH (R296). -/
  filling : Bool := false
  /-- The ramp's s0 in GT ns, its steps made, its output, and whether its last step is done (R297). -/
  s0 : Nat := 0
  made : Nat := 0
  out : Nat := 0
  held : Bool := false
  /-- GT ns at which GJ_PWR_REQ last rose (R299). -/
  reqGt : Nat := 0
  /-- Level × ns since COLD (GJ_PWR_ENERGY counts level × µs). -/
  lvlNs : Nat := 0
deriving DecidableEq, Repr

/-! ### Stage sets (13) -/

structure StageX where
  entries : List StgEntry := []
  /-- The requester that opened it, coded as OWNER (R204). -/
  by_ : Nat := 8
  /-- GT integer at the application point at which it became FENCED. -/
  fencedGt : Nat := 0
  /-- Local times of the entry to FENCED and of the last STAGE_ORPHAN. -/
  fencedAt : Nat := 0
  orphanAt : Nat := 0
  /-- The apply is under way: GT integer of its first entry, and the lateness in ns (R284, R471). -/
  applying : Option (Nat × Nat) := none
  wasFenced : Bool := false
deriving DecidableEq, Repr

/-- A change that has ended, for STG_QUERY (R347, R354). -/
structure StageEnd where
  change : Nat
  applied : Bool
  set_ : Nat
  t : Word
  sEff : Nat
deriving DecidableEq, Repr
/-! ### Combining engine (10, 11) -/

/-- What an instance has of one member port (R219): whether its items are bypassed, the running sum of COUNT and the origin
map. -/
structure PortAcc where
  port : Nat
  byp : Bool := false
  sum : Nat := 0
  map : Nat := 0
deriving DecidableEq, Repr

/-- The states of a sett (R218); timedOut: the apex has passed the deadline and the RELEASE waits for step − 1 (R227). -/
inductive InstSt where
  | open_
  | complete
  | sent
  | timedOut
deriving DecidableEq, Repr

/-- A barrier instance held in setts (R209, R218 to R220). -/
structure Inst where
  job : Nat
  step : Nat
  bar : Nat
  ctx : Nat
  fmt : Nat
  setts : Nat
  st : InstSt := .open_
  lanes : Option Lanes := none
  items : Nat := 0
  count : Nat := 0
  /-- FOLD: the sum of the digests. EQUAL: the reference. -/
  digest : Nat := 0
  mis : Bool := false
  ports : List PortAcc := []
  /-- GT integer at COMPLETE. -/
  done : Nat := 0
deriving DecidableEq, Repr

/-- Packets sent up for a step and kept until its RELEASE passes down (R136). -/
structure SentUp where
  job : Nat
  step : Nat
  pkt : Pkt
deriving DecidableEq, Repr

/-- A replay of a job as the coordinating root knows it (R372): S_k, S_req, the CHANGE and S_eff of the pause, whether the pause has been
released, and, once chosen, N; ended by a divergence. -/
structure Replay where
  job : Nat
  sk : Nat
  sReq : Nat
  change : Nat
  sEff : Nat
  paused : Bool := false
  n : Option Nat := none
  ended : Bool := false
deriving DecidableEq, Repr

structure Combiner where
  insts : List Inst := []
  /-- Bypass records (R225): job and step. -/
  recs : List (Nat × Nat) := []
  kept : List SentUp := []
  /-- T_L that the apex chose for a step: job, step, T_L (R227). -/
  tls : List (Nat × Nat × Nat) := []
  /-- Jobs moved away from this domain, and the S_eff of the move (R139). -/
  moved : List (Nat × Nat) := []
  /-- The CHANGE last applied to each job (R357). -/
  changes : List (Nat × Nat) := []
  /-- Steps of an owl that waits for the job's RELEASE: port, job, step (R366). -/
  owlWait : List (Nat × Nat × Nat) := []
  replays : List Replay := []
deriving DecidableEq, Repr

/-! ### Resets and capsules (19) -/

/-- A reset, or a capture, that the Den runs (R376 to R381, R393): LEVEL, SUBSYS, CTX and PART of the request, its requester
coded as OWNER, the local time of its acceptance, the commands that it answers when done, whether its capsule is still being
captured, and the steps of COLD that wait for power good. -/
structure RstRun where
  level : Nat
  sub : Nat := 0
  ctx : Nat := 0
  part : Nat := 0
  by_ : Nat := 0
  at_ : Nat := 0
  orders : List Order := []
  capturing : Bool := false
  /-- Its effects have taken place: a staged apply is finished first (R382). -/
  started : Bool := false
  /-- COLD: power-good failures so far (R389). -/
  fails : Nat := 0
deriving DecidableEq, Repr

/-- A capsule slot (R394): its number, and the words of it that R396 lays out, by their index in the capsule. -/
structure CapSlot where
  seq : Nat := 0
  words : List (Nat × Word) := []
deriving DecidableEq, Repr

structure Den where
  run : Option RstRun := none
  /-- A request that waits for a capture to end (R381). -/
  queued : Option RstRun := none
  caps : List CapSlot := []
  /-- Capsules taken since GJ_PORST_N. -/
  capSeq : Nat := 0
  /-- After a second power-good failure the part stays at order 2 of COLD (R389). -/
  dead : Bool := false
  /-- Elzel: local time of the last heartbeat of each die on its downstream port, and its STALL word (R385). -/
  beats : List (Nat × Nat × Word) := []
  /-- By subsystem: a measure of the work that it could act on at the last edge, and the local time since which that has not changed
  (R383). -/
  stall : List (Nat × Nat × Nat) := []
  /-- Local time of the last HEARTBEAT and of the last HB_SUMMARY or DEN_BEAT (R384 to R386). -/
  beatAt : Nat := 0
  sumAt : Nat := 0
  denAt : Nat := 0
deriving DecidableEq, Repr

/-- A spare-map load (R370, R433): the logical tiles that it moves, SPARES_USED, and whether Garja has taken it. -/
structure SpareLoad where
  tiles : List Nat
  used : Nat
  taken : Bool := false
deriving DecidableEq, Repr
/-! ### Elzel: the tree-tag pool (17), coordination (13), health (18) and discovery (01) -/

/-- Where a command is sent: the port, and LEVEL and DST of a routed one (R91). -/
structure Dest where
  port : Nat
  routed : Bool := false
  level : Nat := 0
  dst : Nat := 0
deriving DecidableEq, Repr

/-- A charged mismatch whose snapshot is being read (R362). -/
structure Mismatch where
  port : Nat
  chip : Nat
  ctx : Nat
  job : Nat
  step : Nat
  kind : Nat
  state : Nat
  score : Nat
  digest : Word
  refDigest : Word
deriving DecidableEq, Repr

/-- Why a command was sent: for its submitter, one entry of an STG_ADD that is split (R345), a part of a change (R286), a snapshot
(R362), a check of a trial (R373), a capsule read from a Den (R397: the port, the chip, how far the reading is, the words so far, newest
first, and the CAPSULE_READ that waits for it with its address and length), for Elzmon, which prints it (R466), or without interest in the answer. -/
inductive Purpose where
  | submit (o : Order)
  | split (o : Order) (dest : Dest) (change : Nat) (done : Nat) (rest : List StgEntry)
  | part (change : Nat) (unit : Nat)
  | probe (change : Nat) (unit : Nat)
  | snap (m : Mismatch)
  | trial (k : Nat) (check : Nat) (fp : Word)
  | remap (port : Nat)
  | cap (port chip phase : Nat) (got : List Word) (back : Option (Order × Nat × Nat))
  | mon
  | mute
deriving DecidableEq, Repr

/-- An entry of the tree-tag pool in use (R351): its tag, the opcode and LVL of the CMD, when it departed and how long it waits, in
µs. -/
structure PoolEnt where
  idx : Nat
  wrap : Nat
  op : Nat
  lvl : Nat
  at_ : Nat
  tmo : Nat
  why : Purpose
deriving DecidableEq, Repr

/-- A part of a change (R286, R348): the block header, its entries, and how far it is: 0 to be opened, 1 opening, 2 adding, 3 filled,
4 preparing, 5 acknowledged, 6 left out (R138), 7 refused,
8 told the decision, 9 with entries to be added. `added` counts the entries that it has taken. -/
structure StagePart where
  hdr : Word
  scopeKind : Nat
  scope : Nat
  entries : List StgEntry
  optional : Bool := false
  phase : Nat := 0
  added : Nat := 0
deriving DecidableEq, Repr

/-- A transition that the root has planned (R300, R302, R303): the job, its members by rack as a mask of their ports, the levels, START
in GT ns, DWELL in µs and BAL_STEP_W. -/
structure Ramp where
  job : Nat
  racks : List (Nat × Nat)
  from_ : Nat
  to_ : Nat
  start : Nat
  dwell : Nat
  stepW : Nat
deriving DecidableEq, Repr

/-- What a COMMIT means to the coordinator beside the staged entries. -/
inductive CoordEnd where
  | plan (job ctx : Nat) (ramp : Option Ramp) (waitLvl tReq cause : Nat)
  | jobEnd (job : Nat) (ramp : Ramp)
  | move (job dom sEff tries : Nat) (auto : Bool)
  | late (job : Nat)
  | rollback (job sk sReq sEff : Nat)
  | owl (k : Nat)
  | own (job : Nat)
deriving DecidableEq, Repr

/-- A change that the root coordinates (R286): its parts, T, FP, S_EFF, the command it answers with its opcode, the status and body of
the answer on COMMIT, the decision once made, and what it does then. -/
structure Coord where
  change : Nat
  parts : List StagePart
  t : Nat
  fp : Word := 0
  sEff : Nat := 0
  order : Option Order := none
  op : Nat := 0
  okStatus : Nat := 0
  okBody : List Word := []
  decided : Option Bool := none
  fin : CoordEnd := .own 0
  /-- The round asks the old domain's Elzels of a move for their job records (R137, R138): its parts hold the answers. -/
  probing : Bool := false
deriving DecidableEq, Repr

/-- A job whose plan the root holds (R13, R371): its context, CHANGE, domain in force, blocks (headers and entries), WAIT_LVL, its
members by rack as a mask of their ports, the GT of its end once that is committed, and whether it was moved without a command. -/
structure Plan where
  job : Nat
  ctx : Nat
  change : Nat
  fp : Word := 0
  domain : Nat := 0
  blocks : List StagePart
  waitLvl : Nat := 0
  racks : List (Nat × Nat) := []
  endAt : Option Nat := none
  moved : Bool := false
deriving DecidableEq, Repr

/-- A JOB_SUBMIT whose image has been read and whose start is not planned yet (R300): its command, fields, blocks, and the cause of
R302 for which it last waited. -/
structure PlanReq where
  order : Order
  job : Nat
  ctx : Nat
  change : Nat
  fp : Word
  dp : Nat
  tReq : Nat
  blocks : List StagePart
  cause : Nat := 0
deriving DecidableEq, Repr

/-- Tallies of one mismatched step at the root (R359): COUNT of the RELEASE, its local time, the leaves heard, digests with their
counts, members not named, and whether it is settled. -/
structure Tally where
  job : Nat
  step : Nat
  count : Nat
  at_ : Nat
  leaves : List Nat := []
  counts : List (Word × Nat) := []
  other : Nat := 0
  done : Bool := false
deriving DecidableEq, Repr

/-- A pairing at the root beside EZ_HLT_OWL_k (R366, R367): T, the local time of T or of the last mismatch, whether the owl has sent
an ARRIVE, and the digests of each side that wait for the other's: (step, digest). -/
structure Pairing where
  k : Nat
  port : Nat
  t : Nat
  since : Nat
  begun : Bool := false
  subj : List (Nat × Word) := []
  owl : List (Nat × Word) := []
deriving DecidableEq, Repr

/-- Digests gathered at the leaf for the next OWL_DIGESTS record of a pairing (R366). -/
structure OwlRec where
  k : Nat
  isOwl : Bool
  first : Nat
  digests : List Word
deriving DecidableEq, Repr

/-- A snapshot record (R371). -/
structure SnapRec where
  job : Nat
  step : Nat
  handle : Word
  ht : Nat
  change : Nat
  count : Nat
deriving DecidableEq, Repr

structure Health where
  tallies : List Tally := []
  pairs : List Pairing := []
  recs : List OwlRec := []
  snaps : List SnapRec := []
  /-- Expulsions: trunk field and GT integer (R368). -/
  expels : List (Nat × Nat) := []
  /-- The largest weight charged to the die of a port at its LAST_STEP (R363). -/
  weights : List (Nat × Nat) := []
  /-- Subjects that wait for a spare: chip, port, job, score (R366). -/
  wanting : List (Nat × Nat × Nat × Nat) := []
  /-- Members that left because both their domains are held (R21): job, chip. -/
  out : List (Nat × Nat) := []
  /-- Reserved spares that a committed change admits: T and the entry of EZ_HLT_SPARE (R369). -/
  admits : List (Nat × Nat) := []
  /-- CHANGE numbers the root has taken for changes of its own. -/
  own : Nat := 0
deriving DecidableEq, Repr

/-- A binding that a summary reports (R17): the chip number, the coordinate, and whether its port is held. -/
structure SumEnt where
  chip : Nat
  coord : Nat
  held : Bool := false
deriving DecidableEq, Repr

/-- A capsule in the CAPSULE region (R397): the chip, or the part itself, SEQ, and its place in the region. -/
structure CapRec where
  own : Bool
  chip : Nat
  seq : Nat
  off : Nat
  len : Nat
deriving DecidableEq, Repr

structure Mgr where
  pool : List PoolEnt := []
  /-- WRAP that an entry of the pool takes next, less `wrapBase`, modulo 16; an unlisted one is 0. -/
  wraps : List (Nat × Nat) := []
  wrapBase : Nat := 0
  coords : List Coord := []
  plans : List Plan := []
  ramps : List Ramp := []
  hlt : Health := {}
  /-- Summaries received, by port (R17, R15). -/
  sums : List (Nat × List SumEnt) := []
  /-- What each summary said of its subtree, by port: ready (R460), and complete: every bound port SEEN. -/
  oks : List (Nat × Bool × Bool) := []
  /-- The summary last sent with the ports it went to, and the positions reported under DUPLICATE and PAIRING: chip, coordinate, code. -/
  sentSum : List Word := []
  found : List (Nat × Nat × Nat) := []
  /-- Capsules stored, newest first. -/
  caps : List CapRec := []
  /-- Submitted jobs whose start is not planned yet, in order. -/
  planq : List PlanReq := []
  /-- Parts of moves left out (R138), to be staged when their Elzel is next reachable: the job, S_eff, the local time of the last try, and
  the part. -/
  late : List (Nat × Nat × Nat × StagePart) := []
  /-- Writes to host memory under way: address and bytes. -/
  toHost : List (Nat × List (BitVec 8)) := []
deriving DecidableEq, Repr


/-- No fault of the block stops the machine: every error the manual gives is a status, a counter or an event. -/
inductive Fault where
  /-- Raised by no meaning. Safe. -/
  | unreachable_
deriving DecidableEq, Repr

/-- Commands the machine does not run. -/
inductive Refusal where
  /-- Raised by an arm of exec whose command has no meaning yet. Safe: the machine stops. -/
  | notModelled (mnemonic : String)
deriving DecidableEq, Repr

/-! ### Power states (15) -/

/-- The power state of a part (R306, R314); DOZE is RUN with SCLK gated (R180). -/
inductive PowerState where
  | run
  | nap
  | burrow
  | quiet
  | denOnly
deriving DecidableEq, Repr

structure Power where
  st : PowerState := .run
  /-- Local time since which the idle conditions have held. -/
  idleSince : Option Nat := none
  entryAt : Nat := 0
  /-- Local time at which the part was last LOCKED (R312). -/
  lockedAt : Nat := 0
  /-- The DCO trim frozen at entry to DEN_ONLY (R316), 2^-16 ppb. -/
  trimFrozen : Int := 0
deriving DecidableEq, Repr

/-! ### The parts -/

/-- What both parts have. -/
structure Chip (pt : Part) where
  prm : Params
  regs : RegFile := []
  /-- Local time elapsed, in ns: the model's own clock for rules that give a time in ns or µs. -/
  now : Nat := 0
  /-- Counter of the free values: the model's own. -/
  free : Nat := 0
  /-- GT (Elzel: the GT integer beside HT, R128) in 2^-32 ns. -/
  gt : Nat := 0
  /-- Elzel: HT seconds, nanoseconds and fraction in 2^-32 ns (R2, R126), and its steps modulo 4 (R151). -/
  htSec : Nat := 0
  htNs : Nat := 0
  htFrac : Nat := 0
  steps : Nat := 0
  tb : TimeBase := {}
  tracks : List Track := []
  /-- Reference selection and the clean-up loop (Elzel). -/
  ref : RefLoop := {}
  tdc : List Tdc := []
  links : List Link := []
  ev : Events := {}
  /-- Journal memory (R355), byte A of BAR4, and TRACE stopped (R356). -/
  jrnl : Mem := []
  traceStopped : Bool := false
  /-- Jobs of this Elzel that begin with step 0 and of which no RELEASE has been sent (R210). -/
  fresh : List Nat := []
  pw : Power := {}
  cmd : CmdSt := {}
  den : Den := {}
  /-- Stage sets (13), and the last 16 changes that ended, newest first (R354). -/
  stage : List StageX := []
  stageEnds : List StageEnd := []
deriving DecidableEq, Repr

/-- Garja. -/
structure Garja where
  c : Chip .garja
  regions : List Region := []
  so : Engine := {}
  taps : List Tap := []
  /-- Local time at which a function or a tap began to drain: DOORBELL, OBJWIN, SIG_A, SIG_B, and taps 0 to 15 (R208). -/
  fnAt : List Nat := []
  ctxs : List CtxRun := []
  seqs : List SeqCtx := []
  /-- Programme memory (R249): address and instruction, an unlisted one 0. -/
  prog : RegFile := []
  fox : Fox := {}
  lane : Lane := {}
  bal : Ballast := {}
  smap : Option SpareLoad := none
  /-- The last launch: the groups pulsed and the GT integer of its edge (R258). -/
  launch : Option (Word × Nat) := none
  /-- Local time at which GJ_HLT_TELEM was last written (R361). -/
  telemAt : Option Nat := none
  /-- DEBUG accesses whose status the target port has not answered yet, oldest first: the port and the request's first flit (R467). -/
  dbg : List (Nat × Flit) := []
deriving DecidableEq, Repr

/-- A firmware operation under way (R461): OP, and the contents that it writes if its check passed, with the status of the check. -/
structure FwRun where
  op : Nat
  img : Option FwImage := none
  blk : Option FwConfig := none
  status : Nat := 0
deriving DecidableEq, Repr

/-- The thermal state (R447, R449): the combining engine's clock is halved, the clock asked for, local time since which T_j is below
94 °C, the last sample in 1/100 °C, a trip that waits, and whether the present DEN_ONLY follows a trip. -/
structure Thermal where
  half : Bool := false
  want : Bool := false
  coolSince : Option Nat := none
  tj : Int := 0
  tripDue : Bool := false
  tripped : Bool := false
deriving DecidableEq, Repr

/-- The shelf's poll (R293, R294): local time of the last completed poll and of the last event PWR_TELEM_LOST, and a resume request
that waits for a poll to complete. -/
structure Shelf where
  polledAt : Nat := 0
  lostAt : Option Nat := none
  resume : Bool := false
deriving DecidableEq, Repr

/-- What Elzmon prints for a command: its result lines, one per word, or a status name of R349. -/
inductive MonLine where
  | words (ws : List Word)
  | status (st : Nat)
deriving DecidableEq, Repr

/-- A DEBUG access (R467): READ or WRITE, WIN, OFFSET, DATA and MASK. -/
structure MonReq where
  write : Bool
  win : Nat
  off : Nat
  data : Word := 0
  mask : Word := 0
deriving DecidableEq, Repr

/-- Elzmon's command under way (R466): TAG and local time of the DEBUG request sent, its destination, the access it makes, those that
follow, and the words read so far, newest first. -/
structure MonRun where
  tag : Nat
  at_ : Nat
  dest : Dest
  cur : MonReq
  rest : List MonReq
  got : List Word := []
deriving DecidableEq, Repr

/-- Elzel. -/
structure Elzel where
  c : Chip .elzel
  cmb : Combiner := {}
  mgr : Mgr := {}
  ptp : List PtpPort := []
  out : Outputs := {}
  /-- The frame buffers (R152): byte A of BAR0 0x0007_0000 on. -/
  frames : Mem := []
  /-- The module's flash (R453), and the operation of EZ_FW_CTL or of the monitor that is under way. -/
  flash : Flash
  fw : Option FwRun := none
  th : Thermal := {}
  shelf : Shelf := {}
  /-- What Elzmon and the monitor printed, newest first; Elzmon's DEBUG accesses under way (R466); TAG of the next DEBUG request. -/
  console : List MonLine := []
  mon : Option MonRun := none
  monSeq : Nat := 0
  /-- The naturally aligned 32-byte blocks of the stacks that hold an uncorrectable error (R441), by number. The memory makes these errors, and no
  command reports one: DESIGN CHOICE, log entry 73. -/
  hbmBad : List Nat := []
deriving DecidableEq, Repr

/-- The whole block, and the commands that wait, first in first out. -/
structure State where
  gj : Garja
  ez : Elzel
  dieMem : Mem
  hostMem : Mem
  pending : List Instr
deriving DecidableEq, Repr

/-! ### Reset -/

/-- A part just powered, held by its power-on reset: every register at its reset value, time 0, every queue empty. -/
def Chip.init (u : Part) (prm : Params) : Chip u :=
  match u with
  | .garja =>
    { prm := prm, tracks := List.replicate 2 {}, tdc := List.replicate 4 {}, links := List.replicate 2 {},
      ev := { rings := List.replicate 16 {}, prio := List.replicate 8 [] }, den := { caps := List.replicate 2 {} },
      stage := List.replicate 4 {} }
  | .elzel =>
    { prm := prm, tracks := List.replicate 4 {}, tdc := List.replicate 76 {}, links := List.replicate 68 {},
      ev := { rings := List.replicate 64 {} }, den := { caps := List.replicate 2 {} }, stage := List.replicate 16 {},
      ref := { sources := List.replicate 6 {} } }

def Garja.init (prm : Params) : Garja :=
  { c := Chip.init .garja prm, regions := List.replicate 64 {}, taps := List.replicate 16 {}, fnAt := List.replicate 20 0,
    ctxs := List.replicate 256 {}, seqs := List.replicate 256 {} }

def Elzel.init (prm : Params) (flash : Flash) : Elzel :=
  { c := Chip.init .elzel prm, ptp := List.replicate 2 {}, flash := flash }

/-- The block right after power: both parts are held at the reset values of 20 and list no byte of any memory, and no command
waits. GJ_PORST_N and EZ_PORST_N then start the parts (R416, R456). -/
def State.reset : State :=
  { gj := Garja.init Config.params, ez := Elzel.init Config.params Config.flash, dieMem := [], hostMem := [], pending := [] }

end Sys2Proof.Machine
end

