-- ==== Sys2Proof/Machine/Ops.lean ====
section
/-!
DEFINITION. Sys2Proof/Machine/Ops.lean: the named operations over registers and memory, and the operations that every
family shares: raising an event (R318 to R326, R330, R333, R336), sending and taking a packet, and waking a part (R310).
-/
namespace Sys2Proof.Machine

variable {pt : Part}

/-- The part that a chip is. -/
abbrev Chip.part (_ : Chip pt) : Part := pt

/-! ### Register files -/

def regFind : RegFile → Nat → Option Word
  | [], _ => none
  | (a, v) :: l, o => if a == o then some v else regFind l o

/-- Every entry at o removed. -/
def regErase : RegFile → Nat → RegFile
  | [], _ => []
  | (a, v) :: l, o => if a == o then regErase l o else (a, v) :: regErase l o

/-- The entry at o set, offsets kept rising. -/
def regInsert : RegFile → Nat → Word → RegFile
  | [], o, w => [(o, w)]
  | (a, v) :: l, o, w => if o < a then (o, w) :: (a, v) :: l else if a == o then (o, w) :: l else (a, v) :: regInsert l o w

/-- The reset value of a row list that holds o. -/
def nonzeroAt : List (Nat × Nat × Nat × Nat) → Nat → Nat
  | [], _ => 0
  | (b, st, n, v) :: l, o => if rowHas b st n o then v else nonzeroAt l o

/-- The reset value of a Garja register (R407); integration parameters supply SL_LAT, SO_CTL, SO_TAP and BAL_STEP. -/
def gjReset (p : Params) (o : Nat) : Word :=
  if o == 0x510 || o == 0x590 then w64 (p.slTxLat.toNat * 2 ^ 48 + p.slRxLat.toNat * 2 ^ 32)
  else if o == 0x4000 then (if p.flagBuild then w64 0xC000000000000000 else w64 0x4000000000000000)
  else if o == 0x4020 then w64 (p.sigTaps.toNat * 2 ^ 16)
  else if o == 0xB000 then w64 (0x0500012C + p.balStepW.toNat * 2 ^ 40)
  else if o == 0xE000 || o == 0xE100 || o == 0xE300 then w64 0x0001000000000000
  else if rowHas 0xE000 8 256 o || rowHas 0xE900 8 32 o then w64 0x0001400000000000
  else w64 (nonzeroAt GJ.nonzero o)

/-- The reset value of an Elzel register (R408). -/
def ezReset (o : Nat) : Word :=
  if o == 0x40100 || o == 0x40110 then w64 0x0002000A01320000
  else if o == 0x40120 || o == 0x40130 then w64 0x001427103C328000
  else if o == 0x40140 || o == 0x40150 then w64 0x00C875303C320300
  else if o == 0xD80100 then w64 0x0030000000000000
  else if o == 0xD80110 then w64 0x3010000000000000
  else if o == 0xD80120 then w64 0x4010000000000000
  else if o == 0xD80130 then w64 0x5028000000000000
  else if o == 0xD80140 then w64 0x7808000000000000
  else w64 (nonzeroAt EZ.nonzero o)

def chipReset (u : Part) (p : Params) (o : Nat) : Word :=
  match u with
  | .garja => gjReset p o
  | .elzel => ezReset o

/-- A register file set at o, in canonical form: a value equal to the reset value is not listed. -/
def regSet (u : Part) (p : Params) (rf : RegFile) (o : Nat) (v : Word) : RegFile :=
  if v == chipReset u p o then regErase rf o else regInsert rf o v

def regGet (u : Part) (p : Params) (rf : RegFile) (o : Nat) : Word :=
  match regFind rf o with
  | some v => v
  | none => chipReset u p o

/-- Offsets strictly rise, from b on. -/
def risingFrom (b : Nat) : List Nat → Bool
  | [] => true
  | a :: l => decide (b ≤ a) && risingFrom (a + 1) l

/-- The canonical form of a register file. -/
def regWf (u : Part) (p : Params) (rf : RegFile) : Bool :=
  risingFrom 0 (rf.map (·.1)) && rf.all (fun e => !(e.2 == chipReset u p e.1))

/-- A register as it is stored. -/
def Chip.get (c : Chip pt) (o : Nat) : Word := regGet pt c.prm c.regs o
def Chip.set (c : Chip pt) (o : Nat) (v : Word) : Chip pt := { c with regs := regSet pt c.prm c.regs o v }

/-- Field f of register i of its row. -/
def Chip.rd (c : Chip pt) (f : Fld) (i : Nat := 0) : Nat := bits (c.get (f.off + f.stride * i)) f.hi f.lo
def Chip.flag (c : Chip pt) (f : Fld) (i : Nat := 0) : Bool := c.rd f i == 1
/-- A field as two's complement. -/
def Chip.rdS (c : Chip pt) (f : Fld) (i : Nat := 0) : Int := sx (f.hi + 1 - f.lo) (c.rd f i)
/-- Field f of register i set to the low bits of v. -/
def Chip.wr (c : Chip pt) (f : Fld) (v : Nat) (i : Nat := 0) : Chip pt :=
  c.set (f.off + f.stride * i) (setBits (c.get (f.off + f.stride * i)) f.hi f.lo v)
def Chip.wrS (c : Chip pt) (f : Fld) (v : Int) (i : Nat := 0) : Chip pt := c.wr f (unsx (f.hi + 1 - f.lo) v) i
/-- A counter advanced by k, saturating at its field. -/
def Chip.inc (c : Chip pt) (f : Fld) (i : Nat := 0) (k : Nat := 1) : Chip pt :=
  c.wr f (satU (f.hi + 1 - f.lo) (c.rd f i + k)) i

/-! ### Memories -/

/-- A byte of a memory: 0 where nothing is listed. DESIGN CHOICE (log entry 1). -/
def memRead : Mem → Nat → BitVec 8
  | [], _ => 0
  | (a, b) :: m, x => if a == x then b else memRead m x

def memErase : Mem → Nat → Mem
  | [], _ => []
  | (a, b) :: m, x => if a == x then memErase m x else (a, b) :: memErase m x

def memInsert : Mem → Nat → BitVec 8 → Mem
  | [], x, v => [(x, v)]
  | (a, b) :: m, x, v => if x < a then (x, v) :: (a, b) :: m else if a == x then (x, v) :: m else (a, b) :: memInsert m x v

/-- A byte written: writing 0 removes the entry. -/
def memWrite (m : Mem) (x : Nat) (v : BitVec 8) : Mem := if v == 0 then memErase m x else memInsert m x v

/-- The canonical form of a memory. -/
def memWf (m : Mem) : Bool := risingFrom 0 (m.map (·.1)) && m.all (fun e => !(e.2 == 0))

/-- Bytes written from address a up, addresses wrapping at 2^64. -/
def memWriteBytes : Mem → Nat → List (BitVec 8) → Mem
  | m, _, [] => m
  | m, a, b :: l => memWriteBytes (memWrite m (a % 2 ^ 64) b) (a + 1) l

def memReadBytes (m : Mem) : Nat → Nat → List (BitVec 8)
  | _, 0 => []
  | a, n + 1 => memRead m (a % 2 ^ 64) :: memReadBytes m (a + 1) n

/-- A 64-bit word in memory, most significant byte first (R473). -/
def memReadWord (m : Mem) (a : Nat) : Word := w64 (ofBytesBE (memReadBytes m a 8))
def memWriteWord (m : Mem) (a : Nat) (v : Word) : Mem := memWriteBytes m a (bytesBE 8 v.toNat)
def memWriteWords (m : Mem) (a : Nat) (ws : List Word) : Mem := memWriteBytes m a (ws.flatMap (fun w => bytesBE 8 w.toNat))

/-! ### Time -/

/-- The GT integer (R31). -/
def Chip.gtInt (c : Chip pt) : Nat := c.gt / 2 ^ 32 % 2 ^ 64
/-- The stamp of an event taken now (R40). -/
def Chip.stamp (c : Chip pt) : Nat := c.gtInt % 2 ^ 32

/-! ### Links -/

def Per5.at {α : Type} (x : Per5 α) : Cls → α
  | .bar => x.bar
  | .rel => x.rel
  | .sig => x.sig
  | .mgmt => x.mgmt
  | .evt => x.evt

def Per5.mod {α : Type} (x : Per5 α) (k : Cls) (f : α → α) : Per5 α :=
  match k with
  | .bar => { x with bar := f x.bar }
  | .rel => { x with rel := f x.rel }
  | .sig => { x with sig := f x.sig }
  | .mgmt => { x with mgmt := f x.mgmt }
  | .evt => { x with evt := f x.evt }

def Chip.link (c : Chip pt) (p : Nat) : Link := (c.links[p]?).getD {}
def Chip.onLink (c : Chip pt) (p : Nat) (f : Link → Link) : Chip pt := { c with links := upd c.links p f }

/-- The port is in UP (R89). -/
def Chip.up (c : Chip pt) (p : Nat) : Bool := c.rd (PT.SL_STATUS_STATE pt) p == 5

/-- A packet queued on a port for its class (R82), counted in flight for a context if one is named (R198). Nothing is
queued on a port that is not in UP. -/
def Chip.send (c : Chip pt) (p : Nat) (k : Cls) (pkt : Pkt) (ctx : Option Nat := none) : Chip pt :=
  if c.up p then c.onLink p (fun l => { l with txq := l.txq.mod k (· ++ [{ flits := pkt, ctx := ctx }]) }) else c

/-- A packet taken from the receive buffer of its class, if it waits there: its credit is freed (R81). -/
def Chip.take (c : Chip pt) (p : Nat) (k : Cls) (pkt : Pkt) : Chip pt :=
  c.onLink p (fun l =>
    match takeFirst (· == pkt) (l.rx.at k) with
    | some (_, rest) => { l with rx := l.rx.mod k (fun _ => rest), freed := l.freed.mod k (fun n => (n + pkt.length) % 256) }
    | none => l)

/-- TYPE and LEN of a first flit (R77). -/
def flitType (f : Flit) : Nat := bits f 127 124
def flitLen (f : Flit) : Nat := bits f 123 118

/-! ### Privileged sources (R330, R336) -/

/-- An MSI-X vector signalled: sent, or pending in the bit array while its entry is masked (R335). -/
def Chip.msixSend (c : Chip pt) (v : Nat) : Chip pt :=
  if c.flag EZ.MSIX_VEC_MASK v then
    let w := c.rd EZ.MSIX_PBA_PEND (v / 64)
    if w.testBit (v % 64) then c else c.wr EZ.MSIX_PBA_PEND (w + 2 ^ (v % 64)) (v / 64)
  else { c with ev := { c.ev with msix := v :: c.ev.msix } }

/-- The edge of a privileged source: its bit is latched; Elzel sends vector 1,088 + s when the bit becomes set unmasked. -/
def Chip.latchIrq (c : Chip pt) (s : Nat) : Chip pt :=
  let old := c.rd (PT.IRQ_PEND_PEND pt)
  if old.testBit s then c
  else
    let c := c.wr (PT.IRQ_PEND_PEND pt) (old + 2 ^ s)
    match c.part with
    | .garja => c
    | .elzel =>
      if (c.rd EZ.IRQ_MASK_MASK).testBit s then c else c.msixSend (1088 + s)

/-- GJ_IRQ_N[p] is low (R331). -/
def Chip.irqLow (c : Chip pt) (p : Nat) : Bool :=
  (List.range 16).any (fun s =>
    bit (c.get GJ.IRQ_ROUTE) (4 * s + 3) && bits (c.get GJ.IRQ_ROUTE) (4 * s + 2) (4 * s) == p
      && (c.rd GJ.IRQ_PEND_PEND).testBit s && !((c.rd GJ.IRQ_MASK_MASK p).testBit s))

/-! ### Event records -/

/-- One item of an event's payload: its width (8, 16, 32 or 64) and its value. -/
structure Item where
  w : Nat
  v : Nat

def i8 (v : Nat) : Item := ⟨8, v⟩
def i16 (v : Nat) : Item := ⟨16, v⟩
def i32 (v : Nat) : Item := ⟨32, v⟩
def i64 (v : Nat) : Item := ⟨64, v⟩
def s16 (v : Int) : Item := ⟨16, unsx 16 v⟩
def s32 (v : Int) : Item := ⟨32, unsx 32 v⟩
def s64 (v : Int) : Item := ⟨64, unsx 64 v⟩

/-- Items packed from bit 63 of a word downward (R319): the word under way, the bits used, and the words done. -/
def packGo : List Item → Nat → Nat → List Word → List Word
  | [], cur, used, done => done ++ (if used = 0 then [] else [w64 cur])
  | it :: l, cur, used, done =>
    let v := it.v % 2 ^ it.w
    if used + it.w ≤ 64 then packGo l (cur + v * 2 ^ (64 - used - it.w)) (used + it.w) done
    else packGo l (v * 2 ^ (64 - it.w)) it.w (done ++ [w64 cur])

/-- P0 to P4 of an event (R319). -/
def pack (l : List Item) : List Word := (packGo l 0 0 [] ++ List.replicate 5 0).take 5

/-- LEVEL, CHIP and COORD of the originator (R318, word 7). -/
def Chip.origin (c : Chip pt) : Word :=
  match c.part with
  | .garja =>
    let chip := if c.flag GJ.CHIP_VALID then c.rd GJ.CHIP_CHIP else 0
    let t := if c.flag GJ.TREE_A_VALID then c.get GJ.TREE_A else c.get GJ.TREE_B
    w64 (chip * 2 ^ 44 + bits t 17 0 * 2 ^ 26)
  | .elzel => w64 (c.rd EZ.ROLE_ROLE * 2 ^ 62 + c.rd EZ.ROLE_PREFIX * 2 ^ 26)

/-- An event record (R318), SEQ zero. -/
def Chip.record (c : Chip pt) (typ : Nat) (ctx step : Option Nat) (stamp : Nat) (items : List Item) : List Word :=
  let w0 := put 63 54 typ + (if ctx.isSome then 2 ^ 45 else 0) + (if step.isSome then 2 ^ 44 else 0)
    + put 39 32 (ctx.getD 0) + put 31 0 stamp
  [w64 w0, w64 (put 47 0 (step.getD 0))] ++ pack items ++ [c.origin]

def recType (ws : List Word) : Nat := bits (ws.headD 0) 63 54
def recStamp (ws : List Word) : Nat := bits (ws.headD 0) 31 0

/-- The ring is enabled. -/
def Chip.ringOn (c : Chip pt) (r : Nat) : Bool := c.flag (PT.EVT_RING_CFG_EN pt) r

/-- A record dropped for ring r: counted, remembered for EVT_LOST, and source 13 (Elzel 10) latched (R325). -/
def Chip.dropFor (c : Chip pt) (r : Nat) (ws : List Word) : Chip pt :=
  let c := (c.inc (PT.EVT_RING_CFG_DROP pt) r).latchIrq (match c.part with | .garja => 13 | .elzel => 10)
  { c with ev := { c.ev with rings := upd c.ev.rings r (fun s =>
      if s.lost = 0 then { s with lost := 1, lostTyp := recType ws, lostStamp := recStamp ws }
      else { s with lost := s.lost + 1 }) } }

/-- Capacity of the record queue (R325; Elzel 4,096). -/
def Chip.queueCap (c : Chip pt) : Nat := match c.part with | .garja => 256 | .elzel => 4096

/-- A record entered in the queue for the rings it reaches (R324, R325). -/
def Chip.enqueueRec (c : Chip pt) (ws : List Word) (rings : List Nat) : Chip pt :=
  let rs := rings.filter c.ringOn
  if rs.isEmpty then c.inc (PT.EVT_STATUS_NOROUTE pt)
  else if c.ev.queue.length ≥ c.queueCap then
    rs.foldl (fun c r => c.dropFor r ws) (c.inc (PT.EVT_STATUS_QDROP pt))
  else { c with ev := { c.ev with queue := c.ev.queue ++ [{ words := ws, at_ := c.now, era := c.ev.era, rings := rs }] } }

/-- The EVENT packet of a record (R326). -/
def eventPkt : List Word → Pkt
  | [a, b, c, d, e, f, g, h] =>
    [f128 (put 127 124 7 + put 123 118 4), a ++ b, c ++ d, e ++ f, g ++ h]
  | _ => []

/-- A copy sent up on port p, at most 16 EVENT packets waiting there; otherwise counted in UP_DROP (R326). -/
def Chip.sendUp (c : Chip pt) (p : Nat) (ws : List Word) (ctx : Option Nat := none) : Chip pt :=
  if c.up p && decide ((c.link p).txq.evt.length < 16) then c.send p .evt (eventPkt ws) ctx
  else c.inc (PT.EVT_STATUS_UP_DROP pt)

/-- The port on which Garja sends a record up (R326). -/
def Chip.upPort (c : Chip pt) (ctx : Option Nat) : Nat :=
  let p := match ctx with
    | some x => c.rd GJ.BDOM_PORT x
    | none => c.rd GJ.TB_STATUS_PORT
  if c.up p then p else 1 - p

/-- The own-domain uplink of an Elzel (R9): UPA is port 64, UPB port 65. -/
def Chip.uplink (c : Chip pt) : Nat := 64 + c.rd EZ.ROLE_DOMAIN
def Chip.isRoot (c : Chip pt) : Bool := c.rd EZ.ROLE_ROLE == 3

/-! ### Waking (R310) -/

/-- The state left and the cause of a wake of Garja (R310). -/
def Chip.wakeRec (c : Chip pt) (last cause : Nat) : Chip pt :=
  ((c.wr GJ.PST_STATUS_LAST last).wr GJ.PST_STATUS_CAUSE cause).inc GJ.PST_STATUS_WAKES

/-- Garja leaves BURROW (R310, R312): the GPLL runs on GJ_REFCLK, the enabled ports go to DETECT, and the first record of each
ring is EPOCH_MARK. -/
def Chip.leaveBurrow (c : Chip pt) : Chip pt :=
  let c := (c.wr GJ.CLK_STATUS_GPLL_LOCK 1).wr GJ.CLK_STATUS_GPLL_SRC 0
  let c : Chip pt := { c with pw := { c.pw with st := .run, idleSince := none },
                               ev := { c.ev with rings := c.ev.rings.map (fun r => { r with markFirst := true }) } }
  [0, 1].foldl (fun c p =>
    if c.flag GJ.SL_CTL_EN p then (c.wr GJ.SL_STATUS_STATE 1 p).onLink p (fun l => { l with since := c.now }) else c) c

/-- A wake with its CAUSE (R310, R315): Garja from NAP or BURROW to RUN, Elzel from QUIET to ACTIVE. A request that finds the part
running ends a run of idle time. -/
def Chip.wake (c : Chip pt) (cause : Nat) : Chip pt :=
  match c.pw.st with
  | .nap => let c := c.wakeRec 2 cause; { c with pw := { c.pw with st := .run, idleSince := none } }
  | .burrow => (c.wakeRec 3 cause).leaveBurrow
  | .quiet =>
    let c := match c.part with | .garja => c | .elzel => c.wr EZ.PST_STATUS_STATE 0
    { c with pw := { c.pw with st := .run, idleSince := none } }
  | .run => { c with pw := { c.pw with idleSince := none } }
  | .denOnly => c

/-! ### The journal (R355, R356) -/

/-- The region is enabled: the journal is written and the region has a size. -/
def Chip.regionOn (c : Chip pt) (r : Nat) : Bool := c.flag EZ.JRNL_CTL_EN && decide (c.rd EZ.JRNL_REG_W0_SIZE r ≠ 0)
def Chip.regionSize (c : Chip pt) (r : Nat) : Nat := c.rd EZ.JRNL_REG_W0_SIZE r * 2 ^ 30
def Chip.regionBase (c : Chip pt) (r : Nat) : Nat := c.rd EZ.JRNL_REG_W0_BASE r * 2 ^ 30

/-- Bytes written from offset o of a ring of size n at base b. -/
def ringWrite : Mem → Nat → Nat → Nat → List (BitVec 8) → Mem
  | m, _, _, _, [] => m
  | m, b, n, o, x :: l => ringWrite (memWrite m (b + o % n) x) b n (o + 1) l

/-- What an entry did to its region: written, written with a wrap, stopped, or dropped. -/
inductive JrnlEnd where
  | written
  | wrapped
  | stopped
  | dropped
deriving DecidableEq, Repr

/-- One entry written to region r (R356). -/
def Chip.jrnlPut (c : Chip pt) (r : Nat) (bs : List (BitVec 8)) : Chip pt × JrnlEnd :=
  if !c.regionOn r then (c, .dropped)
  else if r == 3 && c.traceStopped then (c.inc EZ.JRNL_CTL_DROP, .dropped)
  else
    let n := c.regionSize r
    let wr := c.rd EZ.JRNL_REG_W1_WR r
    if r == 3 && c.flag EZ.JRNL_CTL_TRACE_STOP && decide (wr + bs.length > n) then
      ({ (c.inc EZ.JRNL_CTL_DROP) with traceStopped := true }, .stopped)
    else
      let c : Chip pt := { c with jrnl := ringWrite c.jrnl (c.regionBase r) n wr bs }
      let c := c.wr EZ.JRNL_REG_W1_WR ((wr + bs.length) % n) r
      if wr + bs.length ≥ n then (c.inc EZ.JRNL_REG_W1_WRAPS r, .wrapped) else (c, .written)

/-! ### Raising an event -/

/-- Elzel's routing of a record (R333): to a ring and upward; the trace buffer is written by `raise`. -/
def Chip.ezRoute (c : Chip pt) (ws : List Word) (rings : Option (List Nat)) : Chip pt :=
  let t := recType ws
  let rs := match rings with
    | some l => l
    | none => if c.flag EZ.EVT_ROUTE_RING_EN t then [c.rd EZ.EVT_ROUTE_RING t] else []
  let c := c.enqueueRec ws rs
  if c.flag EZ.EVT_ROUTE_UP t && !c.isRoot then c.sendUp c.uplink ws else c

/-- A record written to the trace buffer when its TYPE has JRNL = 1 (R333); a wrap or a stop raises JRNL_WRAP. -/
def Chip.ezTrace (c : Chip pt) (ws : List Word) : Chip pt :=
  if !(c.flag EZ.EVT_ROUTE_JRNL (recType ws)) then c
  else
    match c.jrnlPut 3 (ws.flatMap (fun w => bytesBE 8 w.toNat)) with
    | (c, .wrapped) | (c, .stopped) =>
      let w := c.record EV.JRNL_WRAP none none c.stamp
        [i8 3, i32 (c.rd EZ.JRNL_REG_W1_WRAPS 3), i8 (b2n c.traceStopped)]
      let c := c.ezRoute w none
      if c.flag EZ.EVT_ROUTE_JRNL EV.JRNL_WRAP then (c.jrnlPut 3 (w.flatMap (fun w => bytesBE 8 w.toNat))).1 else c
    | (c, _) => c

/-- Register of the route of a TYPE in Garja: its row and index (R324). -/
def gjRouteOff (t : Nat) : Nat := if t ≥ 0x200 then 0xE900 + 8 * (t - 0x200) else 0xE000 + 8 * (t - 0x20)

/-- Garja's routing of a record (R324, R326). -/
def Chip.gjRoute (c : Chip pt) (ws : List Word) (ctx : Option Nat) (rings : Option (List Nat)) : Chip pt :=
  let t := recType ws
  let rt := c.get (gjRouteOff t)
  let shared := onesOf (bits rt 63 48) 16
  let rs := match rings with
    | some l => l
    | none =>
      match ctx with
      | some x => if bit rt 47 && c.flag GJ.EVT_CTXRING_EN x then [c.rd GJ.EVT_CTXRING_RING x] else shared
      | none => shared
  let c := c.enqueueRec ws rs
  let c := if bit rt 46 && t != EV.EPOCH_MARK .garja && t != EV.SO_WAIT_DONE then c.sendUp (c.upPort ctx) ws ctx else c
  if c.pw.st == .burrow then c else c.wake 4

/-- A record delivered by the unit that takes the event. `rings` names the rings of EPOCH_MARK, EVT_LOST and SO_WAIT_DONE. -/
def Chip.deliver (c : Chip pt) (ws : List Word) (ctx : Option Nat) (rings : Option (List Nat)) : Chip pt :=
  match c.part with
  | .garja => c.gjRoute ws ctx rings
  | .elzel => (c.ezRoute ws rings).ezTrace ws

/-- An event raised now (R318 to R326, R333). -/
def Chip.raise (c : Chip pt) (typ : Nat) (ctx step : Option Nat) (items : List Item) : Chip pt :=
  c.deliver (c.record typ ctx step c.stamp items) ctx none

/-- How many rings the part has. -/
def Chip.nRings (c : Chip pt) : Nat := match c.part with | .garja => 16 | .elzel => 64

/-- EPOCH_MARK, to every enabled ring (R40). -/
def Chip.epochMark (c : Chip pt) : Chip pt :=
  c.deliver (c.record (EV.EPOCH_MARK pt) none none c.stamp [i32 (c.gtInt / 2 ^ 32)]) none
    (some ((List.range c.nRings).filter c.ringOn))

/-- JRNL_WRAP raised for an entry that wrapped or stopped its region (R356). -/
def Chip.jrnlAppend (c : Chip pt) (r : Nat) (bs : List (BitVec 8)) : Chip pt :=
  match c.jrnlPut r bs with
  | (c, .wrapped) => c.raise EV.JRNL_WRAP none none [i8 r, i32 (c.rd EZ.JRNL_REG_W1_WRAPS r), i8 0]
  | (c, .stopped) => c.raise EV.JRNL_WRAP none none [i8 r, i32 (c.rd EZ.JRNL_REG_W1_WRAPS r), i8 1]
  | (c, _) => c

def Chip.jrnlWords (c : Chip pt) (r : Nat) (ws : List Word) : Chip pt := c.jrnlAppend r (ws.flatMap (fun w => bytesBE 8 w.toNat))

/-! ### The two parts -/

/-- The answers of a meaning. -/
abbrev Out := Host.Outcome State Fault Refusal

/-- A change of Garja alone. -/
def State.onGj (s : State) (f : Garja → Garja) : State := { s with gj := f s.gj }

def Garja.onC (g : Garja) (f : Chip .garja → Chip .garja) : Garja := { g with c := f g.c }
def Elzel.onC (e : Elzel) (f : Chip .elzel → Chip .elzel) : Elzel := { e with c := f e.c }

/-- The main clocks run: neither BURROW nor DEN_ONLY (R306, R314), and not held by a failed COLD (R389). -/
def Chip.clocked (c : Chip pt) : Bool := c.pw.st != .burrow && c.pw.st != .denOnly && !c.den.dead

/-- A change of Elzel alone, while its main clocks run. -/
def State.onEz (s : State) (f : Elzel → Elzel) : State := { s with ez := if s.ez.c.clocked then f s.ez else s.ez }

/-- A change of what the Den of a part works on, whatever the power state. -/
def State.onDen (s : State) (u : Part) (f : Chip u → Chip u) : State :=
  match u, f with
  | .garja, f => { s with gj := s.gj.onC f }
  | .elzel, f => { s with ez := s.ez.onC f }

/-- A change of what both parts have, on the part named, while its main clocks run. -/
def State.onChip (s : State) (u : Part) (f : Chip u → Chip u) : State := s.onDen u (fun c => if c.clocked then f c else c)

/-- A change by a request of the target port: it wakes Garja first (R310); Elzel has no target port in DEN_ONLY. -/
def State.onReg (s : State) (u : Part) (f : Chip u → Chip u) : State :=
  match u, f with
  | .garja, f => s.onDen .garja (fun c => if c.den.dead then c else f (c.wake 1))
  | .elzel, f => s.onChip .elzel f

/-- How many ports and interpolator channels the part has (R68, R69, R100). -/
def Chip.nPorts (c : Chip pt) : Nat := match c.part with | .garja => 2 | .elzel => 68
def Chip.nCh (c : Chip pt) : Nat := match c.part with | .garja => 4 | .elzel => 76

/-- A change on a port, or on a channel, that the part has; a number it does not have names nothing. -/
def State.onPort (s : State) (u : Part) (p : Nat) (f : Chip u → Chip u) : State :=
  s.onChip u (fun c => if p < c.nPorts then f c else c)
def State.onCh (s : State) (u : Part) (n : Nat) (f : Chip u → Chip u) : State :=
  s.onChip u (fun c => if n < c.nCh then f c else c)
def State.onPortReg (s : State) (u : Part) (p : Nat) (f : Chip u → Chip u) : State :=
  s.onReg u (fun c => if p < c.nPorts then f c else c)
def State.onChReg (s : State) (u : Part) (n : Nat) (f : Chip u → Chip u) : State :=
  s.onReg u (fun c => if n < c.nCh then f c else c)

def State.chip (s : State) : (u : Part) → Chip u
  | .garja => s.gj.c
  | .elzel => s.ez.c

end Sys2Proof.Machine
end

