-- ==== Sys2Proof/Machine/TimeBase.lean ====
section
/-!
DEFINITION. Sys2Proof/Machine/TimeBase.lean: the time base of 02, the servo and the tracked domains of 06 and the holdover of
Garja in 05, over what both parts have; and the meanings of their commands.
-/
namespace Sys2Proof.Machine

variable {pt : Part}

/-! ### Who is in use -/

/-- Any context of Garja is not FREE (GJ_CHIP.LOCK). -/
def Chip.anyCtx (c : Chip pt) : Bool :=
  c.regs.any (fun e => decide (0x6800 ≤ e.1) && decide (e.1 < 0x7000) && bits e.2 63 61 != 0)

/-- Any job domain has a member in the subtree of Elzel: an EZ_CMB_JOB entry is VALID. -/
def Chip.anyJob (c : Chip pt) : Bool :=
  c.regs.any (fun e => decide (0x100000 ≤ e.1) && decide (e.1 < 0x120000) && e.1 % 0x20 == 0 && bit e.2 63)

/-- A step of the time is locked out by work in progress (R32, R36, R125). -/
def Chip.inUse (c : Chip pt) : Bool := match c.part with | .garja => c.anyCtx | .elzel => c.anyJob

/-- A write that Garja ignores or clamps is counted in GJ_TB_STATUS.WR_IGN; Elzel has no such counter. -/
def Chip.tbIgn (c : Chip pt) : Chip pt := match c.part with | .garja => c.inc GJ.TB_STATUS_WR_IGN | .elzel => c

/-! ### Lock state -/

/-- The servo's lock state: 0 FREERUN, 1 ACQUIRE, 2 LOCKED, 3 HOLDOVER (R35, R125). -/
def Chip.lock (c : Chip pt) : Nat := match c.part with | .garja => c.rd GJ.TB_STATUS_LOCK | .elzel => c.rd EZ.TS_STATUS_STATE
/-- The active port of Garja, or the input of Elzel's servo (0 to 3, 7 none). -/
def Chip.input (c : Chip pt) : Nat := match c.part with | .garja => c.rd GJ.TB_STATUS_PORT | .elzel => c.rd EZ.TS_STATUS_INPUT
/-- The port of a servo input: Garja's ports, or the uplinks and peer ports of Elzel (R122). -/
def Chip.inputPort (c : Chip pt) (i : Nat) : Nat :=
  match c.part with
  | .garja => i
  | .elzel =>
    if i == 0 then c.uplink else if i == 1 then 129 - c.uplink else 64 + i
/-- The servo input that a port is, if it is one. -/
def Chip.portInput (c : Chip pt) (p : Nat) : Option Nat :=
  match c.part with
  | .garja => if p < 2 then some p else none
  | .elzel =>
    if p == c.uplink then some 0 else if p == 64 || p == 65 then some 1
    else if p == 66 || p == 67 then some (p - 64) else none

def Chip.rangeValid (c : Chip pt) (p : Nat) : Bool := c.flag (PT.SL_STATUS_RANGE_VALID pt) p
def Chip.farLock (c : Chip pt) (p : Nat) : Nat := c.rd (PT.SL_STATUS_FAR_LOCK pt) p

/-- x of a tracking filter times k, compared with y: |x| > y. -/
def Track.above (t : Track) (ps : Nat) : Bool := decide (t.num.natAbs * 1000 > ps * 65536 * 2 ^ t.exp)

/-- |x| < y. -/
def Track.below (t : Track) (ps : Nat) : Bool := decide (t.num.natAbs * 1000 < ps * 65536 * 2 ^ t.exp)

def Chip.track (c : Chip pt) (i : Nat) : Track := (c.tracks[i]?).getD {}

/-- Input i is tracked (R129). -/
def Chip.tracked (c : Chip pt) (i : Nat) : Bool :=
  let p := c.inputPort i
  c.up p && c.rangeValid p
    && decide (c.rd (PT.TS_TRACK_SAMPLES pt) i ≥ c.rd (PT.TS_CTL_TRK_MIN pt))
    && !((c.track i).above (c.rd (PT.TB_LOCKCFG_UNLOCK_THR pt)))
    && decide (c.farLock p ≥ 2)

/-- GPLL_SRC moved to a source, counted when it changes (R29). -/
def Chip.gpll (c : Chip pt) (src : Nat) : Chip pt :=
  match c.part with
  | .elzel => c
  | .garja => if c.rd GJ.CLK_STATUS_GPLL_SRC == src then c
    else ((c.wr GJ.CLK_STATUS_GPLL_SRC src).wr GJ.CLK_STATUS_GPLL_LOCK 1).inc GJ.CLK_STATUS_SRC_CNT

/-- EFF_TIME cleared, and launches resumed, when LOCKED with FAR_LOCK LOCKED on the active port (R118, R119). -/
def Chip.effClear (c : Chip pt) : Chip pt :=
  match c.part with
  | .elzel => c
  | .garja =>
    if c.lock == 2 && c.farLock c.input == 2 then
      let any := (List.range 256).any (fun x => c.flag GJ.HOLD_BUDGET_PAUSED x)
      let c : Chip pt := { c with tb := { c.tb with effNs := 0, resumedAt := if any then c.now else c.tb.resumedAt } }
      (List.range 256).foldl (fun c x => if c.flag GJ.HOLD_BUDGET_PAUSED x then c.wr GJ.HOLD_BUDGET_PAUSED 0 x else c) c
    else c

/-- HT moved by a signed count of nanoseconds, with carry or borrow across the seconds. -/
def Chip.htMove (c : Chip pt) (d : Int) : Chip pt :=
  let t : Int := (c.htSec : Int) * 1000000000 + (c.htNs : Int) + d
  { c with htSec := (t / 1000000000 % ((2 ^ 48 : Nat) : Int)).toNat, htNs := (t % 1000000000).toNat }

/-- The phase and the increment at the entry to LOCKED (R33); at Elzel HT keeps equal to GT (R125, R128). -/
def Chip.enterLocked (c : Chip pt) : Chip pt :=
  let frac := c.gt % 2 ^ 32
  let c := (c.wr (PT.TB_INCR_INT pt) 1).wr (PT.TB_INCR_FRAC pt) 0
  if frac = 0 then c
  else
    let c : Chip pt := { c with gt := (c.gt - frac + 2 ^ 32) % 2 ^ 96 }
    match c.part with
    | .garja => c
    | .elzel => { c.htMove 1 with htFrac := 0 }

/-- What a new lock state brings with it, beside the register and the event (R35, R114, R117, R123). -/
def Chip.lockAction (c : Chip pt) (old new port : Nat) : Chip pt :=
  if new == 3 then
    let c : Chip pt := { c with tb := { c.tb with holdSince := c.now, slewing := false } }
    (match c.part with
      | .garja => { (c.gpll 0) with tb := { c.tb with ratioFrozen := c.rdS GJ.TB_REFMEAS_RATIO } }
      | .elzel => c).latchIrq (match c.part with | .garja => 2 | .elzel => 0)
  else if new == 0 then (c.gpll 0).latchIrq (match c.part with | .garja => 2 | .elzel => 0)
  else if new == 1 then
    let c := c.gpll (port + 1)
    let c : Chip pt := { c with tb := { c.tb with inCnt := 0, outCnt := 0 } }
    if old == 0 || old == 3 then { c with tb := { c.tb with sI := 0, sA := 0 } } else c
  else
    let c := (if old == 1 then c.enterLocked else c).gpll (port + 1)
    { c with tb := { c.tb with outCnt := 0, everLocked := true, slewing := false }, pw := { c.pw with lockedAt := c.now } }

/-- The lock state or the input changed (R35): LOCK_STATE carries the old and new states and the active port. -/
def Chip.setLock (c : Chip pt) (new port : Nat) : Chip pt :=
  let old := c.lock
  let oldPort := c.input
  if old == new && oldPort == port then c
  else
    let c := match c.part with
      | .garja => (c.wr GJ.TB_STATUS_LOCK new).wr GJ.TB_STATUS_PORT port
      | .elzel => (c.wr EZ.TS_STATUS_STATE new).wr EZ.TS_STATUS_INPUT port
    let c := if oldPort == port || old == 0 || old == 3 then c
      else c.inc (PT.TS_STATUS_SWITCHES pt)
    let c := c.lockAction old new port
    let c := c.raise (EV.LOCK_STATE pt) none none [i8 old, i8 new, i8 port]
    let c := if old == 1 && new == 2 && pt == .garja then c.epochMark else c
    c.effClear

/-! ### A step of the time (R32, R36, R58, R126) -/

/-- Every interpolator channel at a step of the time by d, in 2^-32 ns: the queue is emptied and armed measurements end (R58, R64,
R67). The end of a hold-off, a count of ns (R56), moves with the labels. -/
def Chip.tdcStep (c : Chip pt) (d : Int) : Chip pt :=
  (List.range c.tdc.length).foldl (fun c n =>
    let t := (c.tdc[n]?).getD {}
    let c := if t.fifo.isEmpty then c else c.inc (PT.TDC_STATUS_OVF pt) n t.fifo.length
    let c := if t.ss == .idle then c else
      let c := if c.flag (PT.TDC_SSRES_DONE pt) n then c.inc (PT.TDC_SSRES_OVWR pt) n else c
      let c := ((c.wr (PT.TDC_SSRES_DONE pt) 1 n).wr (PT.TDC_SSRES_STATUS pt) 2 n).wr (PT.TDC_SSRES_INTERVAL pt) 0 n
      c.wr (PT.TDC_SS_ARM pt) 0 n
    let c := if t.freq.isNone then c else
      ((c.wr (PT.TDC_FRES_DONE pt) 1 n).wr (PT.TDC_FRES_STATUS pt) 2 n).wr (PT.TDC_FREQ_ARM pt) 0 n
    let moved := t.holdEnd.map (fun h => ((h : Int) + d / 65536).toNat)
    { c with tdc := upd c.tdc n (fun t => { t with fifo := [], ss := .idle, freq := none, holdEnd := moved }) }) c

/-- A step of HT by a signed count of nanoseconds (R126). -/
def Chip.htAdd (c : Chip pt) (d : Int) : Chip pt :=
  let t : Chip pt := c.htMove d
  { t with steps := (t.steps + 1) % 4 }

/-- A step of GT by d, in 2^-32 ns (Elzel: whole ns, HT with it): TIME_STEP with the old and the new GT, then EPOCH_MARK. -/
def Chip.timeStep (c : Chip pt) (d : Int) : Chip pt :=
  let old := c.gtInt
  let c : Chip pt := { c with gt := (((c.gt : Int) + d) % ((2 ^ 96 : Nat) : Int)).toNat }
  let c := match c.part with | .garja => c | .elzel => c.htAdd (d / ((2 ^ 32 : Nat) : Int))
  let c := c.tdcStep d
  let c : Chip pt := { c with ev := { c.ev with era := c.ev.era + 1 } }
  let c := (c.raise (EV.TIME_STEP pt) none none [i64 old, i64 c.gtInt]).latchIrq (match c.part with | .garja => 3 | .elzel => 1)
  c.epochMark

/-- TB_ADJ: a signed count of ns, accepted only with the servo off and no context (Elzel: no job) in use (R32). -/
def Chip.tbAdj (c : Chip pt) (delta : Int) : Chip pt :=
  if c.flag (PT.TB_CTL_SERVO_EN pt) || c.inUse then c.tbIgn else c.timeStep (delta * ((2 ^ 32 : Nat) : Int))

/-! ### Increment and steering -/

/-- The bounds of GJ_TB_INCR (R30). -/
def incrLo : Nat := 0x0FFF2E48F
def incrHi : Nat := 0x1000D1B71

def Chip.incr (c : Chip pt) : Nat := c.rd (PT.TB_INCR_INT pt) * 2 ^ 32 + c.rd (PT.TB_INCR_FRAC pt)
def Chip.setIncr (c : Chip pt) (v : Nat) : Chip pt := (c.wr (PT.TB_INCR_INT pt) (v / 2 ^ 32)).wr (PT.TB_INCR_FRAC pt) (v % 2 ^ 32)

/-- A software write of TB_INCR (R30). -/
def Chip.writeIncr (c : Chip pt) (v : Nat) : Chip pt :=
  let v := v % 2 ^ 36
  if c.flag (PT.TB_CTL_SERVO_EN pt) then c.tbIgn
  else if v < incrLo then (c.setIncr incrLo).tbIgn
  else if v > incrHi then (c.setIncr incrHi).tbIgn
  else c.setIncr v

/-- A software write of TB_STEER (R34): the servo owns PEND while SERVO_EN = 1. -/
def Chip.writeSteer (c : Chip pt) (w : Word) : Chip pt :=
  let c := c.wr (PT.TB_STEER_INTERVAL pt) (bits w 47 40)
  if c.flag (PT.TB_CTL_SERVO_EN pt) then c.tbIgn else c.wr (PT.TB_STEER_PEND pt) (bits w 63 48)

/-- One steering step (R34): one TCLK period is lengthened or shortened by 1/128 ns, and PEND moves one step towards zero.
PHASE and TURNS are the net position in 1/128 ns, wrapping. Nothing happens before INTERVAL periods have passed, or with
PEND zero. -/
def Chip.steerStep (c : Chip pt) : Chip pt :=
  let pend := c.rdS (PT.TB_STEER_PEND pt)
  let iv := max 40 (c.rd (PT.TB_STEER_INTERVAL pt))
  if pend = 0 || decide (c.tb.sinceStep < iv) then c
  else
    let d : Int := if pend > 0 then 1 else -1
    let net := c.rd (PT.TB_STEER_TURNS pt) * 128 + c.rd (PT.TB_STEER_PHASE pt)
    let net' := unsx 32 ((net : Int) + d)
    let c := c.wrS (PT.TB_STEER_PEND pt) (pend - d)
    let c := (c.wr (PT.TB_STEER_TURNS pt) (net' / 128)).wr (PT.TB_STEER_PHASE pt) (net' % 128)
    { c with tb := { c.tb with sinceStep := 0 } }

/-! ### The servo -/

/-- S, one steering step, and one ps in the unit 2^-76 ps of the servo (R123). -/
def stepU : Int := 125 * ((2 ^ 72 : Nat) : Int)
def psU : Int := ((2 ^ 76 : Nat) : Int)

/-- r[k] = THETA − S × PEND, in 2^-76 ps (R123); THETA is in 2^-16 ns. -/
def servoR (theta pend : Int) : Int := theta * 125 * ((2 ^ 63 : Nat) : Int) - pend * stepU

/-- The control law of R123: i, a and the steps added to PEND. A shift of an exact fraction keeps every bit that the shifts
of TS_CTL can reach. -/
def servoLaw (kp ki : Nat) (i a r : Int) : Int × Int × Int :=
  let i1 := i + r / ((2 ^ ki : Nat) : Int)
  let i1 := if i1 > 100 * psU then 100 * psU else if i1 < -(100 * psU) then -(100 * psU) else i1
  let a1 := a + r / ((2 ^ kp : Nat) : Int) + i1
  let n := divNear a1 stepU.toNat
  (i1, a1 - n * stepU, n)

def Chip.runServo (c : Chip pt) (r : Int) : Chip pt :=
  if !c.flag (PT.TB_CTL_SERVO_EN pt) then c
  else
    let (i, a, n) := servoLaw (c.rd (PT.TS_CTL_KP_SHIFT pt)) (c.rd (PT.TS_CTL_KI_SHIFT pt)) c.tb.sI c.tb.sA r
    let c := c.wrS (PT.TB_STEER_PEND pt) (clampS 16 (c.rdS (PT.TB_STEER_PEND pt) + n))
    { c with tb := { c.tb with sI := i, sA := a } }

/-- The slewing of R124 begins or ends. -/
def Chip.slew (c : Chip pt) (r : Int) : Chip pt :=
  if c.flag (PT.TB_CTL_SERVO_EN pt) then { (c.setIncr (if r > 0 then incrLo else incrHi)) with tb := { c.tb with slewing := true } }
  else c
def Chip.unslew (c : Chip pt) : Chip pt :=
  if c.tb.slewing then { (c.setIncr 0x100000000) with tb := { c.tb with slewing := false } } else c

/-- One update in ACQUIRE (R35, R36, R124). -/
def Chip.updateAcquire (c : Chip pt) (r r16 : Int) : Chip pt :=
  if decide (r.natAbs ≥ c.rd (PT.TB_LOCKCFG_STEP_THR pt) * 1000 * psU.toNat) && !c.flag (PT.TB_CTL_NO_STEP pt) && !c.inUse then
    let d := match c.part with
      | .garja => -r16 * 65536
      | .elzel => -(divNear r16 65536) * ((2 ^ 32 : Nat) : Int)
    { (c.unslew.timeStep d) with tb := { c.unslew.tb with inCnt := 0 } }
  else if r.natAbs > c.rd (PT.TS_CTL_ACQ_THR pt) * 1000 * psU.toNat then
    { (c.slew r) with tb := { (c.slew r).tb with inCnt := 0 } }
  else
    let c := c.unslew.runServo r
    if r.natAbs ≤ c.rd (PT.TB_LOCKCFG_LOCK_THR pt) * psU.toNat then
      let c : Chip pt := { c with tb := { c.tb with inCnt := c.tb.inCnt + 1 } }
      if c.tb.inCnt ≥ c.rd (PT.TB_LOCKCFG_LOCK_CNT pt) then
        let c := c.setLock 2 c.input
        if c.flag (PT.TB_CTL_FORCE_HOLD pt) then c.setLock 3 c.input else c
      else c
    else { c with tb := { c.tb with inCnt := 0 } }

/-- One update in LOCKED (R35). -/
def Chip.updateLocked (c : Chip pt) (r : Int) : Chip pt :=
  let c := c.runServo r
  if r.natAbs > c.rd (PT.TB_LOCKCFG_UNLOCK_THR pt) * psU.toNat then
    let c : Chip pt := { c with tb := { c.tb with outCnt := c.tb.outCnt + 1 } }
    if c.tb.outCnt ≥ 4 then c.setLock 1 c.input else c
  else { c with tb := { c.tb with outCnt := 0 } }

/-- A leading root whose servo reached LOCKED on a peer port latches its own phase error and leads again (R134). -/
def Chip.leadAgain (c : Chip pt) : Chip pt :=
  if pt == .elzel && c.isRoot && !c.flag EZ.ROLE_DOMAIN && c.lock == 2 && (c.input == 2 || c.input == 3) then
    let c : Chip pt := { (c.wr EZ.TS_STATUS_LATCHED 1) with ref := { c.ref with latch := c.ref.e } }
    c.setLock 2 7
  else c

/-- One update of the servo: a THETA sample on its input while RANGE_VALID = 1 (R95, R123). -/
def Chip.servoUpdate (c : Chip pt) (p : Nat) (theta : Int) : Chip pt :=
  if c.portInput p != some c.input || !c.rangeValid p then c
  else
    let pend := c.rdS (PT.TB_STEER_PEND pt)
    let r := servoR theta pend
    if c.lock == 1 then (c.updateAcquire r (theta - pend * 512)).leadAgain
    else if c.lock == 2 then c.updateLocked r
    else c

/-! ### Ports and the time base (R35, R95, R130) -/

/-- A port's ranging became valid: FREERUN, or HOLDOVER with FORCE_HOLD = 0, goes to ACQUIRE on it. A leaf's or trunk's input
is the one its selector chose; a following root takes a peer port (R133). -/
def Chip.portValid (c : Chip pt) (p : Nat) : Chip pt :=
  match c.part with
  | .garja =>
    if c.lock == 0 then c.setLock 1 p
    else if c.lock == 3 && !c.flag GJ.TB_CTL_FORCE_HOLD then c.setLock 1 p
    else c
  | .elzel =>
    if c.isRoot then
      match c.portInput p with
      | some i =>
        if c.flag EZ.ROLE_DOMAIN && decide (i ≥ 2) && (c.input < 2 || c.input == 7 || c.lock == 0 || c.lock == 3)
            && !(c.flag EZ.TB_CTL_FORCE_HOLD && c.lock == 3) then c.setLock 1 i else c
      | none => c
    else if c.portInput p == some c.input && (c.lock == 0 || (c.lock == 3 && !c.flag EZ.TB_CTL_FORCE_HOLD)) then c.setLock 1 c.input
    else c

/-- The active port of Garja is lost (R35, R130). -/
def Chip.gjLost (c : Chip pt) (p : Nat) : Chip pt :=
  if c.input != p then c
  else
    let o := 1 - p
    if c.lock == 1 then
      if c.up o && c.rangeValid o then c.setLock 1 o
      else if c.tb.everLocked then c.setLock 3 p else c.setLock 0 p
    else if c.lock == 2 then
      if c.tracked o then c.setLock 2 o
      else if c.up o && c.rangeValid o then c.setLock 1 o
      else c.setLock 3 p
    else c

/-- The input of an Elzel's servo is lost: a following root moves between its peer ports (R130); otherwise HOLDOVER or
FREERUN until the selector chooses another source (R125). -/
def Chip.ezLost (c : Chip pt) (p : Nat) : Chip pt :=
  if c.portInput p != some c.input then c
  else
    let other := if c.input == 2 then 3 else if c.input == 3 then 2 else 7
    if other != 7 && c.lock == 2 && c.tracked other then c.setLock 2 other
    else if other != 7 && (c.lock == 1 || c.lock == 2) && c.rangeValid (c.inputPort other) && c.up (c.inputPort other) then c.setLock 1 other
    else if c.lock == 2 || (c.lock == 1 && c.tb.everLocked) then c.setLock 3 c.input
    else if c.lock == 1 then c.setLock 0 c.input
    else c

/-- The following root loses its last peer port: its phase error is latched as the loop's target and LEADER_LOST is raised
(R134). -/
def Chip.leaderLost (c : Chip pt) : Chip pt :=
  if pt == .elzel && c.isRoot && c.flag EZ.ROLE_DOMAIN && !(c.up 66 && c.rangeValid 66) && !(c.up 67 && c.rangeValid 67)
      && (c.input == 2 || c.input == 3) && !c.flag EZ.TS_STATUS_LATCHED then
    let c : Chip pt := { c with ref := { c.ref with latch := c.ref.e } }
    ((c.wr EZ.TS_STATUS_LATCHED 1).raise EV.LEADER_LOST none none []).latchIrq 4
  else c

/-- A port is lost to the time base: it leaves UP or its RANGE_VALID clears (R95). -/
def Chip.portLost (c : Chip pt) (p : Nat) : Chip pt :=
  match c.part with
  | .garja => if p < 2 then c.gjLost p else c
  | .elzel => (c.ezLost p).leaderLost

/-- R130, second case: in LOCKED, the active port's FAR_LOCK is HOLDOVER and the other port is tracked with LOCKED. -/
def Chip.preferLocked (c : Chip pt) : Chip pt :=
  if pt == .garja && c.lock == 2 && c.farLock c.input == 3 && c.tracked (1 - c.input) && c.farLock (1 - c.input) == 2
  then c.setLock 2 (1 - c.input) else c

/-- One sample of THETA filtered for an input (R129), and the split of an alternative input (R132). -/
def Chip.trackSample (c : Chip pt) (p : Nat) (theta : Int) : Chip pt :=
  match c.portInput p with
  | none => c
  | some i =>
    let sh := c.rd (PT.TS_CTL_TRK_SHIFT pt)
    let t := c.track i
    let t := { t with num := t.num * (((2 ^ sh : Nat) : Int) - 1) + theta * ((2 ^ t.exp : Nat) : Int), exp := t.exp + sh }
    let c := if c.rangeValid p then c.inc (PT.TS_TRACK_SAMPLES pt) i else c
    let above := t.above (c.rd (PT.TS_CTL_SPLIT_THR pt))
    if i == c.input then { c with tracks := upd c.tracks i (fun _ => t) }
    else
      let was := t.split
      let c : Chip pt := { c with tracks := upd c.tracks i (fun _ => { t with split := above || (was && !t.below (c.rd (PT.TS_CTL_SPLIT_THR pt))) }) }
      if above && !was then
        let c := match c.part with | .garja => c.inc GJ.TS_STATUS_SPLITS | .elzel => c
        c.raise (EV.DOMAIN_SPLIT pt) none none [i8 p, s64 (divNear t.num (2 ^ t.exp)), i8 c.lock]
      else c

/-! ### CLKFIX (R47) -/

/-- Any accounting window is open. -/
def Chip.anyWindow (c : Chip pt) : Bool :=
  c.regs.any (fun e => decide (0x2400 ≤ e.1) && decide (e.1 < 0x2600) && bit e.2 62)

/-- GJ_CLKFIX driven at v: the next launch is held for SETTLE ns. -/
def Chip.driveClkfix (c : Chip pt) (v : Bool) : Chip pt :=
  if c.flag GJ.TB_STATUS_CLKFIX_ACT == v then { c with tb := { c.tb with clkfixWait := none } }
  else { (c.wr GJ.TB_STATUS_CLKFIX_ACT (b2n v)) with
    tb := { c.tb with clkfixWait := none, settleUntil := c.now + c.rd GJ.RGN_CTL_SETTLE } }

/-- GJ_TB_CTL.CLKFIX set: the pin follows while no accounting window is open. -/
def Chip.setClkfix (c : Chip pt) (v : Bool) : Chip pt :=
  let c := c.wr GJ.TB_CTL_CLKFIX (b2n v)
  if c.anyWindow then { c with tb := { c.tb with clkfixWait := some v } } else c.driveClkfix v

/-- The change that waits for the windows takes place when the last of them has closed. -/
def Chip.clkfixAfterWindow (c : Chip pt) : Chip pt :=
  match c.tb.clkfixWait with
  | some v => if c.anyWindow then c else c.driveClkfix v
  | none => c

/-- A direct write of GJ_TB_CTL.CLKFIX (R47). -/
def Chip.writeClkfix (c : Chip pt) (v : Bool) : Chip pt :=
  if c.flag GJ.TB_CTL_CLKFIX == v then c else if c.anyCtx then c.tbIgn else c.setClkfix v

/-- A write of TB_CTL.FORCE_HOLD (R35). -/
def Chip.writeForceHold (c : Chip pt) (v : Bool) : Chip pt :=
  let c := c.wr (PT.TB_CTL_FORCE_HOLD pt) (b2n v)
  if v then (if c.lock == 2 then c.setLock 3 c.input else c)
  else if c.lock == 3 then
    match c.part with
    | .garja =>
      let a := if c.input == 1 then 1 else 0
      if c.up a && c.rangeValid a then c.setLock 1 a else if c.up (1 - a) && c.rangeValid (1 - a) then c.setLock 1 (1 - a) else c
    | .elzel => if c.up (c.inputPort c.input) && c.rangeValid (c.inputPort c.input) then c.setLock 1 c.input else c
  else c

/-! ### Time passing -/

/-- HOLD_TIME in µs, saturating; 0 outside HOLDOVER. -/
def Chip.holdTime (c : Chip pt) : Nat := if c.lock == 3 then satU 32 ((c.now - c.tb.holdSince) / 1000) else 0
/-- EFF_TIME in µs (R118). -/
def Chip.effTime (c : Chip pt) : Nat := satU 32 (c.tb.effNs / 1000)

/-- n nanoseconds of local time pass in HOLDOVER, or with the active port's FAR_LOCK in HOLDOVER (R118). -/
def Chip.passEff (c : Chip pt) (n : Nat) : Chip pt :=
  if pt == .garja && (c.lock == 3 || (c.farLock c.input == 3)) then { c with tb := { c.tb with effNs := c.tb.effNs + n } } else c

/-- The increment of one GJ_REFCLK edge in BURROW (R38): 6.4 ns scaled by the measured ratio, in 2^-32 ns; 0x6_6666_6666
nominal. -/
def Chip.burrowIncr (c : Chip pt) : Nat :=
  let r := c.tb.ratioFrozen
  ((0x666666666 : Int) * 65536000000000 / (65536000000000 + r)).toNat

/-- HT at a TCLK edge (R126): the increment added, and at 10^9 ns the seconds carried. -/
def Chip.htEdge (c : Chip pt) (inc : Nat) : Chip pt × Bool :=
  let f := c.htFrac + inc % 2 ^ 32
  let ns := c.htNs + inc / 2 ^ 32 + f / 2 ^ 32
  if ns ≥ 1000000000 then
    ({ c with htFrac := f % 2 ^ 32, htNs := ns - 1000000000, htSec := (c.htSec + 1) % 2 ^ 48 }, true)
  else ({ c with htFrac := f % 2 ^ 32, htNs := ns }, false)

/-- The ports that an Elzel initiates: its downstream ports, and the peer ports of domain A (R90). -/
def Chip.initiates (c : Chip pt) (p : Nat) : Bool :=
  match c.part with
  | .garja => false
  | .elzel => decide (p < 64) || (decide (p ≥ 66) && !c.flag EZ.ROLE_DOMAIN)

/-- The check at a carry (R128): GT against HT, reload, HT_CARRY_FAULT and RANGE_VALID cleared on initiated ports. -/
def Chip.carryCheck (c : Chip pt) : Chip pt :=
  let want := (c.htSec * 1000000000 + c.htNs) % 2 ^ 64
  if c.gtInt = want then c
  else
    let old := c.gtInt
    let c : Chip pt := { c with gt := want * 2 ^ 32 + c.htFrac }
    let c := (c.raise EV.HT_CARRY_FAULT none none [i64 old, i64 want]).latchIrq 3
    (List.range 68).foldl (fun c p =>
      if c.initiates p && c.rangeValid p then (c.wr EZ.SL_STATUS_RANGE_VALID 0 p).portLost p else c) c

/-- One TCLK edge of a part (R30, R126). -/
def Chip.tclk (c : Chip pt) : Chip pt :=
  let inc := c.incr
  let c : Chip pt := { c with gt := (c.gt + inc) % 2 ^ 96, now := c.now + 1, tb := { c.tb with sinceStep := c.tb.sinceStep + 1 } }
  match c.part with
  | .garja => c.passEff 1
  | .elzel => match c.htEdge inc with
    | (c, true) => c.carryCheck
    | (c, false) => c

/-- The edge of the clock that keeps a part's time: TCLK; in BURROW one GJ_REFCLK edge of 6.4 ns (R38), local time counted in
whole ns; in DEN_ONLY one OCXO edge of 100 ns scaled by the frozen trim (R316). -/
def Chip.edge (c : Chip pt) : Chip pt :=
  match c.pw.st with
  | .burrow =>
    let c : Chip pt := { c with gt := (c.gt + c.burrowIncr) % 2 ^ 96, now := c.now + 6 }
    c.passEff 6
  | .denOnly =>
    let inc := (((100 * 2 ^ 32 : Nat) : Int) + ((100 * 2 ^ 32 : Nat) : Int) * c.pw.trimFrozen / 65536000000000).toNat
    let c : Chip pt := { c with gt := (c.gt + inc) % 2 ^ 96, now := c.now + 100 }
    match c.htEdge inc with
    | (c, true) => c.carryCheck
    | (c, false) => c
  | _ => c.tclk

/-! ### Meanings -/

/-- GT_READ (R51): the fraction of the same edge is copied into GJ_TB_FRAC. The value read is the answer's GT. -/
def execGtRead (s : State) : Out :=
  .next (s.onReg .garja (fun c => c.wr GJ.TB_FRAC_FRAC (c.gt % 2 ^ 32)))

/-- HT_SEC_READ (R127): the nanoseconds and fraction of the same edge are copied into EZ_HT_NS. -/
def execHtSecRead (s : State) : Out :=
  .next (s.onChip .elzel (fun c => (c.wr EZ.HT_NS_NS c.htNs).wr EZ.HT_NS_FRAC c.htFrac))

/-- TB_ADJ_WRITE (R32, R126). -/
def execTbAdjWrite (u : Part) (delta : Word) (s : State) : Out := .next (s.onReg u (·.tbAdj delta.toInt))

/-- TB_INCR_WRITE (R30). -/
def execTbIncrWrite (u : Part) (data : Word) (s : State) : Out := .next (s.onReg u (·.writeIncr data.toNat))

/-- TB_STEER_WRITE (R34). -/
def execTbSteerWrite (u : Part) (data : Word) (s : State) : Out := .next (s.onReg u (·.writeSteer data))

/-- STEER_STEP (R34). -/
def execSteerStep (u : Part) (s : State) : Out := .next (s.onChip u Chip.steerStep)

/-- FORCE_HOLD_WRITE (R35). -/
def execForceHoldWrite (u : Part) (v : Bool) (s : State) : Out := .next (s.onReg u (·.writeForceHold v))

/-- CLKFIX_WRITE (R47). -/
def execClkfixWrite (v : Bool) (s : State) : Out := .next (s.onReg .garja (·.writeClkfix v))

/-- SERVO_UPDATE (R123 to R125, R35, R36). An offset beyond 2^31 ns is completed by what TICKs with HI = 1 showed (R93). -/
def execServoUpdate (u : Part) (p : BitVec 7) (theta : BitVec 48) (s : State) : Out :=
  .next (s.onChip u (fun c => c.servoUpdate p.toNat (theta.toInt + (c.link p.toNat).ext * ((2 ^ 48 : Nat) : Int))))

/-- EPOCH_MARK (R40): GT integer bits 28:0 are zero at this edge, and no EPOCH_MARK has been emitted for it. -/
def execEpochMark (u : Part) (s : State) : Out :=
  .next (s.onChip u (fun c =>
    if c.gtInt % 2 ^ 29 = 0 && c.tb.markAt != some c.gtInt then
      { c.epochMark with tb := { c.epochMark.tb with markAt := some c.gtInt } } else c))

/-- HOLD_EXPIRED (R35): HOLD_TIME has passed HOLD_LIMIT, so HOLDOVER ends in FREERUN. -/
def execHoldExpired (u : Part) (s : State) : Out :=
  .next (s.onChip u (fun c =>
    if c.lock == 3 && decide (c.holdTime > c.rd (PT.TB_LOCKCFG_HOLD_LIMIT u) * 1000) then
      (c.setLock 0 c.input).raise (EV.HOLD_EXPIRED u) none none [] else c))

/-- REFCLK_MEASURE (R117): a window of 2^27 ns completes while LOCKED. -/
def execRefclkMeasure (ratio : BitVec 32) (s : State) : Out :=
  .next (s.onChip .garja (fun c =>
    if c.lock == 2 then (c.wr GJ.TB_REFMEAS_VALID 1).wr GJ.TB_REFMEAS_RATIO ratio.toNat else c))

/-- HOLD_PAUSE (R118): EFF_TIME exceeds the context's budget; PAUSED is set and HOLD_PAUSE raised once. -/
def execHoldPause (ctx : BitVec 8) (s : State) : Out :=
  .next (s.onChip .garja (fun c =>
    let x := ctx.toNat
    if decide (c.effTime > c.rd GJ.HOLD_BUDGET_BUDGET x) && !c.flag GJ.HOLD_BUDGET_PAUSED x then
      ((c.wr GJ.HOLD_BUDGET_PAUSED 1 x).raise EV.HOLD_PAUSE (some x) (some (c.rd GJ.SQ_CTX_STATE_STEP x))
        [i32 c.effTime]).latchIrq 8
    else c))

/-- GPLL_LOCK_LOSS (R29): GPLL_LOCK clears and the loss is counted. Elzel has no such register; its EPLL is kept by the
clean-up loop. -/
def execGpllLockLoss (u : Part) (s : State) : Out :=
  match u with
  | .garja => .next (s.onChip .garja (fun c =>
      if c.flag GJ.CLK_STATUS_GPLL_LOCK then (c.wr GJ.CLK_STATUS_GPLL_LOCK 0).inc GJ.CLK_STATUS_RELOCK_CNT else c))
  | .elzel => .next s

/-- HT_CARRY (R128): the TCLK edge of Elzel at which HT nanoseconds reach 10^9. -/
def execHtCarry (s : State) : Out :=
  .next (s.onChip .elzel (fun c => if (c.htEdge c.incr).2 then c.tclk else c))

end Sys2Proof.Machine
end

