-- ==== Sys2Proof/Machine/Tdc.lean ====
section
/-!
DEFINITION. Sys2Proof/Machine/Tdc.lean: the edge interpolator (03): stamps, stamp queues, calibration, intervals and frequency.
-/
namespace Sys2Proof.Machine

variable {pt : Part}

def Chip.tdcAt (c : Chip pt) (n : Nat) : Tdc := (c.tdc[n]?).getD {}
def Chip.onTdc (c : Chip pt) (n : Nat) (f : Tdc → Tdc) : Chip pt := { c with tdc := upd c.tdc n f }

/-- A channel runs: EN = 1 and the GPLL is not stopped (R72). -/
def Chip.tdcOn (c : Chip pt) (n : Nat) : Bool :=
  c.flag (PT.TDC_CTL_EN pt) n && c.pw.st != .burrow && c.pw.st != .denOnly

/-- Software owns a channel: Garja's channels 2 and 3 (R68); none of Elzel's (R69). -/
def Chip.tdcSoft (c : Chip pt) (n : Nat) : Bool := pt == .garja && (n == 2 || n == 3)

/-! ### Bin tables (R52, R60) -/

/-- The width of a code in 2^-16 ns: h × 2^18 / (13 n), rounded to the nearest, ties up. -/
def binWidth (h log2n : Nat) : Nat := (h * 2 ^ 18 * 2 + 13 * 2 ^ log2n) / (2 * (13 * 2 ^ log2n))
/-- The centre of a code: (2 × below + h) × 2^17 / (13 n). -/
def binCentre (below h log2n : Nat) : Nat := ((2 * below + h) * 2 ^ 17 * 2 + 13 * 2 ^ log2n) / (2 * (13 * 2 ^ log2n))

def TdcTable.valid (t : TdcTable) : Bool := !t.hits.isEmpty
def TdcTable.width (t : TdcTable) (f : Nat) : Nat := binWidth (t.hits.getD f 0) t.log2n
def TdcTable.centre (t : TdcTable) (f : Nat) : Nat := binCentre ((t.hits.take f).sum) (t.hits.getD f 0) t.log2n

/-- CENTRE_f of the live line in units of 2^-16 ns / 192; the uniform table of R62 has bins of 2^18 / (13 × 96). -/
def Tdc.live (t : Tdc) (y : Bool) : TdcTable := if y then t.tabY else t.tabX

/-- Why a calibration fails (R60): 1 DLL, 2 MISSING, 3 WIDE, 4 SLOW, in the order of the manual's procedure; 0 when it
succeeds. -/
def calReason (hits : List Nat) (log2n : Nat) (locked inTime : Bool) : Nat :=
  if !locked then 1
  else if (List.range 90).any (fun f => hits.getD f 0 == 0) then 2
  else if (List.range 96).any (fun f => decide (binWidth (hits.getD f 0) log2n > 524)) then 3
  else if !inTime then 4
  else 0

/-- log2 of the edges per calibration, 20 to 24 (values outside act as the nearer bound). -/
def Chip.calLog2n (c : Chip pt) : Nat := min 24 (max 20 (c.rd (PT.TDC_CAL_LOG2N pt)))

/-! ### Stamps (R53, R54) -/

/-- The stamp of an edge in 2^-16 ns: t = t_s − CENTRE − DELAY placed between the two TCLK edges. Units of the intermediate
are 1/106,496,000 ns, in which 1/1664 ns, 2^-16 ns and 1 ps are whole; the uniform centre (2 f + 1) × 2^17 / (13 × 96) is
formed exactly over 624. Rounded to the nearest. -/
def Chip.stampOf (c : Chip pt) (n : Nat) (e : TdcEdge) : Nat :=
  let t := c.tdcAt n
  let tab := t.live (c.flag (PT.TDC_STATUS_LIVE pt) n)
  let f := e.code.toNat
  let centre624 : Nat := if tab.valid then tab.centre f * 624 else (2 * f + 1) * 2 ^ 16
  let num : Int := (e.ts.toNat * 64000 * 624 : Nat) - (centre624 * 1625 : Nat) - (c.rd (PT.TDC_CTL_DELAY pt) n * 106496 * 624 : Nat)
  let den : Nat := e.period.toNat * 832000 * 624
  let base : Int := (e.gtN.toNat * 2 ^ 32 + e.fracN.toNat : Nat)
  let total : Int := base * (den : Int) + (c.incr : Int) * num
  (divNear total (den * 65536)).toNat

/-- A result of an interval (R63 to R65). -/
def Chip.ssResult (c : Chip pt) (n status interval : Nat) : Chip pt :=
  let c := if c.flag (PT.TDC_SSRES_DONE pt) n then c.inc (PT.TDC_SSRES_OVWR pt) n else c
  let c := ((c.wr (PT.TDC_SSRES_DONE pt) 1 n).wr (PT.TDC_SSRES_STATUS pt) status n).wr (PT.TDC_SSRES_INTERVAL pt) interval n
  if c.flag (PT.TDC_SS_REPEAT pt) n && status != 2 then c else c.wr (PT.TDC_SS_ARM pt) 0 n

/-- A frequency measurement ends with a status other than OK (R67). -/
def Chip.freqEnd (c : Chip pt) (n status : Nat) : Chip pt :=
  let c := ((c.wr (PT.TDC_FRES_DONE pt) 1 n).wr (PT.TDC_FRES_STATUS pt) status n).wr (PT.TDC_FREQ_ARM pt) 0 n
  c.onTdc n (fun t => { t with freq := none })

/-- TIMEOUT in ns, at least 1,000 (R64). -/
def Chip.ssTimeoutNs (c : Chip pt) (n : Nat) : Nat := max 1000 (c.rd (PT.TDC_SS_TIMEOUT pt) n)

/-- An accepted edge on channel `n` seen by the interval of channel `m` (R63 to R65). -/
def Chip.ssEdge (c : Chip pt) (m n st : Nat) : Chip pt :=
  let stop := c.rd (PT.TDC_SS_STOP pt) m
  match (c.tdcAt m).ss with
  | .idle => c
  | .waitStart => if m == n then c.onTdc m (fun t => { t with ss := .waitStop st }) else c
  | .waitStop start =>
    if n == stop && decide (st ≥ start) then
      let c := c.ssResult m 0 (st - start)
      let next : SsState :=
        if c.flag (PT.TDC_SS_REPEAT pt) m then (if stop == m then .waitStop st else .waitStart) else .idle
      c.onTdc m (fun t => { t with ss := next })
    else c

/-- M and D of a frequency measurement, at their nearer bounds (R66). -/
def Chip.freqM (c : Chip pt) (n : Nat) : Nat := min 1048576 (max 3 (c.rd (PT.TDC_FREQ_M pt) n))
def Chip.freqD (c : Chip pt) (n : Nat) : Nat := max 1 (c.rd (PT.TDC_FREQ_D pt) n)

/-- The period T of the fit in 2^-32 ns, rounded to the nearest (R66): b = 6 Σ (2k − M + 1) t_k / (M (M² − 1)), T = b / D. -/
def freqPeriod (m d sumKT sumT : Nat) : Nat :=
  let s : Int := 2 * (sumKT : Int) - ((m : Int) - 1) * (sumT : Int)
  (divNear (6 * s * 65536) (m * (m * m - 1) * d)).toNat

/-- An edge counted by the frequency measurement of its channel (R66, R67). The rms residual is a free value of the fit. -/
def Chip.freqEdge (c : Chip pt) (n st : Nat) : Chip pt :=
  match (c.tdcAt n).freq with
  | none => c
  | some f =>
    if f.k ≠ 0 && decide (f.edges + 1 < c.freqD n) then c.onTdc n (fun t => { t with freq := some { f with edges := f.edges + 1 } })
    else if f.k ≠ 0 && decide (st - f.last < 4 * 65536) then c.freqEnd n 2
    else if f.k ≠ 0 && decide (st - f.last > c.ssTimeoutNs n * 65536) then c.freqEnd n 1
    else
      let t0 := if f.k = 0 then st else f.t0
      let x := st - t0
      let f := { f with edges := 0, k := f.k + 1, t0 := t0, last := st, sumT := f.sumT + x, sumKT := f.sumKT + f.k * x, sumTT := f.sumTT + x * x }
      if f.k ≥ c.freqM n then
        let t := freqPeriod f.k (c.freqD n) f.sumKT f.sumT
        let c := (c.wr (PT.TDC_FPER_INT pt) (t / 2 ^ 32) n).wr (PT.TDC_FPER_FRAC pt) (t % 2 ^ 32) n
        let c := c.wr (PT.TDC_FRES_RESID pt) (Config.freqResid f.k f.sumT f.sumKT f.sumTT).toNat n
        c.freqEnd n 0
      else c.onTdc n (fun t => { t with freq := some f })

/-- A record written to the queue and, with POST, as TDC_EDGE (R57). -/
def Chip.tdcRecord (c : Chip pt) (n st : Nat) (falling : Bool) : Chip pt :=
  let w := w64 (2 ^ 63 + b2n falling * 2 ^ 62 + b2n (c.lock == 2) * 2 ^ 61 + b2n (c.flag (PT.TDC_STATUS_UNCAL pt) n) * 2 ^ 60
    + (st / 65536 % 2 ^ 40) * 65536 + st % 65536)
  let c := if c.flag (PT.TDC_CTL_NOFIFO pt) n then c
    else if (c.tdcAt n).fifo.length ≥ 16 then c.inc (PT.TDC_STATUS_OVF pt) n
    else c.onTdc n (fun t => { t with fifo := t.fifo ++ [(w, st / 65536)] })
  if c.flag (PT.TDC_CTL_POST pt) n then c.raise (EV.TDC_EDGE pt) none none [i8 n, i64 w.toNat] else c

/-- The edge is of the polarity that EDGE selects (R56). -/
def Chip.polarityOk (c : Chip pt) (n : Nat) (falling : Bool) : Bool :=
  let e := c.rd (PT.TDC_CTL_EDGE pt) n
  e == 2 || (e == 0 && !falling) || (e == 1 && falling)

/-- An input edge (R53, R56): dropped within the hold-off, stamped after it; within one DCLK period (20,165/65,536 ns and a
fraction) of its end, either. -/
def Chip.tdcEdge (c : Chip pt) (n : Nat) (e : TdcEdge) : Chip pt :=
  if !c.tdcOn n || !c.polarityOk n e.falling then c
  else
    let st := c.stampOf n e
    let drop := match (c.tdcAt n).holdEnd with
      | none => false
      | some h =>
        if 13 * st + 2 ^ 18 < 13 * h then true
        else if 13 * st < 13 * h + 2 ^ 18 then Config.tdcNearHoldoff c.free
        else false
    let c : Chip pt := { c with free := c.free + 1 }
    let c := c.freqEdge n st
    if drop then c.inc (PT.TDC_STATUS_DROP pt) n
    else
      let hold := max 1 (c.rd (PT.TDC_CTL_HOLDOFF pt) n)
      let c := c.onTdc n (fun t => { t with holdEnd := some (st + hold * 65536) })
      let c := c.tdcRecord n st e.falling
      (List.range c.tdc.length).foldl (fun c m => if (c.tdcAt m).ss == .idle then c else c.ssEdge m n st) c

/-- A calibration of the idle line starts, unless one runs (R59). -/
def Chip.calStart (c : Chip pt) (n : Nat) : Chip pt :=
  if !c.tdcOn n || c.flag (PT.TDC_STATUS_CALIB pt) n then c else c.wr (PT.TDC_STATUS_CALIB pt) 1 n

/-- Armed measurements of a channel end with DONE_ABORT: its own, and the interval that stops on it (R64, R67). -/
def Chip.tdcAbort (c : Chip pt) (n : Nat) : Chip pt :=
  let c := (List.range c.tdc.length).foldl (fun c m =>
    if (c.tdcAt m).ss == .idle then c
    else if m == n || c.rd (PT.TDC_SS_STOP pt) m == n then
      (c.ssResult m 2 0).onTdc m (fun t => { t with ss := .idle })
    else c) c
  if (c.tdcAt n).freq.isSome then c.freqEnd n 2 else c

/-- A channel's EN cleared (R72): the queue stays readable. -/
def Chip.tdcDisable (c : Chip pt) (n : Nat) : Chip pt :=
  ((c.wr (PT.TDC_CTL_EN pt) 0 n).wr (PT.TDC_STATUS_CALIB pt) 0 n).tdcAbort n

/-- A channel's EN set: a calibration starts (R59). -/
def Chip.tdcEnable (c : Chip pt) (n : Nat) : Chip pt := (c.wr (PT.TDC_CTL_EN pt) 1 n).calStart n

/-- Whether the requester may arm measurements of a channel: only its owner (R70). -/
def Chip.mayArm (c : Chip pt) (n : Nat) : Bool := c.tdcSoft n

/-- A write of TDC_SS_n (R63, R64, R67, R70). -/
def Chip.ssWrite (c : Chip pt) (n : Nat) (w : Word) : Chip pt :=
  if !c.mayArm n || (bit w 63 && c.flag (PT.TDC_FREQ_ARM pt) n) then c.inc (PT.TDC_STATUS_WRIGN pt) n
  else
    let was := c.flag (PT.TDC_SS_ARM pt) n
    let c := ((c.wr (PT.TDC_SS_REPEAT pt) (bits w 62 62) n).wr (PT.TDC_SS_STOP pt)
      (match c.part with | .garja => bits w 59 58 | .elzel => bits w 59 53) n).wr (PT.TDC_SS_TIMEOUT pt) (bits w 31 0) n
    if bit w 63 then
      if was then c else (c.wr (PT.TDC_SS_ARM pt) 1 n).onTdc n (fun t => { t with ss := .waitStart })
    else if was then ((c.ssResult n 2 0).wr (PT.TDC_SS_ARM pt) 0 n).onTdc n (fun t => { t with ss := .idle })
    else c

/-- A write of TDC_FREQ_n (R66, R67, R70). -/
def Chip.freqWrite (c : Chip pt) (n : Nat) (w : Word) : Chip pt :=
  if !c.mayArm n || (bit w 63 && c.flag (PT.TDC_SS_ARM pt) n) then c.inc (PT.TDC_STATUS_WRIGN pt) n
  else
    let was := c.flag (PT.TDC_FREQ_ARM pt) n
    let c := (c.wr (PT.TDC_FREQ_M pt) (bits w 60 40) n).wr (PT.TDC_FREQ_D pt) (bits w 39 24) n
    if bit w 63 then
      if was then c
      else (c.wr (PT.TDC_FREQ_ARM pt) 1 n).onTdc n (fun t => { t with freq := some ⟨0, 0, 0, 0, 0, 0, 0⟩ })
    else if was then c.freqEnd n 2 else c

/-- A write of TDC_CTL_n: on an owned channel only POST and NOFIFO are software's (R70). -/
def Chip.tdcCtlWrite (c : Chip pt) (n : Nat) (w : Word) : Chip pt :=
  let old := c.get ((PT.TDC_CTL_EN pt).off + 0x40 * n)
  let c := (c.wr (PT.TDC_CTL_POST pt) (bits w 44 44) n).wr (PT.TDC_CTL_NOFIFO pt) (bits w 43 43) n
  if c.tdcSoft n then
    let c := ((((c.wr (PT.TDC_CTL_EDGE pt) (bits w 62 61) n).wr (PT.TDC_CTL_HYST pt) (bits w 60 59) n).wr
      (PT.TDC_CTL_VTH pt) (bits w 58 53) n).wr (PT.TDC_CTL_HOLDOFF pt) (bits w 52 45) n).wr (PT.TDC_CTL_DELAY pt) (bits w 42 31) n
    if bit w 63 then (if bit old 63 then c else c.tdcEnable n) else if bit old 63 then c.tdcDisable n else c
  else if bits w 63 45 != bits old 63 45 || bits w 42 31 != bits old 42 31 then c.inc (PT.TDC_STATUS_WRIGN pt) n
  else c

/-! ### Meanings -/

/-- TDC_EDGE (R53 to R57, R63, R66, R71). -/
def execTdcEdge (u : Part) (ch : BitVec 7) (e : TdcEdge) (s : State) : Out := .next (s.onCh u ch.toNat (·.tdcEdge ch.toNat e))

/-- STAMP_AGE_DISCARD (R57): the oldest record has waited 2^39 ns. -/
def execStampAgeDiscard (u : Part) (ch : BitVec 7) (s : State) : Out :=
  .next (s.onCh u ch.toNat (fun c =>
    match (c.tdcAt ch.toNat).fifo with
    | (_, st) :: rest =>
      if c.gtInt ≥ st + 2 ^ 39 then (c.inc (PT.TDC_STATUS_OVF u) ch.toNat).onTdc ch.toNat (fun t => { t with fifo := rest }) else c
    | [] => c))

/-- TDC_FIFO_READ (R57): the oldest record is removed; the register holds what the read returned. -/
def Chip.fifoRead (c : Chip pt) (n : Nat) : Chip pt × Word :=
  match (c.tdcAt n).fifo with
  | (w, _) :: rest => (c.onTdc n (fun t => { t with fifo := rest }), w)
  | [] => (c, 0)

def execTdcFifoRead (u : Part) (ch : BitVec 7) (s : State) : Out :=
  .next (s.onChReg u ch.toNat (fun c => (c.fifoRead ch.toNat).1))

/-- CALIBRATION_START (R59): the channel was enabled, PERIOD seconds passed, the DLL code moved by DLL_THR, or the GPLL restarted.
The DLL control word is the one that the command names. -/
def execCalibrationStart (u : Part) (ch : BitVec 7) (dllCode : BitVec 10) (s : State) : Out :=
  .next (s.onCh u ch.toNat (fun c =>
    ((c.wr (PT.TDC_CAL_DLL_CODE u) dllCode.toNat).wr (PT.TDC_CAL_DLL_LOCK u) 1).calStart ch.toNat))

/-- TDC_CAL_FORCE (R59). -/
def Chip.calForce (c : Chip pt) : Chip pt :=
  (List.range c.nCh).foldl (fun c n => if c.flag (PT.TDC_CTL_EN pt) n then c.calStart n else c) c

def execTdcCalForce (u : Part) (s : State) : Out := .next (s.onReg u Chip.calForce)

/-- CALIBRATION_DONE (R60, R61): a calibration that succeeds waits for its swap; one that fails is counted and raised. -/
def execCalibrationDone (u : Part) (ch : BitVec 7) (hits : List (BitVec 24)) (locked inTime : Bool) (s : State) : Out :=
  .next (s.onCh u ch.toNat (fun c =>
    let n := ch.toNat
    if !c.flag (PT.TDC_STATUS_CALIB u) n then c
    else
      let h := hits.map (·.toNat)
      let r := calReason h c.calLog2n locked inTime
      let y := c.flag (PT.TDC_STATUS_LIVE u) n
      let c := c.wr (PT.TDC_STATUS_CALIB u) 0 n
      if r = 0 then
        c.onTdc n (fun t => { t with newTab := some { hits := h, log2n := c.calLog2n } })
      else
        let c := c.onTdc n (fun t => if y then { t with tabX := {} } else { t with tabY := {} })
        let c := (c.inc (PT.TDC_STATUS_CALFAIL u) n).wr (PT.TDC_STATUS_REASON u) r n
        c.raise (EV.TDC_CAL_FAIL u) none none [i8 n, i8 (b2n (!y)), i8 r]))

/-- LINE_SWAP (R62): at the first DCLK edge with no edge in either line the calibrated line becomes live with its new table. -/
def execLineSwap (u : Part) (ch : BitVec 7) (s : State) : Out :=
  .next (s.onCh u ch.toNat (fun c =>
    let n := ch.toNat
    match (c.tdcAt n).newTab with
    | none => c
    | some tab =>
      let y := c.flag (PT.TDC_STATUS_LIVE u) n
      let c := (c.wr (PT.TDC_STATUS_LIVE u) (b2n (!y)) n).wr (PT.TDC_STATUS_UNCAL u) 0 n
      let code := c.rd (PT.TDC_CAL_DLL_CODE u)
      c.onTdc n (fun t =>
        let t := { t with newTab := none, madeAt := c.now, madeCode := code }
        if y then { t with tabX := tab } else { t with tabY := tab })))

/-- TDC_DISABLE (R72). -/
def execTdcDisable (u : Part) (ch : BitVec 7) (s : State) : Out := .next (s.onChReg u ch.toNat (·.tdcDisable ch.toNat))

/-- SS_ARM_WRITE (R63, R64, R67, R70). -/
def execSsArmWrite (u : Part) (ch : BitVec 7) (_r : Requester) (data : Word) (s : State) : Out :=
  .next (s.onChReg u ch.toNat (·.ssWrite ch.toNat data))

/-- SS_TIMEOUT (R64): no stop within TIMEOUT of the start. -/
def execSsTimeout (u : Part) (ch : BitVec 7) (s : State) : Out :=
  .next (s.onCh u ch.toNat (fun c =>
    let n := ch.toNat
    match (c.tdcAt n).ss with
    | .waitStop start =>
      if c.gtInt * 65536 ≥ start + c.ssTimeoutNs n * 65536 then
        let c := c.ssResult n 1 0
        c.onTdc n (fun t => { t with ss := if c.flag (PT.TDC_SS_ARM u) n then .waitStart else .idle })
      else c
    | _ => c))

/-- FREQ_ARM_WRITE (R66, R67, R70). -/
def execFreqArmWrite (u : Part) (ch : BitVec 7) (_r : Requester) (data : Word) (s : State) : Out :=
  .next (s.onChReg u ch.toNat (·.freqWrite ch.toNat data))

/-- FREQ_TIMEOUT (R67): the gap after the last sample exceeds TIMEOUT. -/
def execFreqTimeout (u : Part) (ch : BitVec 7) (s : State) : Out :=
  .next (s.onCh u ch.toNat (fun c =>
    let n := ch.toNat
    match (c.tdcAt n).freq with
    | some f => if f.k ≠ 0 && decide (c.gtInt * 65536 > f.last + c.ssTimeoutNs n * 65536) then c.freqEnd n 1 else c
    | none => c))

/-- EVT_IN_EDGE_LATCH (R330): an edge of the polarity of GJ_TDC_CTL_n.EDGE on GJ_EVT_IN latches source 10 or 11; in a low
power state, with its enable, it wakes the die (R310). -/
def execEvtInEdgeLatch (pin : BitVec 1) (falling : Bool) (s : State) : Out :=
  .next (s.onDen .garja (fun c =>
    let n := 2 + pin.toNat
    if !c.polarityOk n falling then c
    else
      let c := c.latchIrq (10 + pin.toNat)
      if (if pin == 0 then c.flag GJ.PST_WAKE_EVT0 else c.flag GJ.PST_WAKE_EVT1) then c.wake 7 else c))

end Sys2Proof.Machine
end

