-- ==== Sys2Proof/Machine/Link.lean ====
section
/-!
DEFINITION. Sys2Proof/Machine/Link.lean: the step link (04): training, blocks, CRC and resend, credits, ranging, loss; and the
meanings of its commands. A block is given as seven payload flits and a trailer; coding and scrambling of the line are not
state.
-/
namespace Sys2Proof.Machine

variable {pt : Part}

/-! ### Ports -/

/-- The role uses the port (R10). Both ports of a Garja are used. -/
def Chip.portUsed (c : Chip pt) (p : Nat) : Bool :=
  match c.part with
  | .garja => decide (p < 2)
  | .elzel =>
    c.rd EZ.ROLE_ROLE != 0 && decide (p < 68) && (decide (p < 64) || decide (p ≥ 66) || !c.isRoot)

/-- The port is the cross uplink or a peer port, which carry only time and management (R11). -/
def Chip.portTimeOnly (c : Chip pt) (p : Nat) : Bool :=
  pt == .elzel && decide (p ≥ 64) && p != c.uplink

/-- The port is held under R18. -/
def Chip.portHeld (c : Chip pt) (p : Nat) : Bool := pt == .elzel && decide (p < 64) && c.flag EZ.BIND_HELD p

/-- The far end is an Elzel. -/
def Chip.farElzel (c : Chip pt) (p : Nat) : Bool := c.flag (PT.SL_STATUS_FAR_KIND pt) p

/-- The protocol levels the part speaks: GJ_CMD_CAP, EZ_CMD_CAP. -/
def Chip.lvlMin (c : Chip pt) : Nat := c.rd (PT.CMD_CAP_LVL_MIN pt)
def Chip.lvlMax (c : Chip pt) : Nat := c.rd (PT.CMD_CAP_LVL_MAX pt)
def Chip.speaks (c : Chip pt) (l : Nat) : Bool := decide (c.lvlMin ≤ l) && decide (l ≤ c.lvlMax)

def Chip.countDir (c : Chip pt) (p : Nat) : Chip pt := c.inc (PT.SL_DROP_DIR_DROP pt) p
def Chip.countBad (c : Chip pt) (p : Nat) : Chip pt := c.inc (PT.SL_DROP_BADTYPE pt) p

/-! ### Management packets (R91) -/

/-- The header flit of a MGMT packet. -/
structure Mgmt where
  len : Nat
  cls : Nat
  routed : Bool
  up : Bool
  level : Nat
  dst : Nat
  src : Nat
  tag : Nat
  lvl : Nat

def Mgmt.flit (m : Mgmt) : Flit :=
  f128 (put 127 124 6 + put 123 118 m.len + put 117 114 m.cls + put 113 113 (b2n m.routed) + put 112 112 (b2n m.up)
    + put 111 110 m.level + put 109 92 m.dst + put 91 74 m.src + put 73 58 m.tag + put 57 50 m.lvl)

def mgmtOf (f : Flit) : Mgmt :=
  { len := bits f 123 118, cls := bits f 117 114, routed := bit f 113, up := bit f 112, level := bits f 111 110,
    dst := bits f 109 92, src := bits f 91 74, tag := bits f 73 58, lvl := bits f 57 50 }

/-- The sender's coordinate in SRC: GJ_TREE of the port's domain, or EZ_ROLE.PREFIX. -/
def Chip.srcCoord (c : Chip pt) (p : Nat) : Nat :=
  match c.part with
  | .garja => bits (c.get (if p == 0 then GJ.TREE_A else GJ.TREE_B)) 17 0
  | .elzel => c.rd EZ.ROLE_PREFIX

/-- The level of the part: 0 die, 1 leaf, 2 trunk, 3 root. -/
def Chip.level (c : Chip pt) : Nat := match c.part with | .garja => 0 | .elzel => c.rd EZ.ROLE_ROLE

/-- A packet for the far end of a port (ROUTED = 0). -/
def Chip.mgmtNear (c : Chip pt) (p cls tag : Nat) (body : List Flit) : Pkt :=
  Mgmt.flit { len := body.length, cls := cls, routed := false, up := decide (p ≥ 64), level := 0, dst := 0,
              src := c.srcCoord p, tag := tag, lvl := c.rd (PT.SL_STATUS_LVL_RUN pt) p } :: body

/-! ### Training (R89, R90) -/

/-- The initiator's level: the lower of LVL_CAP and both ends' LVL_MAX. -/
def Chip.initLevel (c : Chip pt) (p farMax : Nat) : Nat := min (c.rd EZ.SL_CTL_LVL_CAP p) (min c.lvlMax farMax)

/-- The body of the TRAIN that the port sends. The initiator names the level once it knows the far end's; the responder
sends 0. -/
def Chip.trainPkt (c : Chip pt) (p : Nat) : Pkt :=
  let l := c.link p
  let run := if c.initiates p && l.trainSeen then c.initLevel p (c.rd (PT.SL_STATUS_FAR_LVL_MAX pt) p) else 0
  let buf := match c.part with | .garja => 0x0040204000 | .elzel => 0x8040204040
  let who := match c.part with
    | .garja => put 55 40 c.prm.stepping.toNat + put 39 24 c.prm.hostStepping.toNat
    | .elzel => put 103 103 1 + put 102 101 (c.rd EZ.ROLE_ROLE) + put 100 100 (c.rd EZ.ROLE_DOMAIN)
        + put 55 40 (c.rd EZ.BOOT_STATUS_FW_LEVEL)
  let body := f128 (put 127 120 c.lvlMin + put 119 112 c.lvlMax + put 111 104 run + put 99 99 (b2n l.trainSeen)
    + put 95 56 buf + who)
  [Mgmt.flit { len := 1, cls := 0, routed := false, up := false, level := 0, dst := 0, src := c.srcCoord p, tag := 0, lvl := c.lvlMin }, body]

/-- A training state entered now. -/
def Chip.enter (c : Chip pt) (p st : Nat) : Chip pt :=
  (c.wr (PT.SL_STATUS_STATE pt) st p).onLink p (fun l =>
    { l with since := c.now, trainSeen := false, seenSent := false, trainDue := none, badSync := 0 })

/-- The port sends TRAIN (PARAM: every 1 µs); one with SEEN = 1 is remembered. -/
def Chip.trainSend (c : Chip pt) (p : Nat) : Chip pt :=
  c.onLink p (fun l => { l with trainDue := some (c.trainPkt p), seenSent := l.seenSent || l.trainSeen })

/-- LINK_VERSION: no common level, with both ranges (R472). -/
def Chip.noLevel (c : Chip pt) (p : Nat) : Chip pt :=
  (c.enter p 6).raise (EV.LINK_VERSION pt) none none
    [i8 p, i8 c.lvlMin, i8 c.lvlMax, i8 (c.rd (PT.SL_STATUS_FAR_LVL_MIN pt) p), i8 (c.rd (PT.SL_STATUS_FAR_LVL_MAX pt) p)]

/-- DISC_DOWN for a downstream port: role, domain, depth, PREFIX, port and whether the port is held. The manual gives the
items and no layout: bits 127:126, 125, 124:123, 122:105, 104:97 and 96 of one body flit (DESIGN CHOICE, log entry 20). -/
def Chip.discDownPkt (c : Chip pt) (p : Nat) : Pkt :=
  c.mgmtNear p 1 0 [f128 (put 127 126 (c.rd EZ.ROLE_ROLE) + put 125 125 (c.rd EZ.ROLE_DOMAIN) + put 124 123 (c.rd EZ.ROLE_DEPTH)
    + put 122 105 (c.rd EZ.ROLE_PREFIX) + put 104 97 p + put 96 96 (c.rd EZ.BIND_HELD p))]

/-- Discovery begun on a downstream port (R17). -/
def Chip.discover (c : Chip pt) (p : Nat) : Chip pt :=
  if pt == .elzel && decide (p < 64) && c.up p then
    (c.send p .mgmt (c.discDownPkt p)).onLink p (fun l => { l with discAt := some c.now, discLate := false })
  else c

/-- PARAM to UP (R89): credits from TRAIN, SEQ = 0, LINK_UP, CAL due, discovery. -/
def Chip.enterUp (c : Chip pt) (p run : Nat) (far : Per5 Nat) : Chip pt :=
  let c := ((c.enter p 5).wr (PT.SL_STATUS_LVL_RUN pt) run p).inc (PT.SL_STATUS_UPS pt) p
  let c := c.onLink p (fun l =>
    { l with far := far, spent := ⟨0, 0, 0, 0, 0⟩, farFreed := ⟨0, 0, 0, 0, 0⟩, freed := ⟨0, 0, 0, 0, 0⟩,
             seqTx := 0, seqRx := 0, nAcc := 0, failing := false, nak := false, resends := 0, nakFor := none,
             part := [], need := 0, tickId := 0, ownTick := none, farTick := none, calSeen := false, good := 0, bad := 0,
             ext := 0, calDue := true, outSince := if c.portHeld p then l.outSince else none })
  let c := if pt == .elzel && decide (p < 64) then c.wr EZ.BIND_SEEN 0 p else c
  let c := c.raise (EV.LINK_UP pt) none none [i8 p, i8 (b2n (c.farElzel p)), i8 run]
  c.discover p

/-- A TRAIN received (R89, R90). -/
def Chip.trainRecv (c : Chip pt) (p : Nat) (pkt : Pkt) : Chip pt :=
  let b := pkt.getD 1 0
  let c := c.onLink p (fun l => { l with rxOwn := l.rxOwn.erase pkt })
  let st := c.rd (PT.SL_STATUS_STATE pt) p
  let seen := bit b 99
  if st == 5 then (if seen then c else c.onLink p (fun l => { l with trainDue := some ((c.onLink p (fun l => { l with trainSeen := true })).trainPkt p) }))
  else if st != 4 then c
  else
    let fmin := bits b 127 120
    let fmax := bits b 119 112
    let c := ((c.wr (PT.SL_STATUS_FAR_LVL_MIN pt) fmin p).wr (PT.SL_STATUS_FAR_LVL_MAX pt) fmax p).wr (PT.SL_STATUS_FAR_KIND pt) (bits b 103 103) p
    let c := c.onLink p (fun l => { l with
      trainSeen := true, farRun := bits b 111 104, farRole := bits b 102 101, farDomain := bit b 100, farStepping := bits b 55 40, farHostStep := bits b 39 24 })
    let run := if c.initiates p then c.initLevel p fmax else bits b 111 104
    let chosen := c.initiates p || run != 0
    if min c.lvlMax fmax < max c.lvlMin fmin || (chosen && (decide (run < c.lvlMin) || decide (run < fmin))) then c.noLevel p
    else if seen && chosen && (c.link p).seenSent then
      c.enterUp p run ⟨bits b 95 88, bits b 87 80, bits b 79 72, bits b 71 64, bits b 63 56⟩
    else c

/-! ### Leaving UP (R98, R472) -/

/-- How many packets of class k a link holds that leaving UP discards: queued, being sent, in the retry buffer, and
received but not taken. -/
def Link.held (l : Link) (k : Cls) : Nat :=
  (l.txq.at k).length + (if !l.cur.isEmpty && l.curCls == k then 1 else 0)
    + (l.retry.flatMap (·.ends)).countP (· == k) + (l.rx.at k).length

/-- Every queue and buffer of a link emptied. -/
def Link.emptied (l : Link) : Link :=
  { l with txq := ⟨[], [], [], [], []⟩, cur := [], retry := [], resend := [], resends := 0, nakFor := none, rx := ⟨[], [], [], [], []⟩,
           rxOwn := [], part := [], need := 0, tickDue := none, calDue := false, trainDue := none, chain := [], chainDrop := false, barHeld := [], failing := false,
           nak := false, have_ := false, good := 0, bad := 0, calSeen := false, ownTick := none, farTick := none, discAt := none, discLate := false }

/-- RANGE_VALID cleared on a port: it is lost to the time base (R94, R95). -/
def Chip.rangeClear (c : Chip pt) (p : Nat) : Chip pt :=
  if c.rangeValid p then
    (((c.wr (PT.SL_STATUS_RANGE_VALID pt) 0 p).onLink p (fun l => { l with have_ := false, good := 0, bad := 0 })) |> fun c =>
      (match c.portInput p with
        | some i => c.wr (PT.TS_TRACK_SAMPLES pt) 0 i
        | none => c).portLost p)
  else c

/-- The port leaves its state for st (1 DETECT, 0 DISABLED, 6 FAILED). Out of UP it discards, counts and reports (R98), and is
lost to the time base. -/
def Chip.leave (c : Chip pt) (p reason st : Nat) : Chip pt :=
  if !c.up p then c.enter p st
  else
    let l := c.link p
    let n := [l.held .bar, l.held .rel, l.held .sig, l.held .mgmt, l.held .evt]
    let c := (c.wr (PT.SL_STATUS_DOWN_REASON pt) reason p).enter p st
    let c := c.onLink p (fun l => { l.emptied with outSince := some (l.outSince.getD c.now) })
    let c := c.inc (PT.SL_DROP_LOST pt) p n.sum
    let c := if c.rangeValid p then c.rangeClear p else c.portLost p
    let c := c.raise (EV.LINK_DOWN pt) none none (i8 p :: i8 reason :: n.map i16)
    if pt == .garja then c.latchIrq p else c

/-- Loss of signal, of clock recovery, or 16 invalid sync headers (R89): an exit from UP only. -/
def Chip.linkLoss (c : Chip pt) (p reason : Nat) : Chip pt := if c.up p then c.leave p reason 1 else c

def Chip.linkRetrain (c : Chip pt) (p : Nat) : Chip pt :=
  let st := c.rd (PT.SL_STATUS_STATE pt) p
  if st == 5 || st == 6 then c.leave p 5 1 else c

/-- A write of SL_CTL.EN (R89): EN = 1 takes a DISABLED port the role uses to DETECT; EN = 0 disables it. EN is ignored on a
port that R10 marks unused. -/
def Chip.portEn (c : Chip pt) (p : Nat) (en : Bool) : Chip pt :=
  let c := c.wr (PT.SL_CTL_EN pt) (b2n en) p
  let st := c.rd (PT.SL_STATUS_STATE pt) p
  if !c.portUsed p then c
  else if en then (if st == 0 then c.enter p 1 else c)
  else if st == 0 then c else c.leave p 6 0

/-! ### CRC-32C (R85) -/

def crcBit (r : Nat) (b : Bool) : Nat :=
  let r2 := (r * 2) % 2 ^ 32
  if (r / 2 ^ 31 == 1) != b then Nat.xor r2 0x1EDC6F41 else r2

/-- n bits of v, most significant first. -/
def crcBits (r v : Nat) : Nat → Nat
  | 0 => r
  | n + 1 => crcBits (crcBit r (v.testBit n)) v n

/-- The CRC of seven payload flits and trailer bits 127:32. -/
def crcBlock (init : Nat) (flits : List Flit) (trailer : Flit) : Nat :=
  let r := flits.foldl (fun r f => crcBits r f.toNat 128) init
  2 ^ 32 - 1 - crcBits r (bits trailer 127 32) 96

def crcHold : Nat := 2 ^ 32 - 1
def crcSeq (seq : Nat) : Nat := Nat.xor (2 ^ 32 - 1) (seq % 4096 * 2 ^ 20)
def crcOk (init : Nat) (flits : List Flit) (trailer : Flit) : Bool := crcBlock init flits trailer == bits trailer 31 0

/-! ### Receiving (R77 to R81, R84, R86) -/

/-- The class of a packet's type; none for IDLE, TICK, CAL and reserved types. -/
def clsOfType : Nat → Option Cls
  | 2 => some .bar
  | 3 => some .bar
  | 4 => some .rel
  | 5 => some .sig
  | 6 => some .mgmt
  | 7 => some .evt
  | _ => none

/-- The type is allowed into the part on that port (R77, R11, R20, R78). -/
def Chip.typeAllowed (c : Chip pt) (p t : Nat) : Bool :=
  match c.part with
  | .garja => t == 4 || t == 5 || t == 6
  | .elzel =>
    if c.portTimeOnly p then t == 6
    else if p < 64 then
      t == 6 || (!c.portHeld p && (t == 2 || t == 5 || t == 7 || (t == 3 && c.farElzel p)))
    else t == 4 || t == 5 || t == 6

/-- The credit of a dropped packet is freed. -/
def Chip.freeCredit (c : Chip pt) (p : Nat) (k : Cls) (n : Nat) : Chip pt :=
  c.onLink p (fun l => { l with freed := l.freed.mod k (fun x => (x + n) % 256) })

/-- A whole packet received: dropped and counted, or put in the buffer of its class until its function takes it. -/
def Chip.deliverPkt (c : Chip pt) (p : Nat) (pkt : Pkt) : Chip pt :=
  let h := pkt.headD 0
  let t := flitType h
  match clsOfType t with
  | none => c
  | some k =>
    if t == 6 && bits h 117 114 == 0 then c.onLink p (fun l => { l with rxOwn := l.rxOwn ++ [pkt] })
    else if !c.typeAllowed p t then (c.countDir p).freeCredit p k pkt.length
    else if t == 6 && decide (bits h 117 114 ≥ 7) then (c.countBad p).freeCredit p k pkt.length
    else if t == 6 && bit h 113 && c.portTimeOnly p then (c.countDir p).freeCredit p k pkt.length
    else if t == 6 && bits h 117 114 != 4 && !c.speaks (bits h 57 50) then (c.countBad p).freeCredit p k pkt.length
    else c.onLink p (fun l => { l with rx := l.rx.mod k (· ++ [pkt]) })

/-- One payload flit parsed (R77, R78). -/
def Chip.rxFlit (c : Chip pt) (p : Nat) (f : Flit) : Chip pt :=
  let l := c.link p
  if l.need > 0 then
    let part := l.part ++ [f]
    if l.need == 1 then (c.onLink p (fun l => { l with part := [], need := 0 })).deliverPkt p part
    else c.onLink p (fun l => { l with part := part, need := l.need - 1 })
  else
    let t := flitType f
    if t == 0 then c
    else if t == 1 || t == 8 then c.onLink p (fun l => { l with rxOwn := l.rxOwn ++ [[f]] })
    else if t ≥ 9 then c.countBad p
    else if flitLen f == 0 then c.deliverPkt p [f]
    else c.onLink p (fun l => { l with part := [f], need := flitLen f })

/-- What a trailer says (R81, R84, R87): freed counts, acknowledgements and NAK. -/
def Chip.trailerIn (c : Chip pt) (p : Nat) (t : Flit) : Chip pt :=
  let ack := bits t 127 116
  let av := bit t 115
  let nak := bit t 114
  let c := c.onLink p (fun l =>
    let left := if av then l.retry.filter (fun b => decide ((b.seq + 4096 - ack) % 4096 - 1 < 2048 ∧ b.seq ≠ ack)) else l.retry
    let moved := decide (left.length < l.retry.length)
    { l with farFreed := ⟨bits t 111 104, bits t 103 96, bits t 95 88, bits t 87 80, bits t 79 72⟩,
             retry := left, resend := l.resend.filter (fun b => left.any (·.seq == b.seq)),
             resends := if moved then 0 else l.resends })
  if !nak then c
  else
    let c := c.inc (PT.SL_ERR_NAK_RX pt) p
    let l := c.link p
    let key := if av then ack else 4096
    if l.nakFor == some key || l.retry.isEmpty then c
    else if l.resends ≥ 8 then c.leave p 4 1
    else c.onLink p (fun l => { l with resend := l.retry, resends := l.resends + 1, nakFor := some key })

/-- A block received and checked (R86). -/
def Chip.blockIn (c : Chip pt) (p : Nat) (flits : List Flit) (t : Flit) : Chip pt :=
  let st := c.rd (PT.SL_STATUS_STATE pt) p
  let l := c.link p
  let hold := bit t 113
  if st != 4 && st != 5 then c
  else if hold && crcOk crcHold flits t then
    let c := c.onLink p (fun l => { l with part := [], need := 0 })
    let c := flits.foldl (fun c f =>
      let k := flitType f
      if (c.link p).need > 0 || k == 0 || k == 1 || k == 8 || k ≥ 9 || (k == 6 && bits f 117 114 == 0) then c.rxFlit p f else c.countDir p) c
    let c := c.onLink p (fun x => { x with part := l.part, need := l.need })
    if st == 5 then c.trailerIn p t else c
  else if st == 4 then c
  else if !hold && crcOk (crcSeq l.seqRx) flits t then
    let c := c.onLink p (fun l => { l with seqRx := (l.seqRx + 1) % 4096, nAcc := min 64 (l.nAcc + 1), failing := false })
    (flits.foldl (fun c f => c.rxFlit p f) c).trailerIn p t
  else if !hold && (List.range l.nAcc).any (fun i => crcOk (crcSeq (l.seqRx + 4096 - (i + 1))) flits t) then
    (c.inc (PT.SL_DROP_DISCARD pt) p).trailerIn p t
  else if l.failing then c.inc (PT.SL_DROP_DISCARD pt) p
  else (c.inc (PT.SL_ERR_CRC_ERR pt) p).onLink p (fun l => { l with failing := true, nak := true })

/-- The run of invalid sync headers after a block, and whether it reached 16 (R89): slot 0 is bit 7. -/
def syncRun : List Bool → Nat → Bool → Nat × Bool
  | [], n, r => (n, r)
  | b :: l, n, r => if b then syncRun l (n + 1) (r || decide (n + 1 ≥ 16)) else syncRun l 0 r

/-! ### Transmitting (R76, R81, R82, R84, R87) -/

/-- Credits left for a class. -/
def Link.credit (l : Link) (k : Cls) : Nat := l.far.at k - (l.spent.at k + 256 - l.farFreed.at k % 256) % 256

/-- The head packet of a class, if its credit lets it start. -/
def Link.ready (l : Link) (k : Cls) : Option (TxPkt × List TxPkt) :=
  match l.txq.at k with
  | [] => none
  | a :: r => if a.flits.length ≤ l.credit k then some (a, r) else none

/-- The class that starts next: an EVT or MGMT packet that waited 16 blocks, then the order of R82. -/
def Link.nextCls (l : Link) : Option Cls :=
  let aged (k : Cls) : Bool := match l.ready k with | some (a, _) => decide (a.waited ≥ 16) | none => false
  if aged .evt then some .evt
  else if aged .mgmt then some .mgmt
  else [Cls.rel, .sig, .bar, .evt, .mgmt].find? (fun k => (l.ready k).isSome)

/-- The block under way: flits sent, the copy kept for a resend, the classes that end in it, and whether it is sequenced. -/
structure Fill where
  sent : List Flit
  kept : List Flit
  ends : List Cls
  seq : Bool

/-- SENT of an ARRIVE that Garja starts in slot i of a block begun at GT integer t (R212): a slot lasts 5 ns (R76). -/
def stampSent (t : Option Nat) (i : Nat) : List Flit → List Flit
  | f :: d :: l =>
    match t with
    | some t => if flitType f == 2 then f :: f128 (bits d 127 64 * 2 ^ 64 + (t + 5 * i) % 2 ^ 64) :: l else f :: d :: l
    | none => f :: d :: l
  | l => l

/-- One payload slot (R82). `hold`: the block may carry no packet flit. `t`: the GT integer that SENT counts from. -/
def Link.slot (l : Link) (hold : Bool) (calFlit : Flit) (t : Option Nat) (b : Fill) : Link × Fill :=
  match (if hold then [] else l.cur) with
  | f :: r =>
    ({ l with cur := r }, { sent := b.sent ++ [f], kept := b.kept ++ [f], ends := if r.isEmpty then b.ends ++ [l.curCls] else b.ends, seq := true })
  | [] =>
    match l.tickDue with
    | some f => ({ l with tickDue := none }, { b with sent := b.sent ++ [f], kept := b.kept ++ [0] })
    | none =>
      if l.calDue then ({ l with calDue := false }, { b with sent := b.sent ++ [calFlit], kept := b.kept ++ [0] })
      else if hold then
        match l.trainDue with
        | some (f :: r) =>
          if r.isEmpty then ({ l with trainDue := none }, { b with sent := b.sent ++ [f], kept := b.kept ++ [0] })
          else ({ l with trainDue := some r }, { b with sent := b.sent ++ [f], kept := b.kept ++ [0] })
        | _ => (l, { b with sent := b.sent ++ [0], kept := b.kept ++ [0] })
      else
        match l.nextCls with
        | some k =>
          match l.ready k with
          | some (a, rest) =>
            ({ l with txq := l.txq.mod k (fun _ => rest), cur := (stampSent t b.sent.length a.flits).tail, curCls := k,
                      spent := l.spent.mod k (fun n => (n + a.flits.length) % 256) },
             { sent := b.sent ++ [a.flits.headD 0], kept := b.kept ++ [a.flits.headD 0],
               ends := if a.flits.tail.isEmpty then b.ends ++ [k] else b.ends, seq := true })
          | none => (l, { b with sent := b.sent ++ [0], kept := b.kept ++ [0] })
        | none => (l, { b with sent := b.sent ++ [0], kept := b.kept ++ [0] })

def Link.slots (l : Link) (hold : Bool) (calFlit : Flit) (t : Option Nat) : Nat → Fill → Link × Fill
  | 0, b => (l, b)
  | n + 1, b => match l.slot hold calFlit t b with
    | (l, b) => l.slots hold calFlit t n b

/-- The trailer, with its CRC (R84, R85). -/
def Link.trailer (l : Link) (hold retry : Bool) (seq : Nat) (flits : List Flit) : Flit :=
  let t := put 127 116 ((l.seqRx + 4095) % 4096) * b2n (decide (l.nAcc > 0)) + put 115 115 (b2n (decide (l.nAcc > 0))) + put 114 114 (b2n l.nak)
    + put 113 113 (b2n hold) + put 112 112 (b2n retry) + put 111 104 l.freed.bar + put 103 96 l.freed.rel + put 95 88 l.freed.sig
    + put 87 80 l.freed.mgmt + put 79 72 l.freed.evt
  f128 (t + crcBlock (if hold then crcHold else crcSeq seq) flits (f128 t))

def TxPkt.wait (a : TxPkt) : TxPkt := { a with waited := a.waited + 1 }

/-- One block sent (R82): a resend first, then a new block; a hold block while the retry buffer is full, while TRAIN is due,
and out of UP. -/
def Link.transmit (l : Link) (isUp : Bool) (now : Nat) (calFlit : Flit) (t : Option Nat) : Link × Bool :=
  match l.resend with
  | b :: r =>
    let t := l.trailer false true b.seq b.flits
    ({ l with txq := { l.txq with evt := l.txq.evt.map TxPkt.wait, mgmt := l.txq.mgmt.map TxPkt.wait },
              resend := r, nakFor := if r.isEmpty then none else l.nakFor, nak := false, lastTx := b.flits ++ [t],
              retry := l.retry.map (fun x => if x.seq == b.seq then { x with since := now } else x) }, true)
  | [] =>
    let hold := !isUp || decide (l.retry.length ≥ 64) || l.trainDue.isSome
    match l.slots hold calFlit t 7 { sent := [], kept := [], ends := [], seq := false } with
    | (m, b) =>
      let t := m.trailer (!b.seq) false m.seqTx b.sent
      let m := { m with nak := false, lastTx := b.sent ++ [t],
                        txq := { m.txq with evt := m.txq.evt.map TxPkt.wait, mgmt := m.txq.mgmt.map TxPkt.wait } }
      (if b.seq then { m with retry := m.retry ++ [{ seq := m.seqTx, flits := b.kept, since := now, ends := b.ends }],
                              seqTx := (m.seqTx + 1) % 4096 } else m, false)

/-! ### Ranging (R92 to R95) -/

/-- The own channel of the port is UNCAL (R62). -/
def Chip.portUncal (c : Chip pt) (p : Nat) : Bool := c.flag (PT.TDC_STATUS_UNCAL pt) p

/-- A TICK built for departure at a stamp (R92, R93): HI on ID 0. -/
def Chip.tickFlit (c : Chip pt) (p : Nat) (depart : Nat) : Flit :=
  let l := c.link p
  let id := l.tickId % 256
  let rx := match l.farTick with | some t => (t.id, 1, t.stamp % 2 ^ 48) | none => (0, 0, 0)
  let hi := id == 0
  f128 (put 127 124 1 + put 115 108 id + put 97 97 (b2n (c.portUncal p)) + put 95 48 depart
    + (if hi then put 98 98 1 + put 47 16 (depart / 2 ^ 48) else put 107 100 rx.1 + put 99 99 rx.2.1 + put 47 0 rx.2.2))

/-- The TICK is put in the port's own slot, and remembered. -/
def Chip.tickOut (c : Chip pt) (p depart : Nat) : Chip pt :=
  let f := c.tickFlit p depart
  c.onLink p (fun l => { l with tickDue := some f, ownTick := some ⟨l.tickId % 256, depart % 2 ^ 48, c.portUncal p⟩, tickId := (l.tickId + 1) % 256 })

/-- ASYM in use, in ps: EZ_SL_ASYM at the initiator, the value sent in CAL at the responder (R94). -/
def Chip.asym (c : Chip pt) (p : Nat) : Int := if c.initiates p then c.rdS EZ.SL_ASYM_ASYM p else (c.link p).farAsym

/-- The port of step-link source s: the own-domain uplink and the cross uplink (R101). -/
def Chip.srcPort (c : Chip pt) (s : Nat) : Nat := if s == 0 then c.uplink else 129 - c.uplink

/-- The port of the step-link source that the reference selector has selected. -/
def Chip.selPort (c : Chip pt) : Option Nat :=
  let s := c.rd EZ.REF_STATUS_SEL
  if c.isRoot || decide (s ≥ 2) then none else some (c.srcPort s)

/-- A jump of source s (R104): HOLDOFF, counted, raised with the old and new offsets and HT. -/
def Chip.refJump (c : Chip pt) (s : Nat) (old new : Int) : Chip pt :=
  let c := ((c.wr EZ.REF_SST_STATE 3 s).wr EZ.REF_SST_REASON 3 s).inc EZ.REF_SST_JUMPS s
  let c : Chip pt := { c with ref := { c.ref with sources := upd c.ref.sources s (fun x =>
    { x with accepted := false, holdoffEnd := c.now + c.rd EZ.REF_SRC_HOLDOFF s * 1000000000 }) } }
  c.raise EV.REF_JUMP none none [i8 s, s64 old, s64 new, i64 c.gtInt]

/-- RANGE_JUMP on the port of a step-link source acts as a jump of it (R104). -/
def Chip.rangeJumpSrc (c : Chip pt) (p : Nat) : Chip pt :=
  if pt == .garja || c.isRoot || decide (p < 64) || decide (p > 65) then c
  else
    let s := if p == c.uplink then 0 else 1
    if c.rd EZ.REF_SST_STATE s == 0 then c
    else c.refJump s (c.rdS EZ.REF_SST_OFFSET s) (c.rdS EZ.SL_OFFSET_THETA p)

/-- One sample (R94): half = RT/2 and d = t2 − t1, in 2^-24 ns. -/
def Chip.sample (c : Chip pt) (p : Nat) (t1 t2 t3 t4 : Nat) (uncal : Bool) : Chip pt :=
  let l := c.link p
  let d := sdiff 48 t2 t1
  let half := (d + sdiff 48 t4 t3) * 128
  let delay := if l.have_ then l.delay + divNear (half - l.delay) 64 else half
  let theta := divNear (d * 256 - delay - divNear (c.asym p * 8388608) 1000) 256
  let err := (half - delay).natAbs
  let good := if !uncal && decide (err * 1000 ≤ 50 * 2 ^ 24) then l.good + 1 else 0
  let far := decide (err * 1000 > 500 * 2 ^ 24)
  let bad := if far then l.bad + 1 else 0
  let old := l.lastHalf
  let c := c.onLink p (fun l => { l with delay := delay, have_ := true, good := good, bad := bad, lastHalf := if far then l.lastHalf else half })
  let c := (c.wrS (PT.SL_RANGE_DELAY pt) (divNear delay 256) p).wrS (PT.SL_RANGE_ASYM pt) (c.asym p) p
  let c := c.wr (PT.SL_RANGE_SPREAD pt) (satU 16 (divNear ((err * 1000 : Nat) : Int) (2 ^ 24)).toNat) p
  let c := (c.wr (PT.SL_OFFSET_SAMPLES pt) (c.rd (PT.SL_OFFSET_SAMPLES pt) p + 1) p).wrS (PT.SL_OFFSET_THETA pt) theta p
  let c := c.trackSample p theta
  if !c.rangeValid p then
    if decide (good ≥ 16) && l.calSeen && !c.portUncal p && !c.flag (PT.SL_STATUS_FAR_UNCAL pt) p then
      let c := c.wr (PT.SL_STATUS_RANGE_VALID pt) 1 p
      (c.raise (EV.RANGE_VALID pt) none none [i8 p, i32 (c.rd (PT.SL_RANGE_DELAY pt) p)]).portValid p
    else c
  else if bad ≥ 4 then
    (c.raise (EV.RANGE_JUMP pt) none none [i8 p, s32 (divNear old 256), s32 (divNear half 256)] |>.rangeJumpSrc p).rangeClear p
  else c

/-- A TICK received and stamped (R92 to R94). The responder answers at `depart`. -/
def Chip.tickIn (c : Chip pt) (p : Nat) (f : Flit) (stamp depart : Nat) : Chip pt :=
  let c := c.onLink p (fun l => { l with rxOwn := l.rxOwn.erase [f] })
  if !c.up p then c
  else
    let l := c.link p
    let un := c.portUncal p
    let id := bits f 115 108
    let tx := bits f 95 48
    let rx := bits f 47 0
    let fun_ := bit f 97
    let c := c.wr (PT.SL_STATUS_FAR_UNCAL pt) (b2n fun_) p
    let c := if bit f 98 then
        let far : Nat := bits f 47 16 * (2 ^ 48) + tx
        let diff : Int := Int.ofNat stamp - Int.ofNat far
        let r := if c.initiates p then -diff else diff
        c.onLink p (fun l => { l with ext := divNear r (2 ^ 48) })
      else c
    let c := match l.ownTick with
      | none => c
      | some o =>
        if bit f 99 && !bit f 98 && bits f 107 100 == o.id then
          if c.initiates p then c.sample p o.stamp rx tx (stamp % 2 ^ 48) (un || fun_ || o.uncal)
          else match l.farTick with
            | some t => c.sample p l.farDepart t.stamp o.stamp rx (t.uncal || fun_ || o.uncal)
            | none => c
        else c
    let c := c.onLink p (fun l => { l with farTick := some ⟨id, stamp % 2 ^ 48, un⟩, farDepart := tx })
    let c := c.preferLocked
    if c.initiates p || !c.up p then c else c.tickOut p depart

/-! ### CAL (R472, R116, R125) -/

/-- The lock state that CAL carries. -/
def Chip.calLock (c : Chip pt) : Nat :=
  match c.part with
  | .garja => c.rd GJ.TB_STATUS_LOCK
  | .elzel =>
    let r := c.rd EZ.REF_STATUS_LOCK
    let sv := c.rd EZ.TS_STATUS_STATE
    if c.isRoot && !c.flag EZ.ROLE_DOMAIN then (if r == 3 then 2 else r)
    else if r == 2 && sv != 2 then sv
    else if c.isRoot then (if r == 3 then 2 else r)
    else if r == 3 || (match c.selPort with | some p => c.farLock p == 3 | none => false) then 3
    else r

def Chip.calFlit (c : Chip pt) (p : Nat) : Flit :=
  f128 (put 127 124 8 + put 111 96 (c.rd (PT.SL_LAT_TX_LAT pt) p) + put 95 80 (c.rd (PT.SL_LAT_RX_LAT pt) p)
    + (match c.part with | .garja => 0 | .elzel => put 79 64 (c.rd EZ.SL_ASYM_ASYM p))
    + put 63 62 c.calLock + put 61 61 (b2n (c.portUncal p))
    + put 60 53 (if c.initiates p then c.rd (PT.SL_STATUS_LVL_RUN pt) p else 0))

/-- A CAL received. -/
def Chip.calIn (c : Chip pt) (p : Nat) (f : Flit) : Chip pt :=
  let c := c.onLink p (fun l => { l with rxOwn := l.rxOwn.erase [f] })
  if !c.up p then c
  else
    let c := (c.wr (PT.SL_LAT_FAR_TX_LAT pt) (bits f 111 96) p).wr (PT.SL_LAT_FAR_RX_LAT pt) (bits f 95 80) p
    let c := (c.wr (PT.SL_STATUS_FAR_LOCK pt) (bits f 63 62) p).wr (PT.SL_STATUS_FAR_UNCAL pt) (bits f 61 61) p
    let c := if c.initiates p then c
      else (if bits f 60 53 == 0 then c else c.wr (PT.SL_STATUS_LVL_RUN pt) (bits f 60 53) p).wr (PT.SL_RANGE_ASYM pt) (bits f 79 64) p
    let c := c.onLink p (fun l => { l with calSeen := true, farAsym := sx 16 (bits f 79 64) })
    c.preferLocked.effClear

/-- The initiator's level chosen anew when LVL_CAP changes (R90), and CAL due on the port. -/
def Chip.refreshLevel (c : Chip pt) (p : Nat) : Chip pt :=
  if pt == .elzel && c.up p && c.initiates p then
    let run := c.initLevel p (c.rd EZ.SL_STATUS_FAR_LVL_MAX p)
    if run == c.rd EZ.SL_STATUS_LVL_RUN p then c
    else (c.wr EZ.SL_STATUS_LVL_RUN run p).onLink p (fun l => { l with calDue := true })
  else c

/-! ### ENGINE reset of subsystem 8 (R99) -/

/-- Packets not yet started and packets received but not taken are discarded, counted in LOST, and their credits freed. -/
def Chip.linkEngineReset (c : Chip pt) (p : Nat) : Chip pt :=
  let l := c.link p
  let ks := [Cls.bar, .rel, .sig, .mgmt, .evt]
  let n := (ks.map (fun k => (l.txq.at k).length + (l.rx.at k).length)).sum
  let c := c.inc (PT.SL_DROP_LOST pt) p n
  let c := ks.foldl (fun c k => c.freeCredit p k (((l.rx.at k).map (·.length)).sum)) c
  c.onLink p (fun l => { l with txq := ⟨[], [], [], [], []⟩, rx := ⟨[], [], [], [], []⟩ })

/-! ### Meanings -/

/-- PORT_EN_WRITE (R89). -/
def execPortEnWrite (u : Part) (p : BitVec 7) (en : Bool) (s : State) : Out := .next (s.onPortReg u p.toNat (·.portEn p.toNat en))

/-- RETRAIN (R89). -/
def execRetrain (u : Part) (p : BitVec 7) (s : State) : Out := .next (s.onPortReg u p.toNat (·.linkRetrain p.toNat))

/-- A training event that takes a port from one state to the next. -/
def Chip.trainStep (c : Chip pt) (p old new : Nat) : Chip pt :=
  if c.rd (PT.SL_STATUS_STATE pt) p == old then c.enter p new else c

/-- SIGNAL_DETECT (R89): DETECT to CDR. -/
def execSignalDetect (u : Part) (p : BitVec 7) (s : State) : Out := .next (s.onPort u p.toNat (·.trainStep p.toNat 1 2))

/-- CDR_LOCK (R89): CDR to ALIGN. -/
def execCdrLock (u : Part) (p : BitVec 7) (s : State) : Out := .next (s.onPort u p.toNat (·.trainStep p.toNat 2 3))

/-- ALIGN_DONE (R89): ALIGN to PARAM, where the port sends TRAIN. -/
def execAlignDone (u : Part) (p : BitVec 7) (s : State) : Out :=
  .next (s.onPort u p.toNat (fun c =>
    if c.rd (PT.SL_STATUS_STATE u) p.toNat == 3 then (c.enter p.toNat 4).trainSend p.toNat else c))

/-- TRAIN_SEND (R89): every 1 µs in PARAM. -/
def execTrainSend (u : Part) (p : BitVec 7) (s : State) : Out :=
  .next (s.onPort u p.toNat (fun c => if c.rd (PT.SL_STATUS_STATE u) p.toNat == 4 then c.trainSend p.toNat else c))

/-- TRAIN_TIMEOUT (R89): 100 µs in DETECT, CDR or ALIGN, or 1 ms in PARAM. -/
def execTrainTimeout (u : Part) (p : BitVec 7) (s : State) : Out :=
  .next (s.onPort u p.toNat (fun c =>
    let st := c.rd (PT.SL_STATUS_STATE u) p.toNat
    let lim := if st == 4 then 1000000 else 100000
    if decide (1 ≤ st) && decide (st ≤ 4) && decide (c.now - (c.link p.toNat).since ≥ lim) then
      (c.inc (PT.SL_STATUS_TRAIN_TO u) p.toNat).enter p.toNat 1 else c))

/-- LOSS_OF_SIGNAL (R89, R95, R98): the reason is 1 loss of signal, 2 clock recovery or 3 sync headers. -/
def execLossOfSignal (u : Part) (p : BitVec 7) (reason : BitVec 4) (s : State) : Out :=
  .next (s.onPort u p.toNat (·.linkLoss p.toNat reason.toNat))

/-- BLOCK_RECEIVED (R76 to R81, R84 to R87). -/
def execBlockReceived (u : Part) (p : BitVec 7) (badHdr : BitVec 8) (flits : List (BitVec 128)) (trailer : Flit) (s : State) : Out :=
  .next (s.onPort u p.toNat (fun c =>
    let q := p.toNat
    let st := c.rd (PT.SL_STATUS_STATE u) q
    if st == 0 then c
    else
      let bad := (List.range 8).map (fun i => bit badHdr (7 - i))
      let run := syncRun bad (c.link q).badSync false
      let c := (c.inc (PT.SL_ERR_SYNC_ERR u) q (popCount badHdr.toNat 8)).onLink q (fun l => { l with badSync := run.1 })
      if run.2 then c.linkLoss q 3 else c.blockIn q flits trailer))

/-- REPLAY_TIMER (R87): the oldest block is unacknowledged for 2 × DELAY + 400 ns, or for 25 µs while RANGE_VALID = 0. -/
def execReplayTimer (u : Part) (p : BitVec 7) (s : State) : Out :=
  .next (s.onPort u p.toNat (fun c =>
    let q := p.toNat
    let l := c.link q
    match l.retry with
    | [] => c
    | b :: _ =>
      let lim := if c.rangeValid q then (2 * l.delay.toNat + 400 * 2 ^ 24) / 2 ^ 24 else 25000
      if !l.resend.isEmpty || decide (c.now - b.since < lim) then c
      else if l.resends ≥ 8 then c.leave q 4 1
      else c.onLink q (fun l => { l with resend := l.retry, resends := l.resends + 1 })))

/-- TICK_DUE (R93): every INTERVAL blocks the initiator sends a TICK with its departure stamp. -/
def execTickDue (u : Part) (p : BitVec 7) (depart : BitVec 80) (s : State) : Out :=
  .next (s.onPort u p.toNat (fun c => if c.up p.toNat && c.initiates p.toNat then c.tickOut p.toNat depart.toNat else c))

/-- TICK (R92 to R95). -/
def execTick (u : Part) (p : BitVec 7) (flit : Flit) (stamp : BitVec 80) (depart : BitVec 80) (s : State) : Out :=
  .next (s.onPort u p.toNat (·.tickIn p.toNat flit stamp.toNat depart.toNat))

/-- CAL_DUE (R472). The flit is formed from the registers when its slot comes. -/
def execCalDue (u : Part) (p : BitVec 7) (s : State) : Out :=
  .next (s.onPort u p.toNat (fun c => if c.up p.toNat then c.onLink p.toNat (fun l => { l with calDue := true }) else c))

/-- CAL (R472, R118, R130). -/
def execCal (u : Part) (p : BitVec 7) (flit : Flit) (s : State) : Out := .next (s.onPort u p.toNat (·.calIn p.toNat flit))

end Sys2Proof.Machine
end

