-- ==== Sys2Proof/Machine/Regions.lean ====
section
/-!
DEFINITION. Sys2Proof/Machine/Regions.lean: the region monitors of 02 (R42 to R48, R474): opening and closing accounting
windows, and what a tick and a stretch do.
-/
namespace Sys2Proof.Machine

variable {pt : Part}

def Garja.onRegion (g : Garja) (n : Nat) (f : Region → Region) : Garja := { g with regions := upd g.regions n f }
def Garja.region (g : Garja) (n : Nat) : Region := (g.regions[n]?).getD {}

/-- Region n is enabled (R42). -/
def Chip.rgnEnabled (c : Chip pt) (n : Nat) : Bool := (c.rd GJ.RGN_EN_EN).testBit n && c.rd GJ.RGN_CFG_PNOM n != 0

/-- The window of region n is open. -/
def Chip.rgnOpen (c : Chip pt) (n : Nat) : Bool := c.flag GJ.RGN_LOST_OPEN n

/-- The accounting windows of a step open (R43): LOST and FAULT of the window before clear (R44), and PNOM is the one in force
now (R45). -/
def Garja.windowOpen (g : Garja) (ctx step : Nat) : Garja :=
  (List.range 64).foldl (fun g n =>
    if g.c.rgnEnabled n then
      (g.onC (fun c => ((c.wr GJ.RGN_LOST_OPEN 1 n).wr GJ.RGN_LOST_LOST 0 n).wr GJ.RGN_LOST_FAULT 0 n)).onRegion n
        (fun _ => { pnom := g.c.rd GJ.RGN_CFG_PNOM n, ctx := ctx, step := step })
    else g) g

/-- The accounting windows of a context close (R43): LOST and FAULT stay, and a change of GJ_CLKFIX that waited for them takes
place (R47). -/
def Garja.windowClose (g : Garja) (ctx : Nat) : Garja :=
  ((List.range 64).foldl (fun g n =>
    if g.c.rgnOpen n && (g.region n).ctx == ctx then g.onC (·.wr GJ.RGN_LOST_OPEN 0 n) else g) g).onC Chip.clkfixAfterWindow

/-- Every open window closes at once, with no fault and no event (R474). -/
def Garja.windowsReset (g : Garja) : Garja :=
  ((List.range 64).foldl (fun g n => g.onC (fun c => if c.rgnOpen n then c.wr GJ.RGN_LOST_OPEN 0 n else c)) g).onC
    Chip.clkfixAfterWindow

/-- LOST of R43 in ns, rounded towards zero: PNOM is in 2^-16 ns. -/
def lostOf (gt t0 k pnom : Nat) : Int := divZero (((gt : Int) - (t0 : Int)) * 65536 - ((k * 16 * pnom : Nat) : Int)) 65536

/-- LOST written and compared with SLACK (R43 to R45): DEADLINE_REGION once in a window; says which step missed its
deadline. -/
def Garja.regionAccount (g : Garja) (n : Nat) (r : Region) (t0 gt : Nat) : Garja × Option (Nat × Nat) :=
  let lost := lostOf gt t0 r.k r.pnom
  let g := g.onC (·.wrS GJ.RGN_LOST_LOST lost n)
  let slack := g.c.rd GJ.RGN_SLACK_SLACK n
  if decide (lost > (slack : Int)) && !g.c.flag GJ.RGN_LOST_FAULT n then
    let g := g.onC (fun c => (((c.wr GJ.RGN_LOST_FAULT 1 n).raise EV.DEADLINE_REGION (some r.ctx) (some r.step)
      [i8 n, s32 lost, i32 slack, i32 r.stretched]).latchIrq 6))
    (g, some (r.ctx, r.step))
  else (g, none)

/-- A rising edge of GJ_RGN_TICK[n] (R42, R43, R46): 16 region cycles; the GT given to the tick is two ns before the edge that
sees it. -/
def Garja.regionTick (g : Garja) (n : Nat) (stretch : Bool) : Garja × Option (Nat × Nat) :=
  let g := if stretch && g.c.clocked then g.onC (·.inc GJ.RGN_STR_TICKS n) else g
  if !g.c.clocked || !g.c.rgnOpen n || !((g.c.rd GJ.RGN_EN_EN).testBit n) then (g, none)
  else
    let gt := (g.c.gtInt + 2 ^ 64 - 2) % 2 ^ 64
    let r := g.region n
    match r.t0 with
    | none => (g.onRegion n (fun r => { r with t0 := some gt, k := 0, stretched := r.stretched + b2n stretch }), none)
    | some t0 =>
      let r := { r with k := r.k + 1, stretched := r.stretched + b2n stretch }
      (g.onRegion n (fun _ => r)).regionAccount n r t0 gt

/-- A rising edge of GJ_RGN_STRETCH[n] (R46, R48). -/
def Garja.stretchRise (g : Garja) (n : Nat) : Garja :=
  let g := if g.c.clocked then g.onC (·.inc GJ.RGN_STR_EPISODES n) else g
  if g.c.clocked && g.c.flag GJ.TB_STATUS_CLKFIX_ACT then
    g.onC (fun c => ((c.inc GJ.RGN_CTL_VIOL_CNT).raise EV.CLKFIX_VIOLATION none (some (g.region n).step) [i8 n]).latchIrq 7)
  else g

/-- RGN_STRETCH_RISE (R46, R48). -/
def execRgnStretchRise (n : BitVec 6) (s : State) : Out := .next (s.onGj (·.stretchRise n.toNat))

end Sys2Proof.Machine
end

