-- ==== Sys2Proof/Machine/Status.lean ====
section
/-!
DEFINITION. Sys2Proof/Machine/Status.lean: the status codes of R349, the operation codes of R167 and the command opcodes of R347.
-/
namespace Sys2Proof.Machine

namespace ST
def OK : Nat := 0
def BUSY : Nat := 1
def BADOP : Nat := 2
def BADPARAM : Nat := 3
def NOCTX : Nat := 4
def STALE_GEN : Nat := 5
def DENIED : Nat := 6
def TIMEOUT : Nat := 7
def SATURATED : Nat := 8
def ABANDONED : Nat := 9
def SQUASHED : Nat := 10
def LATE : Nat := 11
def VERSION : Nat := 12
def ADMIT_DEFERRED : Nat := 13
end ST

namespace OP
def SEM_ADD : Nat := 0x01
def SEM_SUB : Nat := 0x02
def SEM_SET : Nat := 0x03
def SEM_TRY : Nat := 0x04
def FLAG_SET : Nat := 0x08
def FLAG_CLR : Nat := 0x09
def FLAG_MODE : Nat := 0x0A
def FLAG_TRY : Nat := 0x0B
def WAIT_GE : Nat := 0x10
def WAIT_GE_C : Nat := 0x11
def WAIT_EQ : Nat := 0x12
def WAIT_FLAG : Nat := 0x18
end OP

namespace CM
def NOP : Nat := 0x01
def IDENTIFY : Nat := 0x02
def REG_READ : Nat := 0x03
def REG_WRITE : Nat := 0x04
def CTX_CMD : Nat := 0x10
def START : Nat := 0x11
def STG_OPEN : Nat := 0x20
def STG_ADD : Nat := 0x21
def STG_PREPARE : Nat := 0x22
def STG_COMMIT : Nat := 0x23
def STG_ABORT : Nat := 0x24
def STG_QUERY : Nat := 0x25
def JOB_SUBMIT : Nat := 0x30
def JOB_CHANGE : Nat := 0x31
def JOB_END : Nat := 0x32
def BAR_MOVE : Nat := 0x33
def DISCOVER : Nat := 0x40
def DIE_WAKE : Nat := 0x41
def TXQ_SUBMIT : Nat := 0x50
def TXQ_STAMP : Nat := 0x51
def HEALTH_READ : Nat := 0x60
def OWL_PAIR : Nat := 0x61
def ROLLBACK : Nat := 0x62
def JRNL_COPY : Nat := 0x63
def RESET : Nat := 0x70
def CAPSULE_READ : Nat := 0x71
end CM

end Sys2Proof.Machine
end

