-- ==== Sys2Proof/Machine/Objects.lean ====
section
/-!
DEFINITION. Sys2Proof/Machine/Objects.lean: the sync object engine of 08: objects and their operations, waiters, grant passes,
the intake, timeouts, taps, the object window and the undo log's entries (R268).
-/
namespace Sys2Proof.Machine

variable {pt : Part}

/-! ### Access -/

def Garja.ctxState (g : Garja) (x : Nat) : Nat := g.c.rd GJ.CTX_STATE_STATE x
def Garja.flagBuild (g : Garja) : Bool := g.c.flag GJ.SO_CTL_BUILD
/-- Physical objects of the build (R164). -/
def Garja.objCount (g : Garja) : Nat := if g.flagBuild then 16384 else 131072
/-- The step number of a context for an event. -/
def Garja.stepOf (g : Garja) (x : Nat) : Nat := g.c.rd GJ.SQ_CTX_STATE_STEP x

def Garja.onSo (g : Garja) (f : Engine → Engine) : Garja := { g with so := f g.so }
def Garja.seq (g : Garja) (x : Nat) : SeqCtx := (g.seqs[x]?).getD {}
def Garja.onSeq (g : Garja) (x : Nat) (f : SeqCtx → SeqCtx) : Garja := { g with seqs := upd g.seqs x f }
def Garja.run (g : Garja) (x : Nat) : CtxRun := (g.ctxs[x]?).getD {}
def Garja.onRun (g : Garja) (x : Nat) (f : CtxRun → CtxRun) : Garja := { g with ctxs := upd g.ctxs x f }

/-- A sparse store of words, 0 where nothing is listed, set at k. -/
def sparseSet (l : RegFile) (k : Nat) (v : Word) : RegFile := if v == 0 then regErase l k else regInsert l k v
def sparseGet (l : RegFile) (k : Nat) : Word := (regFind l k).getD 0

/-- The object word without NWAIT (R166). -/
def Garja.obj (g : Garja) (phys : Nat) : Word := sparseGet g.so.objs phys
def Garja.setObj (g : Garja) (phys : Nat) (w : Word) : Garja := g.onSo (fun e => { e with objs := sparseSet e.objs phys w })

/-- The value of an object word: COUNT, or FLAG. -/
def objVal (flag : Bool) (w : Word) : Nat := if flag then bits w 0 0 else bits w 31 0
def setVal (flag : Bool) (w : Word) (v : Nat) : Word := if flag then setBits w 0 0 v else setBits w 31 0 v

/-- Waiters on an object. -/
def Garja.waitersOn (g : Garja) (phys : Nat) : List Waiter := g.so.waiters.filter (fun w => w.phys == phys)
/-- The object word with NWAIT. -/
def Garja.objWord (g : Garja) (phys : Nat) : Word := setBits (g.obj phys) 61 48 (g.waitersOn phys).length

/-- The physical object of OBJ in a context's window (R165, R192), if OBJ is inside the window and the build's range. -/
def Garja.translate (g : Garja) (x o : Nat) : Option Nat :=
  if decide (o < g.c.rd GJ.CTX_XLAT_SIZE x) && decide (o < g.objCount) then some (g.c.rd GJ.CTX_XLAT_BASE x + o) else none

/-- The requester coded as OWNER; a tile or the host has no code there and is coded 15. -/
def ownerCode : Requester → Nat
  | .proc p => p.toNat
  | .elzel => 8
  | .debug => 9
  | .tile _ => 15
  | .host => 15

/-! ### Operations on a word (R167, R183) -/

def isSignal (op : Nat) : Bool := op == 1 || op == 2 || op == 3 || op == 8 || op == 9
def isWait (op : Nat) : Bool := op == 0x10 || op == 0x11 || op == 0x12 || op == 0x18
/-- The codes of the build (R167). -/
def opOfBuild (flag : Bool) (op : Nat) : Bool :=
  if flag then op == 8 || op == 9 || op == 0xA || op == 0xB || op == 0x18
  else op == 1 || op == 2 || op == 3 || op == 4 || op == 0x10 || op == 0x11 || op == 0x12

/-- A signal operation or FLAG_MODE on an object word: the word after it, and whether it saturated (R167, R183). -/
def opEffect (op val : Nat) (w : Word) : Word × Bool :=
  let v := bits w 31 0
  if op == OP.SEM_ADD then
    if v + val > 0xFFFFFFFF then (setBits (setBits w 31 0 0xFFFFFFFF) 63 63 1, true) else (setBits w 31 0 (v + val), false)
  else if op == OP.SEM_SUB then
    if val > v then (setBits (setBits w 31 0 0) 62 62 1, true) else (setBits w 31 0 (v - val), false)
  else if op == OP.SEM_SET then (setBits w 31 0 val, false)
  else if op == OP.FLAG_SET then
    if bit w 0 then (setBits w 63 63 1, true) else (setBits w 0 0 1, false)
  else if op == OP.FLAG_CLR then (setBits w 0 0 0, false)
  else if op == OP.FLAG_MODE then (setBits w 62 62 (val % 2), false)
  else (w, false)

/-- SEM_TRY and FLAG_TRY (R167): the word after an OK, or none for BUSY. -/
def tryEffect (op n : Nat) (w : Word) : Option Word :=
  if op == OP.SEM_TRY then (if bits w 31 0 ≥ n then some (setBits w 31 0 (bits w 31 0 - n)) else none)
  else if bit w 0 then some (if bit w 62 then setBits w 0 0 0 else w) else none

/-- The condition of a wait by its OP. -/
def condOf (op : Nat) : Nat := if op == OP.WAIT_GE then 0 else if op == OP.WAIT_GE_C then 1 else if op == OP.WAIT_EQ then 2 else 3

/-- R173 for one waiter: the value after the grant, or none when it is not eligible. `single` is MODE of a flag. -/
def grantVal (cond n : Nat) (single : Bool) (v : Nat) : Option Nat :=
  match cond with
  | 0 => if v ≥ n then some v else none
  | 1 => if v ≥ n then some (v - n) else none
  | 2 => if v = n then some v else none
  | _ => if v = 1 then some (if single then 0 else 1) else none

/-! ### The undo log (R266, R268) -/

/-- The context with FOX above 0 (R265). -/
def Chip.foxCtx (c : Chip pt) : Option Nat :=
  (c.regs.find? (fun e => decide (0xC000 ≤ e.1) && decide (e.1 < 0xE000) && e.1 % 0x20 == 0 && bits e.2 63 62 != 0)).map
    (fun e => (e.1 - 0xC000) / 0x20)

/-- The step under which an operation of context x is issued (R266): the fox context's most recently launched step. -/
def Garja.tagOf (g : Garja) (x : Nat) : Option Nat := if g.c.foxCtx == some x then g.fox.launched else none

/-- The step is speculative, or is being squashed and not yet restored. -/
def Garja.isSpec (g : Garja) (step : Option Nat) : Bool :=
  match step with
  | none => false
  | some t => g.fox.spec.contains t || (match g.fox.squash with | some q => q.steps.contains t | none => false)

/-- The step is being squashed (R270, order 3). -/
def Garja.squashing (g : Garja) (step : Option Nat) : Bool :=
  match step, g.fox.squash with
  | some t, some q => q.steps.contains t
  | _, _ => false

def Garja.touched (g : Garja) (phys : Nat) : Bool := g.fox.undo.any (fun e => e.base && e.phys == phys)

/-- Entries that an operation needs in the log. -/
def Garja.undoNeed (g : Garja) (phys : Nat) (step : Option Nat) (changed : Bool) : Nat :=
  if g.touched phys then 1 else if g.isSpec step && changed then 2 else 0

/-- An operation entered in the undo log (R268): `before` is the object word before it. -/
def Garja.note (g : Garja) (phys : Nat) (before : Word) (op n : Nat) (step : Option Nat) (changed : Bool) : Garja :=
  let e : UndoEntry := { phys := phys, base := false, op := op, n := n, step := if g.isSpec step then step else none, changed := changed }
  if g.touched phys then { g with fox := { g.fox with undo := g.fox.undo ++ [e] } }
  else if g.isSpec step && changed then
    { g with fox := { g.fox with undo := g.fox.undo ++ [{ phys := phys, base := true, word := before.toNat }, e] } }
  else g

/-- An object-window write of a touched object: its word is the new base and the other entries are freed (R268). -/
def Garja.rebase (g : Garja) (phys : Nat) (w : Word) : Garja :=
  let l := g.fox.undo.filterMap (fun e =>
    if e.phys == phys then (if e.base then some { e with word := w.toNat } else none) else some e)
  { g with fox := { g.fox with undo := l } }

/-! ### Outcomes (R174 to R176) -/

/-- A DEBUG reply (R467): routed up with the TAG of its request to its SRC, with the status and the word read. -/
def Chip.debugReply (c : Chip pt) (p : Nat) (h : Flit) (st : Nat) (w : Word) : Chip pt :=
  let m := mgmtOf h
  c.send p .mgmt [Mgmt.flit { len := 1, cls := 6, routed := true, up := true, level := 3, dst := m.src, src := c.srcCoord p, tag := m.tag, lvl := m.lvl },
    f128 (put 127 120 st + put 63 0 w.toNat)]

/-- A status answered by the target port. That of a DEBUG access goes into its reply; answers come in the order of acceptance (R421). -/
def Garja.answer (g : Garja) (r : Requester) (st : Nat) : Garja :=
  let g := g.onSo (fun e => { e with answers := (r, st) :: e.answers })
  match r, g.dbg with
  | .debug, (p, h) :: l => { g with dbg := l, c := g.c.debugReply p h st 0 }
  | _, _ => g

/-- SO_WAIT_DONE (R321): it goes only to the ring of the waiting processor (R324). -/
def Garja.waitDone (g : Garja) (w : Waiter) (outcome : Nat) : Garja :=
  g.onC (fun c =>
    let ws := c.record EV.SO_WAIT_DONE (some w.ctx) none c.stamp [i32 w.obj, i16 w.slot, i8 outcome, i8 w.cond, i32 w.n]
    c.deliver ws (some w.ctx) (some (if c.flag GJ.EVT_PROC_WD_EN w.proc then [c.rd GJ.EVT_PROC_WD_RING w.proc] else [])))

/-- An outcome delivered (R171, R174): the result word and wake wire of a tile, the sequencer, or SO_WAIT_DONE. -/
def Garja.outcome (g : Garja) (w : Waiter) (outcome : Nat) : Garja :=
  if w.slot < 4096 then
    let word := w64 (put 63 56 outcome + 2 ^ 55 + put 48 17 g.c.stamp + put 16 0 w.obj)
    g.onSo (fun e => { e with results := sparseSet e.results w.slot word })
  else if w.slot < 4352 then g.onSeq w.ctx (fun s => { s with ended := some (0x200, outcome) })
  else g.waitDone w outcome

/-- A waiter leaves its slot with an outcome. -/
def Garja.finish (g : Garja) (w : Waiter) (outcome : Nat) : Garja :=
  (g.onSo (fun e => { e with waiters := e.waiters.filter (fun x => x.slot != w.slot) })).outcome w outcome

/-- Waiters that a predicate picks end with an outcome, in ascending key. -/
def Garja.finishAll (g : Garja) (p : Waiter → Bool) (outcome : Nat) : Garja :=
  (g.so.waiters.filter p).foldl (fun g w => g.finish w outcome) g

def insertWaiter (w : Waiter) : List Waiter → List Waiter
  | [] => [w]
  | a :: l => if w.slot < a.slot then w :: a :: l else a :: insertWaiter w l

/-! ### Grant passes (R173) -/

/-- The pass over waiters in ascending key on a running value: the grants and the value after them. -/
def passGo (single : Bool) : List Waiter → Nat → List (Waiter × Bool) × Nat
  | [], v => ([], v)
  | w :: l, v =>
    match grantVal w.cond w.n single v with
    | some v' => let (gs, r) := passGo single l v'; ((w, v' != v) :: gs, r)
    | none => passGo single l v

/-- The grants of a pass over an object as its value and waiters stand. Parked waiters are not served (R201). -/
def Garja.passPlan (g : Garja) (phys : Nat) : List (Waiter × Bool) × Nat :=
  let w := g.obj phys
  passGo (bit w 62) ((g.waitersOn phys).filter (fun x => !x.parked)) (objVal g.flagBuild w)

/-- A pass starts on an object (R173). -/
def Garja.startPass (g : Garja) (phys : Nat) (early : List Waiter := []) (answers : List (Requester × Nat) := []) : Garja :=
  g.onSo (fun e => { e with passes := e.passes ++ [{ phys := phys, early := early, answers := answers }] })

/-- Code of a grant in the undo log. -/
def grantCode : Nat := 0x101
def realignCode : Nat := 0x100

/-- The pass on an object ends (R173): the value is written once and every outcome is delivered together. -/
def Garja.endPass (g : Garja) (p : Pass) : Garja :=
  let w := g.obj p.phys
  let (grants, v) := g.passPlan p.phys
  let g := grants.foldl (fun g x => g.note p.phys w grantCode x.1.n x.1.step x.2) g
  let g := g.setObj p.phys (setVal g.flagBuild w v)
  let g := g.onSo (fun e => { e with passes := e.passes.filter (fun x => x.phys != p.phys) })
  let g := p.early.foldl (fun g x => g.outcome x ST.OK) g
  let g := grants.foldl (fun g x => g.finish x.1 ST.OK) g
  p.answers.foldl (fun g a => g.answer a.1 a.2) g

/-! ### Applying operations -/

/-- SO_SATURATED (R183), raised when the sticky flag goes from 0 to 1. -/
def Garja.saturated (g : Garja) (o : SoOp) (before after : Word) : Garja :=
  let g := g.onC (·.inc GJ.SO_CNT_SAT)
  if bits before 63 62 == bits after 63 62 then g
  else g.onC (·.raise EV.SO_SATURATED (some o.ctx) (some (g.stepOf o.ctx)) [i32 o.obj, i8 o.op, i32 o.val])

/-- A refusal counted in GJ_SO_DROP (R170). -/
def Garja.soDrop (g : Garja) (st : Nat) : Garja :=
  g.onC (fun c =>
    if st == ST.STALE_GEN then c.inc GJ.SO_DROP_STALE
    else if st == ST.BADOP then c.inc GJ.SO_DROP_BADOP
    else if st == ST.BADPARAM then c.inc GJ.SO_DROP_BADPARAM
    else if st == ST.NOCTX || st == ST.DENIED then c.inc GJ.SO_DROP_NOCTX else c)

/-- What the end of an operation means to its path: an answer, DONE of a tap, or the sequencer's next instruction. -/
def Garja.opEnd (g : Garja) (o : SoOp) (st : Nat) : Garja :=
  let g := if st == ST.OK || st == ST.SATURATED || st == ST.BUSY then g else g.soDrop st
  match o.path with
  | .door r => g.answer r st
  | .window r => g.answer r st
  | .tap n => { g with taps := upd g.taps n (fun t => { t with done := true }) }
  | .seq => g.onSeq o.ctx (fun s => { s with busy := false, ended := some (o.op, st) })
  | _ => g

/-- GT integer of the deadline of a new wait (R181). -/
def Garja.deadlineOf (g : Garja) (to_ : Nat) : Option Nat :=
  let ns := g.c.rd GJ.SO_TMO_NS to_
  if to_ = 0 || ns = 0 then none else some ((g.c.gtInt + ns) % 2 ^ 64)

/-- The lowest free EVT slot (R171). -/
def Garja.freeEvt (g : Garja) : Option Nat :=
  let used := (g.so.waiters.filter (fun w => decide (4352 ≤ w.slot))).map (·.slot)
  (List.range (used.length + 1)).findSome? (fun i =>
    let s := 4352 + i
    if s < 8192 && !used.contains s then some s else none)

/-- The slot of a new wait by its path (R171); none when its tile waits already, or no EVT slot is free. -/
def Garja.slotFor (g : Garja) (o : SoOp) : Option Nat :=
  let free := fun s => if g.so.waiters.any (fun w => w.slot == s) then none else some s
  match o.path with
  | .door (.tile t) => free t.toNat
  | .door _ => g.freeEvt
  | _ => free (4096 + o.ctx)

/-- Whether the operation is one whose end the sequencer waits for as a wait. -/
def SoOp.proc (o : SoOp) : Nat := match o.path with | .door (.proc p) => p.toNat | _ => 0

/-- A wait applied (R171, R172, R270): granted at acceptance, refused, or put in its slot. -/
def Garja.applyWait (g : Garja) (o : SoOp) : Garja :=
  match g.slotFor o with
  | none => g.opEnd o ST.BUSY
  | some slot =>
    let w := g.obj o.phys
    let wt : Waiter := { slot := slot, ctx := o.ctx, obj := o.obj, phys := o.phys, cond := condOf o.op, n := o.val, to_ := o.to_,
                         deadline := g.deadlineOf o.to_, stamp := g.c.stamp, proc := o.proc, step := o.step }
    let asSeq := match o.path with | .seq => true | _ => false
    let begun := fun (g : Garja) => if asSeq then g.onSeq o.ctx (fun s => { s with busy := false }) else g.opEnd o ST.OK
    if g.squashing o.step then ((begun g).note o.phys w o.op o.val o.step false).outcome wt ST.SQUASHED
    else
      let v := objVal g.flagBuild w
      match grantVal wt.cond wt.n (bit w 62) v with
      | some v' =>
        let g := g.note o.phys w o.op o.val o.step (v' != v)
        if v' = v then (begun (g.outcome wt ST.OK))
        else
          let g := g.setObj o.phys (setVal g.flagBuild w v')
          match o.path with
          | .door r => g.startPass o.phys [wt] [(r, ST.OK)]
          | _ => (if asSeq then g.onSeq o.ctx (fun s => { s with busy := false }) else g).startPass o.phys [wt]
      | none =>
        let g := g.note o.phys w o.op o.val o.step false
        begun (g.onSo (fun e => { e with waiters := insertWaiter wt e.waiters }))

/-- A signal operation or FLAG_MODE applied (R173, R183, R198, R199): a pass runs only in ACTIVE, when the value changes, and
after FLAG_SET always. -/
def Garja.applySignal (g : Garja) (o : SoOp) : Garja :=
  let w := g.obj o.phys
  let (w', sat) := opEffect o.op o.val w
  let g := g.note o.phys w o.op o.val o.step (w != w')
  let g := g.setObj o.phys w'
  let g := if sat then g.saturated o w w' else g
  let g := g.opEnd o (if sat then ST.SATURATED else ST.OK)
  let f := g.flagBuild
  let pass := o.op != OP.FLAG_MODE && (objVal f w != objVal f w' || o.op == OP.FLAG_SET)
  if pass && g.ctxState o.ctx == 1 then g.startPass o.phys else g

/-- SEM_TRY and FLAG_TRY applied. -/
def Garja.applyTry (g : Garja) (o : SoOp) : Garja :=
  let w := g.obj o.phys
  match tryEffect o.op o.val w with
  | none => (g.note o.phys w o.op o.val o.step false).opEnd o ST.BUSY
  | some w' =>
    let g := ((g.note o.phys w o.op o.val o.step (w != w')).setObj o.phys w').opEnd o ST.OK
    if w != w' then g.startPass o.phys else g

/-- A realignment entry applied (R186). -/
def Garja.applyRealign (g : Garja) (o : SoOp) (step : Nat) (check set_ : Bool) : Garja :=
  let f := g.flagBuild
  let w := g.obj o.phys
  let v := objVal f w
  let e := if f then o.val % 2 else o.val
  let g := if check && v != e then
      g.onC (fun c => (c.inc GJ.SO_CNT_RLN_DIFF).raise EV.SO_REALIGN (some o.ctx) (some step) [i32 o.obj, i32 v, i32 e, i8 (b2n set_)])
    else g
  let g := g.onSeq o.ctx (fun s => { s with realignAt := g.c.now })
  if set_ then
    let w' := setVal f w e
    let g := (g.note o.phys w realignCode e none (w != w')).setObj o.phys w'
    if v != e && g.ctxState o.ctx == 1 then g.startPass o.phys else g
  else g

/-- An object-window write applied (R189, R190). -/
def Garja.applyWindow (g : Garja) (o : SoOp) (r : Requester) : Garja :=
  let st := g.ctxState o.ctx
  if st == 0 then g.opEnd o ST.NOCTX
  else if st != 1 && st != 2 then g.opEnd o ST.DENIED
  else
    let f := g.flagBuild
    let old := g.obj o.phys
    let new := w64 ((natBits o.val 63 62) * 2 ^ 62 + (if f then o.val % 2 else natBits o.val 31 0))
    let nw := (g.waitersOn o.phys).length
    let g := (g.setObj o.phys new).rebase o.phys new
    let g := g.onC (fun c => (c.inc GJ.SO_CNT_HAND).raise EV.SO_HAND_SET (some o.ctx) none
      [i32 o.obj, i64 (setBits old 61 48 nw).toNat, i64 (setBits new 61 48 nw).toNat, i8 (ownerCode r)])
    let g := g.opEnd o ST.OK
    if objVal f old != objVal f new && st == 1 then g.startPass o.phys else g

/-- A timeout applied (R181, R182): a grant taken earlier has already ended the wait. -/
def Garja.applyTimeout (g : Garja) (slot : Nat) : Garja :=
  match g.so.waiters.find? (fun w => w.slot == slot) with
  | none => g
  | some w =>
    if w.parked then g
    else
      let kind := if slot < 4096 then 0 else if slot < 4352 then 1 else 2
      let v := objVal g.flagBuild (g.obj w.phys)
      let g := g.finish w ST.TIMEOUT
      g.onC (fun c => (c.inc GJ.SO_CNT_TMO).raise EV.SO_TIMEOUT (some w.ctx) (some (c.rd GJ.SQ_CTX_STATE_STEP w.ctx))
        [i32 w.obj, i8 kind, i16 slot, i8 w.cond, i32 w.n, i32 v, i32 w.stamp])

/-- One operation applied. Its checks of R169 were made when it was accepted; what the context no longer accepts is answered
DENIED here (R198, R201). -/
def Garja.applyOp (g : Garja) (o : SoOp) : Garja :=
  let st := g.ctxState o.ctx
  match o.path with
  | .timeout slot => g.applyTimeout slot
  | .window r => g.applyWindow o r
  | .realign step check set_ => if st == 1 then g.applyRealign o step check set_ else g
  | _ =>
    if isSignal o.op then
      if st == 2 && g.c.flag GJ.CTX_STATE_FROZEN o.ctx then g.opEnd o ST.DENIED
      else if st == 0 || st == 4 then g.opEnd o ST.DENIED
      else g.applySignal o
    else if st != 1 then g.opEnd o ST.DENIED
    else if isWait o.op then g.applyWait o
    else if o.op == OP.FLAG_MODE then g.applySignal o
    else g.applyTry o

/-! ### The intake (R177) -/

/-- Rank of a source, and its order among operations of that source. -/
def SoOp.rank (o : SoOp) : Nat :=
  match o.path with
  | .realign _ _ _ => 0
  | .seq => 0x1000 + o.ctx
  | .void => 0x1000 + o.ctx
  | .tap n => 0x2000 + n
  | .sig p => 0x3000 + p
  | .door _ => 0x4000
  | .window _ => 0x5000
  | .timeout _ => 0x6000

def insertOp (o : SoOp) : List SoOp → List SoOp
  | [] => [o]
  | a :: l => if o.rank < a.rank then o :: a :: l else a :: insertOp o l

/-- A stage set is being applied (R284). -/
def Chip.applying (c : Chip pt) : Bool := c.stage.any (fun s => s.applying.isSome)

/-- Entries of the undo log that the operation may need: whether it would change the word. -/
def Garja.wouldChange (g : Garja) (o : SoOp) : Bool :=
  let w := g.obj o.phys
  match o.path with
  | .realign _ _ set_ => set_ && objVal g.flagBuild w != (if g.flagBuild then o.val % 2 else o.val)
  | .window _ => true
  | .timeout _ => false
  | _ =>
    if isWait o.op then
      let v := objVal g.flagBuild w
      match grantVal (condOf o.op) o.val (bit w 62) v with
      | some v' => v' != v
      | none => false
    else if isSignal o.op || o.op == OP.FLAG_MODE then (opEffect o.op o.val w).1 != w
    else match tryEffect o.op o.val w with
      | some w' => w' != w
      | none => false

/-- The operation waits for a later edge (R173, R177, R196, R268, R284). -/
def Garja.opBlocked (g : Garja) (o : SoOp) : Bool :=
  g.so.passes.any (fun p => p.phys == o.phys) || g.c.applying || (g.run o.ctx).due.isSome
    || (decide (g.so.passes.length ≥ 4) && g.wouldChange o)
    || (match o.path with
        | .window _ => false
        | .timeout _ => false
        | _ => decide (g.fox.undo.length + g.undoNeed o.phys o.step (g.wouldChange o) > 4096))

/-- The intake taken once in its order: an operation whose object an earlier one still waits for waits as well. -/
def Garja.intakeGo (g : Garja) : List SoOp → List SoOp → List Nat → Garja
  | [], kept, _ => g.onSo (fun e => { e with intake := kept })
  | o :: l, kept, blocked =>
    if blocked.contains o.phys || g.opBlocked o then g.intakeGo l (kept ++ [o]) (o.phys :: blocked)
    else (g.applyOp o).intakeGo l kept blocked

def Garja.intake (g : Garja) : Garja := g.intakeGo g.so.intake [] []

/-- An operation enters the engine. -/
def Garja.submit (g : Garja) (o : SoOp) : Garja :=
  (g.onSo (fun e => { e with intake := insertOp o e.intake })).intake

/-! ### Checks (R165, R167 to R170, R198) -/

/-- What R198 gives for an operation in a state, at acceptance; OK where the operation may go on. -/
def Garja.stateCheck (g : Garja) (x op : Nat) : Nat :=
  let st := g.ctxState x
  if st == 1 then ST.OK
  else if st == 2 && isSignal op && !g.c.flag GJ.CTX_STATE_FROZEN x then ST.OK
  else ST.DENIED

/-- Status of an operation at acceptance, in the order of R169 down to BADPARAM. `debug` is the debug path. -/
def Garja.opCheck (g : Garja) (okOp : Bool) (x gen op obj : Nat) (rsv : Bool) (debug : Bool) : Nat :=
  if !okOp || !opOfBuild g.flagBuild op then ST.BADOP
  else if g.ctxState x == 0 then ST.NOCTX
  else if gen != g.c.rd GJ.CTX_STATE_CUR x then ST.STALE_GEN
  else if g.stateCheck x op != ST.OK || (debug && isWait op) then ST.DENIED
  else if rsv || (g.translate x obj).isNone then ST.BADPARAM
  else ST.OK

/-- What the target port answers before it reaches a window (R421, R422), for a window of subsystem s. -/
def Chip.partSubs (c : Chip pt) (part : Nat) : List Nat :=
  match c.part, part with
  | .garja, 0 => [4, 5, 6]
  | .garja, 1 => [7]
  | .garja, 2 => [2, 3]
  | .garja, 3 => [8]
  | .elzel, 0 => [11]
  | .elzel, 1 => [12, 13]
  | .elzel, 2 => [14]
  | .elzel, 3 => [15]
  | _, _ => []

/-- Subsystem s is held in reset (R376, R377). -/
def Chip.subHeld (c : Chip pt) (s : Nat) : Bool :=
  match c.den.run with
  | none => false
  | some r =>
    !r.capturing && (match r.level with
      | 0 => r.sub == s
      | 2 => (c.partSubs r.part).contains s
      | 3 => true
      | 4 => c.den.dead
      | _ => false)

/-- The refusal of the target port for a requester (R421, R422). -/
def Garja.portRefuse (g : Garja) (r : Requester) (s : Nat) : Option Nat :=
  if g.c.subHeld s then some ST.BUSY
  else match r with
    | .proc p => if p.toNat ≥ g.c.prm.nProc then some ST.DENIED else none
    | .tile t =>
      match g.smap with
      | some l => if l.taken && l.tiles.contains t.toNat then some ST.BUSY else none
      | none => none
    | .debug => none
    | .elzel => some ST.DENIED
    | .host => some ST.DENIED

/-- A target-port request wakes a die in NAP or BURROW (R310). -/
def Garja.portWake (g : Garja) : Garja := g.onC (·.wake 1)

/-- Function i of GJ_FN_CTL takes requests (R208): it is enabled and does not drain. -/
def Chip.fnOn (c : Chip pt) (i : Nat) : Bool := bit (c.get GJ.FN_CTL) (63 - i) && bits (c.get GJ.FN_STATUS) (63 - 2 * i) (62 - 2 * i) != 1

/-- A doorbell write (R168, R169, R208). -/
def Garja.doorbell (g : Garja) (r : Requester) (x op : Nat) (data : Word) : Garja :=
  let g := g.portWake
  match g.portRefuse r 4 with
  | some st => g.answer r st
  | none =>
    let obj := bits data 16 0
    let to_ := bits data 23 20
    let debug := r == .debug
    let rsv := bits data 19 17 != 0 || (!isWait op && to_ != 0)
    let val := if op == OP.FLAG_SET || op == OP.FLAG_CLR || op == OP.FLAG_TRY || op == OP.WAIT_FLAG then 0 else bits data 55 24
    let st := g.opCheck true x (bits data 63 56) op obj rsv debug
    let st := if (st == ST.OK || st == ST.BADPARAM) && !g.c.fnOn 0 then ST.DENIED else st
    let o : SoOp := { path := .door r, ctx := x, obj := obj, phys := (g.translate x obj).getD 0, op := op, val := val,
                      to_ := to_, step := g.tagOf x }
    if st == ST.OK then g.submit o else g.opEnd o st

/-- The checks of R24, before those of R169: the chip, then the object range of the build and the RSV bits. -/
def Garja.signalPre (g : Garja) (addr : Word) : Nat :=
  if !g.c.flag GJ.CHIP_VALID || bits addr 42 25 != g.c.rd GJ.CHIP_CHIP then ST.NOCTX
  else if bits addr 55 43 != 0 || decide (bits addr 16 0 ≥ g.objCount) then ST.BADPARAM
  else ST.OK

/-- The status of a signal by tap or SIG (R24, R170), from its address word and OP. -/
def Garja.signalCheck (g : Garja) (addr : Word) (op : Nat) : Nat :=
  if g.signalPre addr != ST.OK then g.signalPre addr
  else g.opCheck (isSignal op) (bits addr 24 17) (bits addr 63 56) op (bits addr 16 0) false false

def Garja.signalOp (g : Garja) (path : OpPath) (addr : Word) (op val : Nat) : SoOp :=
  let x := bits addr 24 17
  { path := path, ctx := x, obj := bits addr 16 0, phys := (g.translate x (bits addr 16 0)).getD 0, op := op, val := val }

/-- An operation of a sequencer (R250, R252): no generation is carried. -/
def Garja.seqOp (g : Garja) (x op obj val to_ : Nat) : Garja :=
  let st := if !opOfBuild g.flagBuild op then ST.BADOP
    else if g.ctxState x != 1 then ST.DENIED
    else if (g.translate x obj).isNone then ST.BADPARAM else ST.OK
  let o : SoOp := { path := .seq, ctx := x, obj := obj, phys := (g.translate x obj).getD 0, op := op, val := val, to_ := to_,
                    step := g.tagOf x }
  if st == ST.OK then (g.onSeq x (fun s => { s with busy := true })).submit o else g.opEnd o st

/-! ### Taps (R184, R199, R430, R431) -/

def Garja.tap (g : Garja) (n : Nat) : Tap := (g.taps[n]?).getD {}
def Garja.onTap (g : Garja) (n : Nat) (f : Tap → Tap) : Garja := { g with taps := upd g.taps n f }
def Garja.tapBuilt (g : Garja) (n : Nat) : Bool := (g.c.rd GJ.SO_TAP_PRESENT).testBit n
/-- OPEN: the tap is built and on (R184, R208). -/
def Garja.tapOpen (g : Garja) (n : Nat) : Bool := g.tapBuilt n && (g.c.rd GJ.SO_TAP_EN).testBit n && (bits (g.c.get 0x7028) (25 + 2 * n) (24 + 2 * n) == 0)

/-- Garja sees VALID: the signal is presented (R430). -/
def Garja.tapPresent (g : Garja) (n : Nat) (addr : Word) (op val : Nat) : Garja :=
  let t := g.tap n
  if g.tapOpen n && t.sig.isNone && !t.done then g.onTap n (fun t => { t with sig := some { addr := addr, op := op, val := val } }) else g

/-- The signal of a tap applied at its write-acknowledged (R50, R199, R200, R431). -/
def Garja.tapWack (g : Garja) (n : Nat) (err : Bool) : Garja :=
  let t := g.tap n
  match t.sig with
  | none => g
  | some s =>
    if t.done || g.so.intake.any (fun o => o.path == .tap n) then g
    else
      let x := bits s.addr 24 17
      let gone := g.onTap n (fun t => { t with done := true })
      if s.cut then (g.onTap n (fun t => { t with sig := none, done := true })).onC (·.inc GJ.SO_DROP_STALE)
      else if err then gone.onC (·.inc GJ.SO_STATUS_LOST)
      else
        let g := if g.ctxState x == 2 then g.onC (·.wake 3) else g
        let o := g.signalOp (.tap n) s.addr s.op s.val
        let old := s.old && g.ctxState x == 3
        let st := if old then
            (if g.signalPre s.addr != ST.OK then g.signalPre s.addr
             else if !isSignal s.op || !opOfBuild g.flagBuild s.op then ST.BADOP
             else if (g.translate x (bits s.addr 16 0)).isNone then ST.BADPARAM else ST.OK)
          else g.signalCheck s.addr s.op
        if st == ST.OK then g.submit { o with old := old } else g.opEnd o st

/-- VALID low after DONE (R430): the tap is free again. -/
def Garja.tapLow (g : Garja) (n : Nat) : Garja :=
  if (g.tap n).done then g.onTap n (fun _ => {}) else g

/-- VALID falls before DONE: treated as ERR (R431). -/
def Garja.tapEarly (g : Garja) (n : Nat) : Garja :=
  let t := g.tap n
  if t.sig.isSome && !t.done then
    if g.so.intake.any (fun o => o.path == .tap n) then g
    else (g.onTap n (fun _ => {})).onC (·.inc GJ.SO_STATUS_LOST)
  else g

/-! ### Object window (R189) -/

def Garja.windowWrite (g : Garja) (r : Requester) (x obj : Nat) (data : Word) : Garja :=
  let g := g.portWake
  match g.portRefuse r 4 with
  | some st => g.answer r st
  | none =>
    let tile := match r with | .tile _ => true | _ => false
    let st := g.ctxState x
    let stt := if st == 0 then ST.NOCTX
      else if tile || !g.c.fnOn 1 || (st != 1 && st != 2) then ST.DENIED
      else if (g.translate x obj).isNone then ST.BADPARAM else ST.OK
    let o : SoOp := { path := .window r, ctx := x, obj := obj, phys := (g.translate x obj).getD 0, op := 0x1FF, val := data.toNat }
    if stt == ST.OK then g.submit o else g.opEnd o stt

/-- The object window read (R189): the word and the status. -/
def Garja.windowRead (g : Garja) (x obj : Nat) : Word × Nat :=
  if g.ctxState x == 0 then (0, ST.NOCTX)
  else match g.translate x obj with
    | none => (0, ST.BADPARAM)
    | some p => (g.objWord p, ST.OK)

/-- A read of the doorbell window by a tile at OP 0 (R176): NEW clears and the wake wire falls. -/
def Garja.resultRead (g : Garja) (t : Nat) : Garja :=
  g.onSo (fun e => { e with results := sparseSet e.results t (setBits (sparseGet e.results t) 55 55 0) })

/-- GJ_SO_WIDX written: the slot captured (R190). -/
def Garja.capture (g : Garja) (slot : Nat) : Garja :=
  match g.so.waiters.find? (fun w => w.slot == slot) with
  | none => g.onC (fun c => (((c.wr GJ.SO_WIDX_SLOT slot).set GJ.SO_WDATA0 0).set GJ.SO_WDATA1 0).set GJ.SO_WDATA2 0)
  | some w =>
    let kind := if slot < 4096 then 0 else if slot < 4352 then 1 else 2
    let d0 := 2 ^ 63 + put 62 61 kind + put 60 59 w.cond + put 58 58 (b2n w.parked) + put 57 50 w.ctx + put 49 36 slot
      + put 35 33 w.proc + put 16 0 w.obj
    g.onC (fun c => (((c.wr GJ.SO_WIDX_SLOT slot).set GJ.SO_WDATA0 (w64 d0)).set GJ.SO_WDATA1
      (w64 (put 63 32 w.n + put 31 28 w.to_))).set GJ.SO_WDATA2 (w64 (w.deadline.getD 0)))

/-- The timeout of a slot comes due (R181). -/
def Garja.timeoutDue (g : Garja) (slot : Nat) : Garja :=
  match g.so.waiters.find? (fun w => w.slot == slot) with
  | none => g
  | some w =>
    match w.deadline with
    | none => g
    | some d =>
      if w.parked || decide (sdiff 64 g.c.gtInt d < 0) || g.so.intake.any (fun o => o.path == .timeout slot) then g
      else g.submit { path := .timeout slot, ctx := w.ctx, obj := w.obj, phys := w.phys, op := 0x1FE, val := 0 }

/-- ENGINE reset of subsystem 4 (R191): passes under way end with their grants, every other wait ends ABANDONED, and queued
operations are discarded and counted. -/
def Garja.soReset (g : Garja) : Garja :=
  let g := g.so.passes.foldl (fun g p => g.endPass p) g
  let g := g.finishAll (fun _ => true) ST.ABANDONED
  let n := (g.so.intake.filter (fun o => match o.path with | .timeout _ => false | _ => true)).length
  let g := g.so.intake.foldl (fun g o =>
    match o.path with
    | .door r => g.answer r ST.ABANDONED
    | .window r => g.answer r ST.ABANDONED
    | .seq => g.onSeq o.ctx (fun s => { s with busy := false, ended := some (o.op, ST.ABANDONED) })
    | .tap n => g.onTap n (fun t => { t with done := true })
    | _ => g) g
  (g.onSo (fun e => { e with intake := [] })).onC (·.inc GJ.SO_STATUS_LOST 0 n)

end Sys2Proof.Machine
end

