-- ==== Sys2Proof/Machine/Ballast.lean ====
section
/-!
DEFINITION. Sys2Proof/Machine/Ballast.lean: the ballast of Garja (R295 to R299): the fill, the ramp, power ends and GJ_PWR_REQ.
-/
namespace Sys2Proof.Machine

variable {pt : Part}

/-- The fill F (R296). -/
def Garja.fill (g : Garja) : Nat := if g.c.flag GJ.PWR_CFG_FILL_EN && g.bal.filling then g.c.rd GJ.PWR_CFG_WAIT_LVL else 0

/-- The level on GJ_BALLAST (R295, R297): 0 in NAP and BURROW. -/
def Garja.level (g : Garja) : Nat :=
  if g.c.pw.st != .run then 0 else if g.c.flag GJ.PWR_RAMP0_RUN then g.bal.out else g.fill

def Garja.onBal (g : Garja) (f : Ballast → Ballast) : Garja := { g with bal := f g.bal }
def Garja.fillCtx (g : Garja) (x : Nat) : Bool := g.c.rd GJ.PWR_CFG_CTX == x

/-- The die's port in its tree coordinate (R297). -/
def Chip.port6 (c : Chip pt) : Nat := if c.flag GJ.TREE_A_VALID then bits (c.get GJ.TREE_A) 5 0 else bits (c.get GJ.TREE_B) 5 0

/-- The ramp ends (R297). -/
def Garja.rampEnd (g : Garja) : Garja :=
  (g.onC (fun c => (c.wr GJ.PWR_RAMP0_ARM 0).wr GJ.PWR_RAMP0_RUN 0)).onBal (fun b => { b with held := false, made := 0, out := 0 })

def Garja.rampSteps (g : Garja) : Nat :=
  let a := g.c.rd GJ.PWR_RAMP0_FROM
  let b := g.c.rd GJ.PWR_RAMP0_TO
  if a ≤ b then b - a else a - b

/-- After the last step the ramp ends, or holds TO for the hand-over (R297). A ramp that ends at 0 ends the fill with it, so that a
default ramp leaves no ballast (R298; DEDUCED, log entry 39). -/
def Garja.rampLast (g : Garja) : Garja :=
  if g.bal.made < g.rampSteps then g
  else if g.c.flag GJ.PWR_RAMP0_HANDOVER then g.onBal (fun b => { b with held := true })
  else if g.c.rd GJ.PWR_RAMP0_TO = 0 then g.rampEnd.onBal (fun b => { b with filling := false })
  else g.rampEnd

/-- s0 (R297): the output is FROM and RUN = 1. -/
def Garja.rampBegin (g : Garja) (s0 : Nat) : Garja :=
  ((g.onC (·.wr GJ.PWR_RAMP0_RUN 1)).onBal (fun b =>
    { b with s0 := s0, made := 0, out := g.c.rd GJ.PWR_RAMP0_FROM, held := false })).rampLast

/-- The start condition of an armed ramp (R297). -/
def Garja.rampReady (g : Garja) : Bool :=
  g.c.flag GJ.PWR_RAMP0_ARM && !g.c.flag GJ.PWR_RAMP0_RUN
    && decide (sdiff 64 g.c.gtInt (g.c.rd GJ.PWR_RAMP1_START) ≥ 0)
    && (!g.c.flag GJ.PWR_RAMP0_TRIG || !(g.seq (g.c.rd GJ.PWR_CFG_CTX)).inStep)

/-- The GT ns by which START of an armed ramp has passed. -/
def Garja.rampLate (g : Garja) : Int := sdiff 64 g.c.gtInt (g.c.rd GJ.PWR_RAMP1_START)

/-- START comes to a ramp that was armed before it (R297): with TRIG = 0, s0 is START. -/
def Garja.rampStart (g : Garja) : Garja :=
  if g.rampReady then g.rampBegin (if g.c.flag GJ.PWR_RAMP0_TRIG then g.c.gtInt else g.c.rd GJ.PWR_RAMP1_START) else g

/-- A ramp that has just been armed (R297): one armed after START has passed begins at its arming edge. -/
def Garja.rampArmed (g : Garja) : Garja :=
  if g.rampReady || (g.c.flag GJ.PWR_RAMP0_ARM && !g.c.flag GJ.PWR_RAMP0_RUN && decide (g.rampLate > 0)) then g.rampBegin g.c.gtInt else g

/-- A write of GJ_PWR_RAMP0 (R297): ignored and counted while RUN = 1. A ramp armed after START has passed begins at once. -/
def Garja.rampWrite (g : Garja) (data : Word) : Garja :=
  if g.c.flag GJ.PWR_RAMP0_RUN then g.onC (·.inc GJ.PWR_STATUS_WR_IGN)
  else (g.onC (·.set GJ.PWR_RAMP0 (w64 (natBits data.toNat 63 61 * 2 ^ 61 + natBits data.toNat 59 52 * 2 ^ 52 + natBits data.toNat 23 0)))).rampArmed

/-- DWELL in ns; values below 64 µs act as 64. -/
def Garja.dwellNs (g : Garja) : Nat := max 64 (g.c.rd GJ.PWR_RAMP0_DWELL) * 1000

/-- The next step of the ramp (R297), once its time has come. -/
def Garja.rampStep (g : Garja) : Garja :=
  let due := g.bal.s0 + g.bal.made * g.dwellNs + (g.c.port6 + 1) * g.dwellNs / 64
  if g.c.flag GJ.PWR_RAMP0_RUN && decide (g.bal.made < g.rampSteps) && decide (sdiff 64 g.c.gtInt due ≥ 0) then
    (g.onBal (fun b => { b with made := b.made + 1, out := if g.c.rd GJ.PWR_RAMP0_TO > b.out then b.out + 1 else b.out - 1 })).rampLast
  else g

/-- A launch of context x (R296 to R298). -/
def Garja.balLaunch (g : Garja) (x step : Nat) : Garja :=
  if !g.fillCtx x then g
  else
    let low := decide (g.level < g.c.rd GJ.PWR_CFG_WAIT_LVL)
    let run := g.c.flag GJ.PWR_RAMP0_RUN
    let bad := low || (run && !g.bal.held)
    let g := (if run then g.rampEnd else g).onBal (fun b => { b with filling := false })
    if bad then g.onC (fun c => (c.inc GJ.PWR_STATUS_UNRAMPED).raise EV.PWR_UNRAMPED (some x) (some step) []) else g

/-- An ARRIVE or a squash strobe of context x (R296), and the start of a ramp that waits for the ARRIVE. -/
def Garja.balArrive (g : Garja) (x : Nat) : Garja :=
  if g.fillCtx x then
    let g := g.onBal (fun b => { b with filling := true })
    if g.rampReady then g.rampBegin g.c.gtInt else g
  else g

/-- A default ramp from the current output to 0 (R295, R298). -/
def Garja.defaultRamp (g : Garja) : Garja :=
  let lvl := g.level
  (g.onC (fun c => (c.set GJ.PWR_RAMP0 (w64 (2 ^ 63 + lvl * 2 ^ 56 + c.rd GJ.PWR_CFG_DEF_DWELL))).wr GJ.PWR_RAMP1_START c.gtInt)).rampBegin g.c.gtInt

/-- A power end of context x (R298): an SQ_FAULT or HALT, or leaving ACTIVE. -/
def Garja.powerEnd (g : Garja) (x : Nat) : Garja :=
  if !g.fillCtx x then g
  else
    let g := g.onBal (fun b => { b with filling := true })
    if !g.c.flag GJ.PWR_RAMP0_ARM && decide (g.level > 0) then
      g.defaultRamp.onC (fun c => (c.inc GJ.PWR_STATUS_UNPLANNED).raise EV.PWR_UNPLANNED (some x) none [])
    else g

/-- GJ_PWR_REQ rises (R299): it wakes the die when its wake is enabled (R310). -/
def Garja.pwrRise (g : Garja) : Garja :=
  if g.c.flag GJ.PWR_STATUS_REQ then g else
  let g := (g.onC (·.wr GJ.PWR_STATUS_REQ 1)).onBal (fun b => { b with reqGt := g.c.gtInt })
  if g.c.flag GJ.PST_WAKE_PWR_REQ then g.onC (·.wake 8) else g

/-- The die's slot begins with a request pending (R299): one that was there at the start of the slot. -/
def Garja.pwrSlot (g : Garja) : Garja :=
  let slot := g.c.rd GJ.PWR_CFG_SLOT * 1000
  if g.c.flag GJ.PWR_STATUS_REQ && !g.c.flag GJ.PWR_STATUS_ACK && decide (g.c.gtInt / slot % 64 = g.c.port6) && slot != 0
      && decide (g.bal.reqGt ≤ g.c.gtInt / slot * slot ∨ g.c.gtInt < g.bal.reqGt) then
    g.onC (fun c => (c.wr GJ.PWR_STATUS_ACK 1).inc GJ.PWR_STATUS_ACKS)
  else g

/-- GJ_PWR_REQ falls: ACK falls one TCLK period later. -/
def Garja.pwrFall (g : Garja) : Garja := g.onC (fun c => (c.wr GJ.PWR_STATUS_REQ 0).wr GJ.PWR_STATUS_ACK 0)

/-! ### Meanings -/

/-- A change of Garja unless a failed COLD holds it (R389). -/
def State.onGjLive (s : State) (f : Garja → Garja) : State := s.onGj (fun g => if g.c.den.dead then g else f g)

/-- RAMP_ARM (R297): a write of GJ_PWR_RAMP0. -/
def execRampArm (data : Word) (s : State) : Out := .next (s.onGjLive (fun g => g.portWake.rampWrite data))

/-- RAMP_START (R297). -/
def execRampStart (s : State) : Out := .next (s.onGjLive Garja.rampStart)

/-- RAMP_LEVEL_STEP (R297). -/
def execRampLevelStep (s : State) : Out := .next (s.onGjLive Garja.rampStep)

/-- PWR_REQ_RISE (R299). -/
def execPwrReqRise (s : State) : Out := .next (s.onGjLive Garja.pwrRise)

/-- PWR_SLOT (R299). -/
def execPwrSlot (s : State) : Out := .next (s.onGjLive Garja.pwrSlot)

/-- PWR_REQ_FALL (R299). -/
def execPwrReqFall (s : State) : Out := .next (s.onGjLive Garja.pwrFall)

end Sys2Proof.Machine
end

