-- ==== Sys2Proof/Machine/Fox.lean ====
section
/-!
DEFINITION. Sys2Proof/Machine/Fox.lean: the fox window of Garja (R264 to R273): the hold buffer, the undo log, commit, squash
and restore; and the sequencer's queue of SIG at a port (R252).
-/
namespace Sys2Proof.Machine

variable {pt : Part}

def Garja.onFox (g : Garja) (f : Fox → Fox) : Garja := { g with fox := f g.fox }

/-- A strobe on GJ_SQUASH with its tag on GJ_SPEC_EPOCH (R271). -/
def Garja.strobe (g : Garja) (squash : Bool) (tag : Nat) : Garja :=
  (g.onFox (fun f => { f with strobes := (squash, tag % 4) :: f.strobes })).onC (·.wr GJ.SQ_STATUS_EPOCH (tag % 4))

/-- The barrier port of a context (R135). -/
def Chip.barPort (c : Chip pt) (x : Nat) : Nat := c.rd GJ.BDOM_PORT x

/-- A port's queue has room for a SIG of the sequencer: 16 packets (R252). -/
def Garja.sigRoom (g : Garja) (p : Nat) : Bool := decide ((g.c.link p).txq.sig.length < 16)

/-- A SIG of the sequencer enters the queue of the barrier port, or waits behind those that wait (R252). -/
def Garja.sendSig (g : Garja) (x : Nat) (f : Flit) : Garja :=
  let p := g.c.barPort x
  if (g.seq x).sigs.isEmpty && g.sigRoom p then g.onC (·.send p .sig [f] (some x))
  else g.onSeq x (fun s => { s with sigs := s.sigs ++ [f] })

/-- The SIG of a context that wait enter the queue as entries free. -/
def Garja.drainCtx (g : Garja) (x : Nat) : List Flit → Garja
  | [] => g.onSeq x (fun s => { s with sigs := [] })
  | f :: l =>
    let p := g.c.barPort x
    if g.sigRoom p then (g.onC (·.send p .sig [f] (some x))).drainCtx x l
    else g.onSeq x (fun s => { s with sigs := f :: l })

def Garja.drainSigs (g : Garja) : Garja :=
  (List.range g.seqs.length).foldl (fun g x => if (g.seq x).sigs.isEmpty then g else g.drainCtx x (g.seq x).sigs) g

/-- SQ_MARK (R251): it carries CODE, the step and the PC. -/
def Garja.raiseMark (g : Garja) (x step code pc : Nat) : Garja :=
  g.onC (·.raise EV.SQ_MARK (some x) (some step) [i32 code, i16 pc])

/-- A held entry leaves the hold buffer at its commit (R267, R269). -/
def Garja.letGo (g : Garja) (x step : Nat) : Held → Garja
  | .sig f => g.sendSig x f
  | .mark code pc => g.raiseMark x step code pc

/-- Step t of the fox context x is committed (R269). -/
def Garja.commitStep (g : Garja) (x t : Nat) : Garja :=
  if !g.fox.spec.contains t then g
  else
    let g := g.onFox (fun f =>
      let spec := f.spec.filter (fun u => u != t)
      { f with spec := spec,
               saves := f.saves.filter (fun v => decide (v.step > t)),
               undo := if spec.isEmpty && f.squash.isNone then []
                       else f.undo.map (fun e => if e.step == some t then { e with step := none } else e) })
    let out := (g.fox.hold.filter (fun h => h.1 == t)).map (·.2)
    let g := g.onFox (fun f => { f with hold := f.hold.filter (fun h => h.1 != t) })
    let g := out.foldl (fun g h => g.letGo x t h) g
    (g.strobe false t).intake

/-- A squash is triggered for context x (R270, orders 1 and 2): nothing happens when it has no speculative step. -/
def Garja.squash (g : Garja) (x : Nat) : Garja :=
  match g.c.foxCtx == some x, g.fox.spec with
  | true, first :: rest =>
    let steps := first :: rest
    let g := g.finishAll (fun w => w.ctx == x && (match w.step with | some t => steps.contains t | none => false)) ST.SQUASHED
    let g := g.onFox (fun f => { f with spec := [], squash := some { ctx := x, first := first, steps := steps, at_ := g.c.now } })
    let g := g.onSeq x (fun s => { s with inStep := false })
    (((g.windowClose x).strobe true first).balArrive x).intake
  | _, _ => g

/-- Re-execution of a committed entry on the running word (R270). -/
def reapply (flag : Bool) (e : UndoEntry) (w : Word) : Word :=
  if !e.changed then w
  else if isSignal e.op || e.op == OP.FLAG_MODE then (opEffect e.op e.n w).1
  else if e.op == realignCode then setVal flag w e.n
  else if flag then setVal flag w 0
  else setVal flag w (objVal flag w - e.n)

/-- The word of a touched object after the restore. -/
def restoreWord (flag : Bool) (phys : Nat) : List UndoEntry → Word → Word
  | [], w => w
  | e :: l, w =>
    if e.phys != phys then restoreWord flag phys l w
    else if e.base then restoreWord flag phys l (w64 e.word)
    else if e.step.isNone then restoreWord flag phys l (reapply flag e w)
    else restoreWord flag phys l w

/-- Numbers in ascending order, each once. -/
def insertNat (n : Nat) : List Nat → List Nat
  | [] => [n]
  | a :: l => if n < a then n :: a :: l else if n == a then a :: l else a :: insertNat n l
def sortNat (l : List Nat) : List Nat := l.foldr insertNat []

/-- The restore (R270, orders 4 and 5), once SQUASH_NS has passed after the strobe. -/
def Garja.restore (g : Garja) (x : Nat) : Garja :=
  match g.fox.squash with
  | none => g
  | some q =>
    if q.ctx != x || decide (g.c.now < q.at_ + 3 + g.c.rd GJ.SQ_CFG_SQUASH_NS) then g
    else
      let log := g.fox.undo
      let gone := (g.fox.hold.filter (fun h => q.steps.contains h.1)).length
      let back := (log.filter (fun e => e.base || e.step.isNone)).length
      let touched := sortNat ((log.filter (·.base)).map (·.phys))
      let g := touched.foldl (fun g p => g.setObj p (restoreWord g.flagBuild p log (g.obj p))) g
      let g := g.onFox (fun f =>
        { f with undo := [], squash := none, hold := f.hold.filter (fun h => !q.steps.contains h.1) })
      let g := g.onC (fun c => (c.inc GJ.SQ_CNT_SQUASH).raise EV.SQ_SQUASH (some x) (some q.first)
        [i8 q.steps.length, i16 back, i16 (log.length - back), i16 gone])
      g.intake

/-- Teardown of the fox context (R197, R270): its speculative steps, the log and the hold buffer are discarded, nothing is
restored. -/
def Garja.foxDiscard (g : Garja) (x : Nat) : Garja :=
  if g.c.foxCtx == some x then
    g.onFox (fun f => { f with launched := none, spec := [], saves := [], undo := [], hold := [], squash := none })
  else g

/-- SQUASH_RESTORE (R270). -/
def execSquashRestore (ctx : BitVec 8) (s : State) : Out := .next (s.onGj (·.restore ctx.toNat))

end Sys2Proof.Machine
end

