-- ==== Sys2Proof/Machine/Locks.lean ====
section
/-!
DEFINITION. Sys2Proof/Machine/Locks.lean: the locks of stage sets (R282) and the fence (R285), as other units see them.
-/
namespace Sys2Proof.Machine

variable {pt : Part}

/-- Stage sets of a part (R277). -/
def Chip.nSets (c : Chip pt) : Nat := match c.part with | .garja => 4 | .elzel => 16
/-- State of a set: 0 FREE, 1 OPEN, 2 PREPARED, 3 COMMITTED, 4 FENCED. -/
def Chip.setState (c : Chip pt) (k : Nat) : Nat := c.rd (PT.STG_S_W0_STATE pt) k
def Chip.stageAt (c : Chip pt) (k : Nat) : StageX := (c.stage[k]?).getD {}

/-- KIND, CMDSEL and OFFSET of an entry (R277). -/
def stgKind (e : StgEntry) : Nat := bits e.w0 63 62
def stgSel (e : StgEntry) : Nat := bits e.w0 55 48
def stgOff (e : StgEntry) : Nat := bits e.w0 47 24
/-- The context that a CMD entry names. -/
def stgCtx (e : StgEntry) : Nat := if stgSel e == 1 then bits e.w2 59 52 else bits e.w1 63 56

/-- Entries that hold locks: those of sets from their ACK until they apply or are aborted (R282). -/
def Chip.lockedEntries (c : Chip pt) : List StgEntry :=
  (List.range c.nSets).flatMap (fun k => if c.setState k ≥ 2 then (c.stageAt k).entries else [])

/-- A register is locked. -/
def Chip.regLocked (c : Chip pt) (off : Nat) : Bool := c.lockedEntries.any (fun e => stgKind e == 0 && stgOff e == off)
/-- A context is locked. -/
def Chip.ctxLocked (c : Chip pt) (x : Nat) : Bool := c.lockedEntries.any (fun e => stgKind e == 1 && stgCtx e == x)
/-- What is refused because of a lock is counted (R282). -/
def Chip.stgIgn (c : Chip pt) : Chip pt := c.inc (PT.STG_CNT_WR_IGN pt)

/-- A fence holds launches: a set is FENCED, or was FENCED and waits for its application point (R285). -/
def Chip.fenced (c : Chip pt) : Bool := (List.range c.nSets).any (fun k => c.setState k == 4 || (c.setState k == 3 && (c.stageAt k).wasFenced))

/-- A set scoped to context x is being applied (R284). -/
def Chip.applyingTo (c : Chip pt) (x : Nat) : Bool :=
  (List.range c.nSets).any (fun k => (c.stageAt k).applying.isSome && c.flag (PT.STG_S_W0_SCOPED pt) k
    && c.rd GJ.STG_S_W0_SCOPE k == x)

end Sys2Proof.Machine
end

