-- ==== Sys2Proof/Machine/Reply.lean ====
section
/-!
DEFINITION. Sys2Proof/Machine/Reply.lean: taking a command and answering it (R340 to R343, R345, R350, R351).
-/
namespace Sys2Proof.Machine

variable {pt : Part}

/-- Words as body flits, two to a flit. -/
def flitsOf : List Word → List Flit
  | [] => []
  | [a] => [a ++ (0 : Word)]
  | a :: b :: l => (a ++ b) :: flitsOf l

/-- Body flits as words. -/
def wordsOf (l : List Flit) : List Word := l.flatMap (fun f => [w64 (bits f 127 64), w64 (bits f 63 0)])

/-- A body made a whole number of 16-byte units (R340). -/
def padEven (l : List Word) : List Word := if l.length % 2 = 0 then l else l ++ [0]

/-- A reply: its header (R341) and body. -/
def replyWords (o : Order) (opcode status detail index stamp : Nat) (body : List Word) : List Word :=
  let body := padEven body
  [w64 (put 63 56 opcode + put 55 48 o.lvl.toNat + put 47 32 o.tag.toNat + put 31 26 (body.length / 2) + put 25 18 status),
   w64 (put 63 48 detail + put 47 32 index + put 31 0 stamp)] ++ body

/-- A REPLY packet (R345, R91): it takes TAG and ROUTED of its command and goes back to its SRC. -/
def Chip.replyPkt (c : Chip pt) (p : Nat) (o : Order) (ws : List Word) : Pkt :=
  let body := flitsOf ws
  Mgmt.flit { len := body.length, cls := 5, routed := o.routed, up := decide (p ≥ 64) || pt == .garja, level := if !o.routed then 0 else if decide (p ≥ 64) || pt == .garja then 3 else 1,
              dst := o.sender.toNat, src := c.srcCoord p, tag := o.tag.toNat, lvl := o.lvl.toNat } :: body

/-- The words of a reply sent back along the command's path: to its completion queue, or on its port (R338, R343). -/
def Chip.sendReply (c : Chip pt) (o : Order) (ws : List Word) : Chip pt :=
  match o.src with
  | .queue q =>
    if c.flag (PT.QP_CFG_EN pt) q.toNat then
      { c with cmd := { c.cmd with replies := c.cmd.replies ++ [{ q := q.toNat, words := ws }] } }
    else c.inc (PT.QP_CFG_CQ_DROP pt) q.toNat
  | .port p => c.send p.toNat .mgmt (c.replyPkt p.toNat o ws)

/-- What GJ_CMD_STATUS counts of a reply. -/
def Chip.countReply (c : Chip pt) (status : Nat) : Chip pt :=
  match c.part with
  | .elzel => c
  | .garja =>
    let c := if status == ST.OK || status == ST.SATURATED || status == ST.ADMIT_DEFERRED then c else c.inc GJ.CMD_STATUS_REFUSED
    if status == ST.ABANDONED then c.inc GJ.CMD_STATUS_ABANDONED else c

/-- A command is answered: exactly one reply. STAMP is that of the unit which executed it: its own, or the one that a reply of another
unit brought. -/
def Chip.reply (c : Chip pt) (o : Order) (opcode status : Nat) (detail index : Nat := 0) (body : List Word := []) (stamp : Option Nat := none) : Chip pt :=
  let c := (c.sendReply o (replyWords o opcode status detail index (stamp.getD c.stamp) body)).countReply status
  { c with cmd := { c.cmd with open_ := c.cmd.open_.erase o } }

/-- A command is taken and waits for its answer. -/
def Chip.takeCmd (c : Chip pt) (o : Order) : Chip pt := { c with cmd := { c.cmd with open_ := c.cmd.open_ ++ [o] } }

end Sys2Proof.Machine
end

