-- ==== Sys2Proof/Machine/Seq.lean ====
section
/-!
DEFINITION. Sys2Proof/Machine/Seq.lean: the step sequencer of Garja (R249 to R263, R273 to R275): faults, launches, releases,
START and what a context does when an operation it waited for ends.
-/
namespace Sys2Proof.Machine

/-! ### Access -/

def Garja.sqState (g : Garja) (x : Nat) : Nat := g.c.rd GJ.SQ_CTX_STATE_STATE x
def Garja.setSq (g : Garja) (x v : Nat) : Garja := g.onC (·.wr GJ.SQ_CTX_STATE_STATE v x)
def Garja.pc (g : Garja) (x : Nat) : Nat := g.c.rd GJ.SQ_CTX_STATE_PC x
def Garja.setPc (g : Garja) (x v : Nat) : Garja := g.onC (·.wr GJ.SQ_CTX_STATE_PC v x)

/-- The PC moves to the next instruction; past 4,095 it is outside every code range (R254). -/
def Garja.nextPc (g : Garja) (x : Nat) : Garja :=
  if g.pc x = 4095 then (g.setPc x 0).onSeq x (fun s => { s with pcOver := true }) else g.setPc x (g.pc x + 1)
def Garja.jumpPc (g : Garja) (x pc : Nat) : Garja := (g.setPc x pc).onSeq x (fun s => { s with pcOver := false })

/-- The grid point of step t (R255). -/
def Garja.grid (g : Garja) (x t : Nat) : Nat := (g.c.rd GJ.SQ_CTX_ANCHOR_ANCHOR x + t * g.c.rd GJ.SQ_CTX_CFG_PERIOD x) % 2 ^ 64

/-- Reproducible mode (R274). -/
def Garja.repro (g : Garja) (x : Nat) : Bool :=
  g.c.flag GJ.TB_STATUS_CLKFIX_ACT && g.c.rd GJ.SQ_CTX_CFG_FOX x == 0 && g.c.flag GJ.PST_CTL_PIN

/-- The state of R263 that a change of the sequencer's makes: a stopped sequencer records it (R273). -/
def Garja.moveSq (g : Garja) (x v : Nat) : Garja :=
  if g.sqState x == 5 then g.onSeq x (fun s => { s with saved := v }) else g.setSq x v

/-! ### Faults (R262) -/

/-- A fault of context x, with its reason and the STATUS of a RELEASE. -/
def Garja.seqFault (g : Garja) (x reason : Nat) (status : Nat := 0) : Garja :=
  let st := g.sqState x
  if st == 0 || st == 6 || (st == 5 && (g.seq x).saved == 6) then g
  else
    let g := (g.squash x).windowClose x
    let g := g.onSeq x (fun s => { s with await_ := false, waiting := false, ended := none, br := none, inStep := false })
    let g := g.moveSq x 6
    let g := g.onC (fun c => ((c.inc GJ.SQ_CNT_FAULT).raise EV.SQ_FAULT (some x) (some (c.rd GJ.SQ_CTX_STATE_STEP x))
      [i16 (g.seq x).ipc, i8 status, i8 reason]).latchIrq 4)
    g.powerEnd x

/-- A local deadline of the current step is missed (R260). -/
def Garja.localMiss (g : Garja) (x step : Nat) : Garja :=
  let st := g.sqState x
  if st == 0 || st == 6 || g.stepOf x != step then g
  else match (g.seq x).cls with
    | 1 => g.onSeq x (fun s => { s with firm := some (max step (s.firm.getD 0)) })
    | 2 => g.seqFault x 2
    | _ => g

/-! ### Launch (R257 to R259, R264) -/

/-- R264 permits step t of context x to launch speculatively. -/
def Garja.specOk (g : Garja) (x t : Nat) : Bool :=
  let s := g.seq x
  match s.unrel with
  | [] => false
  | (u, _) :: _ =>
    let per := g.c.rd GJ.SO_RLN_CTX_PERIOD x
    decide (t ≤ u + g.c.rd GJ.SQ_CTX_CFG_FOX x) && !s.nospec && !(per != 0 && t % per == 0)
      && (match s.firm with | some f => decide (f < u) | none => true)
      && decide (4096 - g.fox.undo.length ≥ g.c.rd GJ.SQ_CFG_UNDO_RSV)
      && decide (1024 - g.fox.hold.length ≥ g.c.rd GJ.SQ_CFG_HOLD_RSV)
      && (g.run x).park.isNone

/-- The launch time T of the STEP under way, and whether the launch is speculative (R257); none while it needs a RELEASE that
has not been taken. -/
def Garja.launchT (g : Garja) (x : Nat) : Option (Nat × Bool) :=
  let s := g.seq x
  let t := g.stepOf x
  if !s.await_ then none
  else if s.first then some (g.grid x t, false)
  else match s.rels.find? (fun r => r.step + 1 == t) with
    | some r => some (r.tl, false)
    | none => if g.specOk x t then some (g.grid x t, true) else none

/-- Realignment entries of a context wait in the intake. -/
def Garja.realigning (g : Garja) (x : Nat) : Bool :=
  g.so.intake.any (fun o => o.ctx == x && (match o.path with | .realign _ _ _ => true | _ => false))

/-- The lock state permits a launch of x (R37): LOCKED, or HOLDOVER within the budget (R118). -/
def Garja.lockOk (g : Garja) (x : Nat) : Bool :=
  g.c.lock == 2 || (g.c.lock == 3 && g.c.rd GJ.HOLD_BUDGET_BUDGET x != 0)
/-- x is not PAUSED, and EFF_TIME does not exceed its budget (R118). -/
def Garja.pauseOk (g : Garja) (x : Nat) : Bool :=
  !g.c.flag GJ.HOLD_BUDGET_PAUSED x && decide (g.c.effTime ≤ g.c.rd GJ.HOLD_BUDGET_BUDGET x)

/-- Codes of R259 of the conditions that fail for x at this edge, the group rule apart. -/
def Garja.launchFails (g : Garja) (x : Nat) : List Nat :=
  (if g.lockOk x then [] else [2]) ++ (if g.pauseOk x then [] else [3])
    ++ (if g.c.now < g.c.tb.settleUntil then [4] else []) ++ (if g.realigning x then [5] else [])
    ++ (if g.c.fenced || g.c.applyingTo x then [6] else [])

/-- Launch time reached: the context waits for its launch and the GT integer is at or after T. -/
def Garja.launchDue (g : Garja) (x : Nat) : Option (Nat × Bool) :=
  if g.ctxState x != 1 || (g.run x).park.isSome || (g.sqState x != 3 && g.sqState x != 4) || g.c.pw.st != .run then none
  else match g.launchT x with
    | some (t, sp) => if sdiff 64 g.c.gtInt t ≥ 0 then some (t, sp) else none
    | none => none

/-- The groups of R258 keep x back: a launch at this edge, or one due of a lower context, has a group in common. -/
def Garja.groupBusy (g : Garja) (x : Nat) : Bool :=
  let m := (g.seq x).mask
  (match g.launch with
    | some (w, t) => t == g.c.gtInt && Nat.land w.toNat m != 0
    | none => false)
    || (List.range x).any (fun y => Nat.land (g.seq y).mask m != 0 && (g.launchDue y).isSome && (g.launchFails y).isEmpty)

/-- The cause of a late launch (R259): the condition met last, the lowest code among those met together. -/
def Garja.lateCause (g : Garja) (x : Nat) : Nat :=
  let s := g.seq x
  let l := [(1, s.relAt), (2, g.c.pw.lockedAt), (3, g.c.tb.resumedAt), (4, g.c.tb.settleUntil), (5, s.realignAt), (6, s.workAt), (7, s.groupAt)]
  (l.foldl (fun b e => if e.2 > b.2 then e else b) (1, s.relAt)).1

/-- LAUNCH_LATE (R259). -/
def Garja.launchLate (g : Garja) (x t gt cause : Nat) : Garja :=
  g.onC (fun c => (c.inc GJ.SQ_CNT_LATE).raise EV.LAUNCH_LATE (some x) (some (c.rd GJ.SQ_CTX_STATE_STEP x)) [i64 t, i64 gt, i8 cause])

/-- The launching context breaks the rule of R265. -/
def Garja.groupWrong (g : Garja) (x : Nat) : Bool :=
  let m := (g.seq x).mask
  let fg := g.c.rd GJ.SQ_FOXGRP_GROUPS
  match g.c.foxCtx with
  | none => false
  | some f => if f == x then Nat.land m (2 ^ 64 - 1 - fg) != 0 else Nat.land m fg != 0

/-- What a launch of the fox context does to the window (R265, R269, R271, R273). -/
def Garja.foxLaunch (g : Garja) (x t : Nat) (spec : Bool) : Garja :=
  if g.c.foxCtx != some x then g
  else
    let s := g.seq x
    let g := g.onFox (fun f =>
      { f with launched := some t, spec := if spec then f.spec ++ [t] else f.spec,
               saves := { step := t, pc := s.stepPc, lc := s.lc, try_ := s.try_ } :: f.saves })
    let g := g.onC (·.wr GJ.SQ_STATUS_EPOCH (t % 4))
    if spec then g.onC (·.inc GJ.SQ_CNT_SPEC) else g.strobe false t

/-- The launch fires (R258). -/
def Garja.fire (g : Garja) (x t : Nat) (spec : Bool) : Garja :=
  let step := g.stepOf x
  let late := decide (sdiff 64 g.c.gtInt t > 1)
  let g := if late then g.launchLate x t g.c.gtInt (g.lateCause x) else g
  let g := { g with launch := some (w64 (g.seq x).mask, g.c.gtInt) }
  let g := g.foxLaunch x step spec
  let g := g.onSeq x (fun s => { s with await_ := false, first := false, inStep := true, launchGt := g.c.gtInt, dlDone := false })
  let g := ((g.setSq x 1).windowOpen x step).balLaunch x step
  if late then g.localMiss x step else g

/-- LAUNCH (R257): no effect while a condition fails; a HARD step more than 1 ns late does not launch (R260). -/
def Garja.launchStep (g : Garja) (x : Nat) : Garja :=
  match g.launchDue x with
  | none => g
  | some (t, spec) =>
    if !(g.launchFails x).isEmpty then g
    else if g.groupBusy x then g.onSeq x (fun s => { s with groupAt := g.c.now + 1 })
    else if g.groupWrong x then g.seqFault x 9
    else if (g.seq x).cls == 2 && decide (sdiff 64 g.c.gtInt t > 1) then (g.launchLate x t 0 (g.lateCause x)).localMiss x (g.stepOf x)
    else g.fire x t spec

/-- LAUNCH_MISSED (R259, R260): a HARD step that has not launched more than 1 ns after T. -/
def Garja.launchMissed (g : Garja) (x : Nat) : Garja :=
  match g.launchDue x with
  | none => g
  | some (t, _) =>
    if (g.seq x).cls == 2 && decide (sdiff 64 g.c.gtInt t > 1) then
      let cause := match g.launchFails x with
        | a :: _ => a
        | [] => if g.groupBusy x then 7 else g.lateCause x
      (g.launchLate x t 0 cause).localMiss x (g.stepOf x)
    else g

/-! ### What a waiting context does next (R252, R263) -/

/-- A context that awaits its launch is in WAIT_LAUNCH, or in WAIT_REL while the launch needs a RELEASE (R263). -/
def Garja.waitState (g : Garja) (x : Nat) : Garja :=
  if (g.seq x).await_ && (g.sqState x == 1 || g.sqState x == 3 || g.sqState x == 4) then
    g.setSq x (if (g.launchT x).isSome then 3 else 4)
  else g

/-- The end of the operation or wait of context x acted on. -/
def Garja.settleCtx (g : Garja) (x : Nat) : Garja :=
  let s := g.seq x
  let st := g.ctxState x
  match s.ended with
  | none =>
    if s.waiting && !s.busy && g.sqState x == 1 && st == 1 then g.setSq x 2 else g
  | some (op, res) =>
    if st != 1 && st != 2 then g.onSeq x (fun s => { s with ended := none, waiting := false })
    else if g.sqState x == 5 then g
    else
      let g := g.onSeq x (fun s => { s with ended := none, waiting := false })
      if op == 0x200 then
        (if res == ST.OK then (if g.sqState x == 2 then g.setSq x 1 else g)
         else if res == ST.SQUASHED then g
         else g.seqFault x 3)
      else if isWait op then g.seqFault x 4
      else if res == ST.OK || res == ST.SATURATED || res == ST.BUSY then
        (if op == OP.SEM_TRY || op == OP.FLAG_TRY then g.onSeq x (fun s => { s with try_ := res == ST.OK }) else g)
      else g.seqFault x 4

/-- Every context settled. -/
def Garja.settle (g : Garja) : Garja :=
  (List.range g.seqs.length).foldl (fun g x => (g.settleCtx x).waitState x) g

/-! ### Realignment (R186, R187) -/

/-- The realignment entries of a context enter the engine for a step, in ascending order. -/
def Garja.realign (g : Garja) (x step : Nat) : Garja :=
  let base := g.c.rd GJ.SO_RLN_CTX_BASE x
  (List.range (g.c.rd GJ.SO_RLN_CTX_COUNT x)).foldl (fun g i =>
    let e := base + i
    let obj := g.c.rd GJ.SO_RLN_OBJ e
    if e ≥ 512 then g
    else match g.translate x obj with
      | none => g.onC (·.inc GJ.SO_DROP_BADPARAM)
      | some p => g.submit { path := .realign step (g.c.flag GJ.SO_RLN_CHECK e) (g.c.flag GJ.SO_RLN_SET e), ctx := x, obj := obj,
                             phys := p, op := realignCode, val := g.c.rd GJ.SO_RLN_EXPECT e }) g

/-! ### Releases (R254, R261, R269) -/

/-- A BR on P that waited branches or goes on (R254). -/
def Garja.takeBr (g : Garja) (x : Nat) (p : Bool) : Garja :=
  match (g.seq x).br with
  | none => g
  | some (want, target) =>
    let g := g.onSeq x (fun s => { s with br := none })
    (if p == want then g.jumpPc x target else g).moveSq x 1

/-- A RELEASE with OK of the oldest unreleased step taken (R269, R275). -/
def Garja.takeOk (g : Garja) (x step : Nat) (p : Bool) (tl : Nat) : Garja :=
  let g := g.onSeq x (fun s =>
    { s with unrel := s.unrel.drop 1, rels := ({ step := step, p := p, tl := tl } :: s.rels).take 8, relAt := g.c.now })
  let g := g.commitStep x (step + 1)
  let per := g.c.rd GJ.SO_RLN_CTX_PERIOD x
  let g := if per != 0 && (step + 1) % per == 0 then g.realign x (step + 1) else g
  let slip := sdiff 64 tl (g.grid x (step + 1))
  let g := if g.repro x && slip != 0 then
      g.onC (·.raise EV.LAUNCH_SLIP (some x) (some (step + 1)) [s64 slip]) else g
  if (g.seq x).last == some step && g.sqState x != 5 then g.takeBr x p else g

/-- A RELEASE passed to the sequencer (R228, R261, R262). -/
def Garja.seqRelease (g : Garja) (x step status : Nat) (p : Bool) (tl : Nat) : Garja :=
  let s := g.seq x
  let st := g.sqState x
  if (g.ctxState x != 1 && g.ctxState x != 2) || st == 0 || st == 6 then g
  else if s.rels.any (fun r => r.step == step) then g
  else match s.unrel with
    | [] => if status != ST.OK && decide (step ≥ g.stepOf x) then g.seqFault x 1 status else g
    | (u, _) :: _ =>
      if step < u then g
      else if step > u then g.seqFault x 5
      else if status != ST.OK then
        (g.onSeq x (fun s => { s with unrel := s.unrel.drop 1 })).seqFault x 1 status
      else g.takeOk x step p tl

/-- RELWAIT (R261). -/
def Garja.relwait (g : Garja) (x : Nat) : Garja :=
  if (g.ctxState x == 1 || g.ctxState x == 2)
      && (g.seq x).unrel.any (fun e => decide (e.2 + g.c.rd GJ.SQ_CFG_REL_WAIT * 1000 ≤ g.c.now)) then g.seqFault x 6
  else g

/-- DEADLINE_STEP (R260): the ARRIVE has not issued by the launch GT plus DL. -/
def Garja.deadlineStep (g : Garja) (x : Nat) : Garja :=
  let s := g.seq x
  if s.inStep && s.dl != 0 && !s.dlDone && decide (sdiff 64 g.c.gtInt (s.launchGt + s.dl) ≥ 0) then
    let step := g.stepOf x
    ((g.onSeq x (fun s => { s with dlDone := true })).onC (·.raise EV.DEADLINE_STEP (some x) (some step)
      [i64 s.launchGt, i32 s.dl])).localMiss x step
  else g

/-! ### START (R250, R262) -/

/-- START of a context: the status it is answered with (R250, R262, R347). -/
def Garja.startStatus (g : Garja) (x s1 : Nat) : Nat :=
  let cs := g.ctxState x
  let st := g.sqState x
  if cs == 0 then ST.NOCTX
  else if cs != 1 then ST.DENIED
  else if st == 6 || st == 7 then
    match (g.seq x).sent with
    | some t => if s1 ≤ t then ST.BADPARAM else ST.OK
    | none => ST.OK
  else if st != 0 then ST.DENIED
  else ST.OK

/-- START applied: a refused one changes nothing. A restart frees the context's resend-store entries (R262). -/
def Garja.startCtx (g : Garja) (x pc s1 : Nat) : Garja × Nat :=
  let st := g.startStatus x s1
  if st != ST.OK then (g, st)
  else
    let again := g.sqState x != 0
    let g := if again then { g with lane := { g.lane with store := g.lane.store.filter (fun e => e.ctx != x) } } else g
    let g := g.onSeq x (fun s => { nxt := s1, first := true, sent := s.sent, sigs := s.sigs })
    let g := (g.setSq x 1).setPc x pc
    ((g.realign x s1), ST.OK)

/-! ### Meanings -/

/-- LAUNCH (R257). -/
def execLaunch (ctx : BitVec 8) (s : State) : Out := .next (s.onGj (fun g => (g.launchStep ctx.toNat).settle))

/-- LAUNCH_MISSED (R259). -/
def execLaunchMissed (ctx : BitVec 8) (s : State) : Out := .next (s.onGj (fun g => (g.launchMissed ctx.toNat).settle))

/-- DEADLINE_STEP (R260). -/
def execDeadlineStep (ctx : BitVec 8) (s : State) : Out := .next (s.onGj (fun g => (g.deadlineStep ctx.toNat).settle))

/-- RELWAIT (R261). -/
def execRelwait (ctx : BitVec 8) (s : State) : Out := .next (s.onGj (fun g => (g.relwait ctx.toNat).settle))

/-- REGION_TICK (R43, R44, R260): a region that exceeds its slack is a local miss of its step. -/
def execRegionTick (n : BitVec 6) (stretch : Bool) (s : State) : Out :=
  .next (s.onGj (fun g =>
    match g.regionTick n.toNat stretch with
    | (g, some (x, t)) => (g.localMiss x t).settle
    | (g, none) => g))

end Sys2Proof.Machine
end

