-- ==== Sys2Proof/Machine/Lane.lean ====
section
/-!
DEFINITION. Sys2Proof/Machine/Lane.lean: the collective lane of Garja (R136, R211 to R215, R228): building an ARRIVE, the resend
store, and taking a RELEASE and writing its record.
-/
namespace Sys2Proof.Machine

def Garja.onLane (g : Garja) (f : Lane → Lane) : Garja := { g with lane := f g.lane }

/-- The flits of bytes laid as R212 places them: byte b of a payload in flit b / 16, most significant bits first. -/
def flitsOfBytes : Nat → List (BitVec 8) → List Flit
  | 0, _ => []
  | n + 1, bs => f128 (ofBytesBE ((bs ++ List.replicate 16 0).take 16)) :: flitsOfBytes n (bs.drop 16)

/-- The bytes of flits. -/
def bytesOfFlits (fs : List Flit) : List (BitVec 8) := fs.flatMap (fun f => bytesBE 16 f.toNat)

/-- An ARRIVE (R211, R212): SENT is filled in when its first flit is sent. -/
def arrivePkt (ctx bar step fmt : Nat) (digest : Word) (payload : List (BitVec 8)) : Pkt :=
  f128 (put 127 124 2 + put 123 118 (if fmt = 0 then 1 else 5) + put 105 98 ctx + put 97 88 bar + put 87 40 step + put 32 29 fmt
    + put 28 10 1) :: f128 (digest.toNat * 2 ^ 64) :: (if fmt = 0 then [] else flitsOfBytes 4 payload)

def itemCtx (f : Flit) : Nat := bits f 105 98
def itemStep (f : Flit) : Nat := bits f 87 40

/-- Entries of the resend store in ascending step order. -/
def insertStore (e : StoreEnt) : List StoreEnt → List StoreEnt
  | [] => [e]
  | a :: l => if e.step < a.step then e :: a :: l else a :: insertStore e l

/-- A built ARRIVE enters the resend store and the queue of the barrier port (R213). -/
def Garja.sendArrive (g : Garja) (x step : Nat) (pkt : Pkt) : Garja :=
  let g := g.onLane (fun l => { l with store := insertStore { ctx := x, step := step, pkt := pkt } l.store })
  let g := g.onSeq x (fun s => { s with sent := some (max step (s.sent.getD 0)) })
  g.onC (·.send (g.c.barPort x) .bar pkt)

/-- The arrival instruction of context x (R213): the reads of payload and digest start; with FMT NONE and source PORT there is
nothing to read. An ARRIVE that the store holds is not sent again (R273). -/
def Garja.laneStart (g : Garja) (x step bar fmt : Nat) (port : Bool) (idx : Nat) : Garja :=
  if g.lane.store.any (fun e => e.ctx == x && e.step == step) then g
  else
    let addr := (bits (g.c.get (GJ.SQ_CTX_ABASE + 0x20 * x)) 63 6 * 64 + 64 * idx) % 2 ^ 64
    if fmt = 0 && port then g.sendArrive x step (arrivePkt x bar step fmt g.lane.digest [])
    else g.onLane (fun l =>
      { l with reads := l.reads ++ [{ ctx := x, step := step, bar := bar, fmt := fmt, addr := addr,
                                      port := if port then some l.digest else none }] })

/-- The reads of an ARRIVE end (R213). -/
def Garja.readDone (g : Garja) (mem : Mem) (x : Nat) (ok : Bool) : Garja :=
  if g.c.applying then g
  else match takeFirst (fun r => r.ctx == x) g.lane.reads with
  | none => g
  | some (r, rest) =>
    let g := g.onLane (fun l => { l with reads := rest })
    if !ok then
      g.onC (fun c => (c.inc GJ.CL_STATUS_IO_FAULT).raise EV.CL_IO_FAULT (some x) (some r.step) [i64 r.addr])
    else
      let digest := match r.port with
        | some d => d
        | none => memReadWord mem (if r.fmt = 0 then r.addr else r.addr + 64)
      g.sendArrive x r.step (arrivePkt x r.bar r.step r.fmt digest (memReadBytes mem r.addr 64))

/-- Stored ARRIVEs of the contexts of a port that enters UP, resent in ascending step order (R136). -/
def Garja.resendStore (g : Garja) (p : Nat) : Garja :=
  g.lane.store.foldl (fun g e => if g.c.barPort e.ctx == p then g.onC (·.send p .bar e.pkt) else g) g

/-- The switch of a barrier move (R139): PORT and S_EFF, every stored ARRIVE for S_eff and later resent on the new port, BAR_MOVE. -/
def Garja.barSwitch (g : Garja) (x port sEff : Nat) : Garja :=
  let old := g.c.barPort x
  let g := g.onC (fun c => ((c.wr GJ.BDOM_PORT port x).wr GJ.BDOM_PEND 0 x).wr GJ.BDOM_S_EFF sEff x)
  if old == port then g
  else
    let g := g.lane.store.foldl (fun g e => if e.ctx == x && decide (sEff ≤ e.step) then g.onC (·.send port .bar e.pkt) else g) g
    g.onC (·.raise EV.BAR_MOVE (some x) (some sEff) [i8 port])

/-- The release record (R228). -/
def Garja.recordOf (g : Garja) (pkt : Pkt) : List (BitVec 8) :=
  let vals := if flitLen (pkt.headD 0) = 1 then [] else (pkt.drop 2).take 4
  ((bytesOfFlits (pkt.take 2) ++ bytesOfFlits vals ++ List.replicate 96 0).take 96) ++ bytesBE 8 g.c.gtInt ++ List.replicate 24 0

/-- A RELEASE taken from a port (R135, R228). -/
def Garja.takeRelease (g : Garja) (p : Nat) (pkt : Pkt) : Garja :=
  if g.c.applying then g
  else
    let f := pkt.headD 0
    let x := itemCtx f
    let step := itemStep f
    let status := bits f 39 32
    let g := g.onC (·.take p .rel pkt)
    let st := g.ctxState x
    let g := if st == 2 then g.onC (·.wake 2) else g
    if g.c.barPort x != p then g.onC (·.countDir p)
    else if (st != 1 && st != 2)
        || !(g.lane.store.any (fun e => e.ctx == x && e.step == step) || status == ST.TIMEOUT || status == ST.ABANDONED) then
      g.onC (·.inc GJ.CL_STATUS_UNMATCHED)
    else
      let rec_ : RelRecord := { ctx := x, step := step, status := status, p := bit f 31, tl := bits (pkt.getD 1 0) 127 64,
                                addr := bits (g.c.get (GJ.CL_CTX + 8 * x)) 63 7 * 128 + 128 * (step % 4), bytes := g.recordOf pkt }
      g.onLane (fun l =>
        { l with store := l.store.filter (fun e => !(e.ctx == x && e.step == step)), records := l.records ++ [rec_] })

/-- The write of a release record ends (R228, R269): the sequencer takes the RELEASE after it is acknowledged, or after it has
failed twice. -/
def Garja.recordAck (g : Garja) (mem : Mem) (x : Nat) (ok : Bool) : Garja × Mem :=
  if g.c.applying then (g, mem)
  else match takeFirst (fun r => r.ctx == x) g.lane.records with
  | none => (g, mem)
  | some (r, rest) =>
    let pass := fun (g : Garja) => (g.onLane (fun l => { l with records := rest })).seqRelease x r.step r.status r.p r.tl
    if ok then ((pass g).settle, memWriteBytes mem r.addr r.bytes)
    else if r.failed then
      ((pass (g.onC (fun c => (c.inc GJ.CL_STATUS_IO_FAULT).raise EV.CL_IO_FAULT (some x) (some r.step) [i64 r.addr]))).settle, mem)
    else (g.onLane (fun l => { l with records := { r with failed := true } :: rest }), mem)

/-! ### Meanings -/

/-- ARRIVE_READ_DONE (R213). -/
def execArriveReadDone (ctx : BitVec 8) (ok : Bool) (s : State) : Out := .next (s.onGj (fun g => (g.readDone s.dieMem ctx.toNat ok).settle))

/-- RELEASE (R228). -/
def execRelease (p : BitVec 7) (pkt : Pkt) (s : State) : Out :=
  .next (s.onGj (fun g => if p.toNat < 2 then g.takeRelease p.toNat pkt else g))

/-- RELEASE_RECORD_ACK (R228, R269). -/
def execReleaseRecordAck (ctx : BitVec 8) (ok : Bool) (s : State) : Out :=
  let (g, m) := s.gj.recordAck s.dieMem ctx.toNat ok
  .next { s with gj := g, dieMem := m }

/-- DIGEST_VALID_LATCH (R432): GJ_DIGEST sampled with valid. -/
def execDigestValidLatch (digest : Word) (s : State) : Out := .next (s.onGj (·.onLane (fun l => { l with digest := digest })))

end Sys2Proof.Machine
end

