-- ==== Sys2Proof/Machine/Jobs.lean ====
section
/-!
DEFINITION. Sys2Proof/Machine/Jobs.lean: job records, descriptors and banks of an Elzel (R209, R217, R255), the fields of its items
(R211, R215), the job's coordinates in the tree (R12, R17), and what the journal's entries hold (R355 to R357).
-/
namespace Sys2Proof.Machine

variable {pt : Part}

def Elzel.onCmb (e : Elzel) (f : Combiner → Combiner) : Elzel := { e with cmb := f e.cmb }
def Elzel.onMgr (e : Elzel) (f : Mgr → Mgr) : Elzel := { e with mgr := f e.mgr }
def Elzel.onHlt (e : Elzel) (f : Health → Health) : Elzel := { e with mgr := { e.mgr with hlt := f e.mgr.hlt } }

/-! ### Job records -/

/-- Jobs whose record is VALID, ascending. A record resets to zero, so a valid one is listed. -/
def Chip.jobs (c : Chip pt) : List Nat :=
  c.regs.filterMap (fun e => if rowHas 0x100000 0x20 4096 e.1 && bit e.2 63 then some ((e.1 - 0x100000) / 0x20) else none)

def Chip.jobValid (c : Chip pt) (j : Nat) : Bool := c.flag EZ.CMB_JOB_W0_VALID j
def Chip.isApex (c : Chip pt) (j : Nat) : Bool := c.flag EZ.CMB_JOB_W0_APEX j
def Chip.relThru (c : Chip pt) (j : Nat) : Nat := c.rd EZ.CMB_JOB_W2_REL_THRU j
/-- The lowest step of job j whose RELEASE has not been sent: REL_THRU + 1, and 0 for a job that begins with step 0 and has released
none (DEDUCED, R210). -/
def Chip.relNext (c : Chip pt) (j : Nat) : Nat := if c.fresh.contains j then 0 else c.relThru j + 1

/-- The bank that applies to a step (R217). -/
def Chip.bankAt (c : Chip pt) (j step : Nat) : Nat :=
  let b := c.rd EZ.CMB_JOB_W0_BANK j
  if step ≥ c.rd EZ.CMB_JOB_W0_S_EFF j then b else 1 - b

def diesOff (j b p : Nat) : Nat := 0x800000 + 0x400 * j + 0x200 * b + 8 * p
def Chip.diesIn (c : Chip pt) (j b p : Nat) : Nat := bits (c.get (diesOff j b p)) 18 0
/-- DIES[p] of the step's bank, and its member ports. -/
def Chip.dies (c : Chip pt) (j step p : Nat) : Nat := c.diesIn j (c.bankAt j step) p
def Chip.members (c : Chip pt) (j step : Nat) : List Nat := (List.range 64).filter (fun p => c.dies j step p != 0)
def Chip.sumDies (c : Chip pt) (j step : Nat) : Nat := ((List.range 64).map (c.dies j step)).sum

/-- G(s) from EZ_LNC_JOB_j (R255). -/
def Chip.gOf (c : Chip pt) (j step : Nat) : Nat := (c.rd EZ.LNC_JOB_W1_ANCHOR j + step * c.rd EZ.LNC_JOB_W0_PERIOD j) % 2 ^ 64

/-- The descriptor that BAR of job j selects; none at or beyond BAR_CNT, or with VALID = 0 (R209, R214). -/
def Chip.desc (c : Chip pt) (j bar : Nat) : Option Nat :=
  let d := c.rd EZ.CMB_JOB_W1_BAR_BASE j + bar
  if bar < c.rd EZ.CMB_JOB_W1_BAR_CNT j ∧ d < 16384 ∧ c.flag EZ.CMB_BDESC_W0_VALID d then some d else none

/-- Port p serves a member of a valid job, in the bank of its next step (R22, R315). -/
def Chip.portServes (c : Chip pt) (p : Nat) : Bool := c.jobs.any (fun j => c.dies j (c.relNext j) p != 0)
/-- A job has a member in the subtree. -/
def Chip.anyMember (c : Chip pt) : Bool := c.jobs.any (fun j => !(c.members j (c.relNext j)).isEmpty)

/-! ### Items (R211, R215) -/

def itJob (f : Flit) : Nat := bits f 117 106
def itBar (f : Flit) : Nat := bits f 97 88
def itByp (f : Flit) : Bool := bit f 39
def itOrigin (f : Flit) : Nat := bits f 38 33
def itFmt (f : Flit) : Nat := bits f 32 29
def itCount (f : Flit) : Nat := bits f 28 10
def pktDigest (pkt : Pkt) : Word := w64 (bits (pkt.getD 1 0) 127 64)

/-- Bits hi..lo of a flit replaced. -/
def setFlit (f : Flit) (hi lo v : Nat) : Flit := f128 (f.toNat - bits f hi lo * 2 ^ lo + put hi lo v)

/-! ### Places in the tree (R12, R17) -/

/-- The lowest bit of the coordinate field that the part's downstream port number fills. -/
def Chip.portShift (c : Chip pt) : Nat :=
  match c.rd EZ.ROLE_ROLE, c.rd EZ.ROLE_DEPTH with
  | 1, _ => 0
  | 2, _ => 6
  | _, 3 => 12
  | _, 2 => 6
  | _, _ => 0

/-- The coordinate of the child on downstream port p. -/
def Chip.childCoord (c : Chip pt) (p : Nat) : Nat := c.rd EZ.ROLE_PREFIX + p * 2 ^ c.portShift
/-- The part's downstream ports lead to dies: a leaf, or a root of depth 1. -/
def Chip.isLeaf (c : Chip pt) : Bool := c.rd EZ.ROLE_ROLE != 0 && c.portShift == 0
def Chip.isRootA (c : Chip pt) : Bool := c.isRoot && !c.flag EZ.ROLE_DOMAIN

/-- The chip number bound to downstream port p. -/
def Chip.chipAt (c : Chip pt) (p : Nat) : Nat := c.rd EZ.BIND_REPORTED p
/-- The downstream port of a leaf to which a chip is bound (R80). -/
def Chip.portOfChip (c : Chip pt) (chip : Nat) : Option Nat :=
  (List.range 64).find? (fun p => c.flag EZ.BIND_VALID p && c.flag EZ.BIND_SEEN p && !c.flag EZ.BIND_HELD p && !c.flag EZ.BIND_KIND p
    && c.chipAt p == chip)

/-- Where an Elzel sends towards a chip: the port of a bound die, or the port whose summary holds it (R80). -/
def Elzel.portToChip (e : Elzel) (chip : Nat) : Option Nat :=
  if e.c.isLeaf then e.c.portOfChip chip
  else (e.mgr.sums.find? (fun s => decide (s.1 < 64) && s.2.any (fun x => x.chip == chip))).map (·.1)

/-- The coordinate of a chip in the subtree. -/
def Elzel.coordOfChip (e : Elzel) (chip : Nat) : Option Nat :=
  if e.c.isLeaf then (e.c.portOfChip chip).map e.c.childCoord
  else ((e.mgr.sums.filter (fun s => decide (s.1 < 64))).flatMap (·.2)).find? (fun x => x.chip == chip) |>.map (·.coord)

/-! ### Entries of the journal (R355 to R357) -/

/-- The numbers of the whole entries of n bytes of region r that hold anything, ascending. -/
def Chip.entriesOf (c : Chip pt) (r n : Nat) : List Nat :=
  let b := c.regionBase r
  (c.jrnl.foldl (fun (l : List Nat) e =>
    if b ≤ e.1 ∧ e.1 < b + c.regionSize r then (let i := (e.1 - b) / n; if l.headD (i + 1) == i then l else i :: l) else l) []).reverse

/-- Word w of entry i of region r. -/
def Chip.entryWord (c : Chip pt) (r n i w : Nat) : Word := memReadWord c.jrnl (c.regionBase r + n * i + 8 * w)

/-- The digest that the ledger holds for the arrival of a chip at a step of a job. -/
def Chip.ledgerDigest (c : Chip pt) (job step chip : Nat) : Option Word :=
  ((c.entriesOf 0 32).find? (fun i =>
    let w0 := c.entryWord 0 32 i 0
    bits w0 63 62 == 0 && bits w0 61 50 == job && bits w0 49 32 == chip && !bit w0 5 && bits (c.entryWord 0 32 i 1) 63 16 == step)).map
      (fun i => c.entryWord 0 32 i 3)

/-- The entry of REPLAY that holds the RELEASE of a step: its number. -/
def Chip.replayEntry (c : Chip pt) (job step : Nat) : Option Nat :=
  (c.entriesOf 1 128).find? (fun i =>
    bits (c.entryWord 1 128 i 0 ++ c.entryWord 1 128 i 1) 117 106 == job && bits (c.entryWord 1 128 i 0 ++ c.entryWord 1 128 i 1) 87 40 == step)

/-- The RELEASE packet that an entry of REPLAY holds (R357). -/
def Chip.replayPkt (c : Chip pt) (i : Nat) : Pkt :=
  let h := c.entryWord 1 128 i 0 ++ c.entryWord 1 128 i 1
  (List.range (1 + flitLen h)).map (fun k => c.entryWord 1 128 i (2 * k) ++ c.entryWord 1 128 i (2 * k + 1))

/-- An arrival entry (R356). -/
def Chip.ledgerArrival (c : Chip pt) (p job : Nat) (pkt : Pkt) (owl replay : Bool) : Chip pt :=
  let f := pkt.headD 0
  let sent := bits (pkt.getD 1 0) 63 0
  let lat := (c.gtInt + 2 ^ 64 - sent) % 2 ^ 64
  c.jrnlWords 0
    [w64 (put 61 50 job + put 49 32 (c.chipAt p) + put 31 14 (c.childCoord p) + put 13 6 (itemCtx f) + put 5 5 (b2n owl) + put 4 4 (b2n replay)),
     w64 (put 63 16 (itemStep f) + satU 16 lat), w64 c.gtInt, pktDigest pkt]

/-- A decision entry (R286, R356). -/
def Chip.ledgerDecision (c : Chip pt) (job change sEff t : Nat) (commit : Bool) : Chip pt :=
  c.jrnlWords 0 [w64 (put 63 62 1 + put 61 50 job + put 49 48 (if commit then 1 else 2) + put 31 0 change), w64 (put 63 16 sEff), w64 t, w64 c.gtInt]

/-- A health entry (R356, R363). -/
def Chip.ledgerHealth (c : Chip pt) (job chip state kind score step : Nat) (digest : Word) : Chip pt :=
  c.jrnlWords 0 [w64 (put 63 62 2 + put 61 50 job + put 49 32 chip + put 31 29 state + put 28 24 kind + put 15 0 score),
    w64 (put 63 16 step), w64 c.gtInt, digest]

/-- The original step of a replayed step of job j (R372); none outside a replay. -/
def Elzel.original (e : Elzel) (j step : Nat) : Option Nat :=
  e.cmb.replays.findSome? (fun r =>
    match r.n with
    | some n => if r.job == j && !r.ended && decide (n ≤ step) && decide (r.sk + (step - n) < r.sReq) then some (r.sk + (step - n)) else none
    | none => none)

/-- The CHANGE last applied to a job. -/
def Elzel.changeOf (e : Elzel) (j : Nat) : Nat := ((e.cmb.changes.find? (fun x => x.1 == j)).map (·.2)).getD 0

/-- A replay entry of 128 bytes (R357). -/
def Elzel.journalRelease (e : Elzel) (job step done : Nat) (pkt : Pkt) : Elzel :=
  let vals := if flitLen (pkt.headD 0) = 1 then [] else (pkt.drop 2).take 4
  let head := (bytesOfFlits (pkt.take 2) ++ bytesOfFlits vals ++ List.replicate 96 0).take 96
  e.onC (fun c => c.jrnlAppend 1 (head ++ bytesBE 8 done ++ bytesBE 6 ((e.original job step).getD step) ++ [0, 0] ++ bytesBE 4 (e.changeOf job)
    ++ List.replicate 12 0))

end Sys2Proof.Machine
end

