-- ==== Sys2Proof/Machine/Events.lean ====
section
/-!
DEFINITION. Sys2Proof/Machine/Events.lean: rings in memory (R322, R323, R325, R333, R334), message sources (R327 to R329),
privileged sources (R331), and the meanings of their commands. The Den watcher stands in Reset.lean.
-/
namespace Sys2Proof.Machine

variable {pt : Part}

/-! ### Rings -/

def Chip.ringSt (c : Chip pt) (r : Nat) : RingSt := (c.ev.rings[r]?).getD {}
def Chip.onRing (c : Chip pt) (r : Nat) (f : RingSt → RingSt) : Chip pt := { c with ev := { c.ev with rings := upd c.ev.rings r f } }

/-- 2^LOG2N records; values outside 6 to 16 act as the nearer bound. -/
def Chip.ringLen (c : Chip pt) (r : Nat) : Nat := 2 ^ (min 16 (max 6 (c.rd (PT.EVT_RING_CFG_LOG2N pt) r)))
def Chip.ringProd (c : Chip pt) (r : Nat) : Nat := c.rd (PT.EVT_RING_INDEX_PROD pt) r
def Chip.ringCons (c : Chip pt) (r : Nat) : Nat := c.rd (PT.EVT_RING_INDEX_CONS pt) r
/-- Records in the ring. -/
def Chip.ringFill (c : Chip pt) (r : Nat) : Nat := (c.ringProd r + 2 ^ 32 - c.ringCons r) % 2 ^ 32
def Chip.ringFree (c : Chip pt) (r : Nat) : Nat := c.ringLen r - c.ringFill r

/-- Record a is written before record b (R325, R41): stamp order, then ascending TYPE, and every record stamped before a step
of the time before those stamped after it. -/
def EvRec.before (a b : EvRec) : Bool :=
  let d := sdiff 32 (recStamp a.words) (recStamp b.words)
  decide (a.era < b.era) || (a.era == b.era && (decide (d < 0) || (d == 0 && decide (recType a.words ≤ recType b.words))))

def firstRec : List EvRec → Option EvRec
  | [] => none
  | a :: l => match firstRec l with
    | none => some a
    | some b => some (if a.before b then a else b)

/-- The records that wait for ring r. -/
def Chip.waitingFor (c : Chip pt) (r : Nat) : List EvRec := c.ev.queue.filter (fun e => e.rings.contains r)

/-- A record is written to a ring, or dropped for it: it waits for that ring no longer. -/
def Chip.doneRing (c : Chip pt) (r : Nat) (e : EvRec) : Chip pt :=
  { c with ev := { c.ev with queue := c.ev.queue.filterMap (fun x =>
      if x == e then (let rs := x.rings.erase r; if rs.isEmpty then none else some { x with rings := rs }) else some x) } }

/-- EVT_LOST of a ring (R321), stamped as the first record it reports. -/
def Chip.lostRec (c : Chip pt) (r : Nat) : List Word :=
  let s := c.ringSt r
  c.record (EV.EVT_LOST pt) none none s.lostStamp [i8 r, i16 s.lost, i16 s.lostTyp]

/-- EPOCH_MARK taken now (R40). -/
def Chip.markRec (c : Chip pt) : List Word := c.record (EV.EPOCH_MARK pt) none none c.stamp [i32 (c.gtInt / 2 ^ 32)]

/-- The next record for ring r and the part once it is written (R322, R325, R41); none when the ring is off or full, or
nothing waits. -/
def Chip.ringNext (c : Chip pt) (r : Nat) : Option (List Word × Chip pt) :=
  if decide (r ≥ c.nRings) || !c.ringOn r || c.ringFree r == 0 || !c.clocked then none
  else
    let s := c.ringSt r
    if s.markFirst then some (c.markRec, c.onRing r (fun s => { s with markFirst := false }))
    else match firstRec (c.waitingFor r) with
      | none => none
      | some e =>
        if s.lost > 0 then
          if c.ringFree r < 3 then none
          else some (c.lostRec r, c.onRing r (fun s => { s with lost := 0, lostTyp := 0, lostStamp := 0, markFirst := true }))
        else some (e.words, c.doneRing r e)

/-- SEQ set from PROD (R318). -/
def withSeq (ws : List Word) (prod : Nat) : List Word :=
  match ws with
  | [] => []
  | w :: l => setBits w 53 46 (prod % 256) :: l

/-- An armed ring that is enabled and not empty sends its vector once (R334). -/
def Chip.armCheck (c : Chip pt) (r : Nat) : Chip pt :=
  match c.part with
  | .garja => c
  | .elzel =>
    if c.flag EZ.EVT_RING_CFG_ARM r && c.ringOn r && c.ringFill r != 0 then (c.wr EZ.EVT_RING_CFG_ARM 0 r).msixSend (1024 + r) else c

/-- A ring disabled after its second failed write (R323): counted, source 14 latched in Garja, its records dropped. -/
def Chip.ringFault (c : Chip pt) (r : Nat) : Chip pt :=
  let c := ((c.wr (PT.EVT_RING_CFG_EN pt) 0 r).inc (PT.EVT_STATUS_INIT_FAULT pt)).onRing r (fun s => { s with failed := false })
  let c := match c.part with | .garja => c.latchIrq 14 | .elzel => c
  (c.waitingFor r).foldl (fun c e => (c.doneRing r e).dropFor r e.words) c

/-- One record write of ring r with its memory (R322, R323). -/
def Chip.ringWriteRec (c : Chip pt) (m : Mem) (r : Nat) (ok : Bool) : Chip pt × Mem :=
  match c.ringNext r with
  | none => (c, m)
  | some (ws, c2) =>
    if !ok then
      if (c.ringSt r).failed then (c.ringFault r, m) else (c.onRing r (fun s => { s with failed := true }), m)
    else
      let prod := c.ringProd r
      let base := c.rd (PT.EVT_RING_BASE_BASE pt) r * 64
      let m := memWriteWords m (base + 64 * (prod % c.ringLen r)) (withSeq ws prod)
      let m := memWriteWord m (c.rd (PT.EVT_RING_PSHADOW_PSHADOW pt) r * 8) (w64 ((prod + 1) % 2 ^ 32))
      (((c2.wr (PT.EVT_RING_INDEX_PROD pt) ((prod + 1) % 2 ^ 32) r).onRing r (fun s => { s with failed := false })).armCheck r, m)

/-- EN of a ring from 0 to 1 (R323, R41). -/
def Chip.ringEnable (c : Chip pt) (r : Nat) : Chip pt :=
  if c.ringOn r then c
  else
    let c := (c.wr (PT.EVT_RING_CFG_EN pt) 1 r).wr (PT.EVT_RING_INDEX_PROD pt) (c.ringCons r) r
    c.onRing r (fun s => { s with markFirst := true, failed := false })

/-- Records not written to a ring within 100 ms of their stamps are dropped for it (R325). -/
def Chip.ringAge (c : Chip pt) (r : Nat) : Chip pt :=
  ((c.waitingFor r).filter (fun e => decide (c.now - e.at_ ≥ 100000000))).foldl (fun c e => (c.doneRing r e).dropFor r e.words) c

/-! ### Message sources and priority stacks -/

/-- The stack of processor p, top first. -/
def Chip.stack (c : Chip pt) (p : Nat) : List (Nat × Nat) := (c.ev.prio[p]?).getD []

/-- Source s is pending (R327). -/
def Chip.msgPend (c : Chip pt) (s : Nat) : Bool :=
  if s < 16 then c.ringOn s && c.ringFill s != 0 else if s < 24 then c.ev.raised.testBit (s - 16) else false
def Chip.msgInSvc (c : Chip pt) (s : Nat) : Bool := c.ev.inSvc.testBit s

/-- Source s is eligible (R328). -/
def Chip.msgEligible (c : Chip pt) (s : Nat) : Bool :=
  c.flag GJ.MSG_SRC_EN s && c.msgPend s && !c.msgInSvc s
    && (match c.stack (c.rd GJ.MSG_SRC_DEST s) with
      | [] => true
      | (_, top) :: _ => decide (c.rd GJ.MSG_SRC_PRIO s > top))

/-- The source that is delivered next: the highest PRIO, then the lowest number. -/
def Chip.msgNext (c : Chip pt) : Option Nat :=
  ((List.range 24).filter c.msgEligible).foldl (fun best s =>
    match best with
    | none => some s
    | some b => if c.rd GJ.MSG_SRC_PRIO s > c.rd GJ.MSG_SRC_PRIO b then some s else best) none

/-- One message delivered (R328). -/
def Chip.msgDeliver (c : Chip pt) : Chip pt :=
  match c.msgNext with
  | none => c
  | some s =>
    let p := c.rd GJ.MSG_SRC_DEST s
    let c := c.inc GJ.EVT_PROC_SENT p
    { c with ev := { c.ev with
        raised := if s ≥ 16 then c.ev.raised - 2 ^ (s - 16) else c.ev.raised,
        inSvc := c.ev.inSvc + 2 ^ s,
        prio := upd c.ev.prio p (fun st => (s, c.rd GJ.MSG_SRC_PRIO s) :: st),
        lastMsg := some (p, c.rd GJ.MSG_SRC_VECTOR s) } }

/-- An end of interrupt of processor p (R329). -/
def Chip.msgEoi (c : Chip pt) (p s : Nat) : Chip pt :=
  match c.stack p with
  | (top, _) :: rest =>
    if top == s then
      { c with ev := { c.ev with prio := upd c.ev.prio p (fun _ => rest), inSvc := if c.ev.inSvc.testBit s then c.ev.inSvc - 2 ^ s else c.ev.inSvc } }
    else c.inc GJ.EVT_PROC_STRAY p
  | [] => c.inc GJ.EVT_PROC_STRAY p

/-- Message sources raised: bit i raises source 16 + i. -/
def Chip.msgRaise (c : Chip pt) (v : Nat) : Chip pt := { c with ev := { c.ev with raised := Nat.lor c.ev.raised (v % 256) } }

/-- A write of ones to IRQ_PEND (R331). The Den watcher may fire anew once bit 9 is clear (R332). -/
def Chip.irqClear (c : Chip pt) (v : Nat) : Chip pt :=
  let old := c.rd (PT.IRQ_PEND_PEND pt)
  let c := c.wr (PT.IRQ_PEND_PEND pt) (old - Nat.land old v)
  if old.testBit 9 && v.testBit 9 then { c with ev := { c.ev with denFrom := c.now } } else c

/-- A doorbell write of an Elzel ring: CONS, with ARM in bit 63 (R334). -/
def Chip.ringDoorbell (c : Chip pt) (r : Nat) (data : Word) : Chip pt :=
  ((c.wr EZ.EVT_RING_INDEX_CONS (bits data 31 0) r).wr EZ.EVT_RING_CFG_ARM (bits data 63 63) r).armCheck r

/-- ENGINE reset of subsystem 7 (R337): the queue emptied, each record dropped in every ring it would have reached; stacks and
in-service marks cleared. Copies stand in the queue of a port as soon as they are made, so none is discarded here. -/
def Chip.evtEngineReset (c : Chip pt) : Chip pt :=
  let c := c.ev.queue.foldl (fun c e => e.rings.foldl (fun c r => c.dropFor r e.words) c) c
  { c with ev := { c.ev with queue := [], prio := c.ev.prio.map (fun _ => []), inSvc := 0 } }

/-! ### Meanings -/

/-- EVENT_RECORD_WRITE (R322, R323): `ok` says whether the write and its shadow are acknowledged. -/
def execEventRecordWrite (u : Part) (ring : BitVec 6) (ok : Bool) (s : State) : Out :=
  match u with
  | .garja =>
    let (c, m) := s.gj.c.ringWriteRec s.dieMem ring.toNat ok
    .next { s with gj := { s.gj with c := c }, dieMem := m }
  | .elzel =>
    let (c, m) := s.ez.c.ringWriteRec s.hostMem ring.toNat ok
    .next { s with ez := { s.ez with c := c }, hostMem := m }

/-- RECORD_AGE_DROP (R325). -/
def execRecordAgeDrop (u : Part) (ring : BitVec 6) (s : State) : Out := .next (s.onChip u (·.ringAge ring.toNat))

/-- RING_ENABLE (R323). A number the part does not have names no ring. -/
def execRingEnable (u : Part) (ring : BitVec 6) (s : State) : Out :=
  .next (s.onReg u (fun c => if ring.toNat < c.nRings then c.ringEnable ring.toNat else c))

/-- MESSAGE_DELIVERY (R328). -/
def execMessageDelivery (s : State) : Out := .next (s.onChip .garja Chip.msgDeliver)

/-- EOI (R329). -/
def execEoi (proc : BitVec 3) (msgSrc : BitVec 5) (s : State) : Out := .next (s.onReg .garja (·.msgEoi proc.toNat msgSrc.toNat))

/-- MSG_RAISE (R327). -/
def execMsgRaise (v : BitVec 8) (s : State) : Out := .next (s.onReg .garja (·.msgRaise v.toNat))

/-- IRQ_PEND_CLEAR (R331). -/
def execIrqPendClear (u : Part) (v : BitVec 16) (s : State) : Out := .next (s.onReg u (·.irqClear v.toNat))

/-- RING_DOORBELL (R334). -/
def execRingDoorbell (ring : BitVec 6) (data : Word) (s : State) : Out := .next (s.onChip .elzel (·.ringDoorbell ring.toNat data))

end Sys2Proof.Machine
end

