-- ==== Sys2Proof/Machine/Refs.lean ====
section
/-!
DEFINITION. Sys2Proof/Machine/Refs.lean: reference selection, the clean-up loop and Elzel's holdover (05), the realignment of
the roots (R134) and the epoch (R161); and the meanings of their commands.
-/
namespace Sys2Proof.Machine

variable {pt : Part}

/-! ### Sources -/

def Chip.source (c : Chip pt) (s : Nat) : Source := (c.ref.sources[s]?).getD {}
def Chip.onSource (c : Chip pt) (s : Nat) (f : Source → Source) : Chip pt := { c with ref := { c.ref with sources := upd c.ref.sources s f } }
def Chip.srcState (c : Chip pt) (s : Nat) : Nat := c.rd EZ.REF_SST_STATE s
def Chip.refLock (c : Chip pt) : Nat := c.rd EZ.REF_STATUS_LOCK
def Chip.refSel (c : Chip pt) : Nat := c.rd EZ.REF_STATUS_SEL
/-- Priority of a source; 15 disables it (R106). -/
def Chip.refPrio (c : Chip pt) (s : Nat) : Nat := bits (c.get EZ.REF_PRIO) (4 * s + 3) (4 * s)
/-- MODE = LOCAL at a leading root (R161). -/
def Chip.refLocal (c : Chip pt) : Bool := c.isRoot && !c.flag EZ.ROLE_DOMAIN && !c.flag EZ.EPOCH_CTL_MODE

/-- The source leaves QUALIFIED or QUALIFYING for ABSENT with a reason (R103). -/
def Chip.srcFail (c : Chip pt) (s reason : Nat) : Chip pt :=
  ((c.wr EZ.REF_SST_STATE 0 s).wr EZ.REF_SST_REASON reason s).onSource s (fun x => { x with accepted := false, known := false, healthySince := none })

/-- The reason code of the first check that fails, 0 when the source is healthy (R102). -/
def Chip.srcReason (c : Chip pt) (s : Nat) (o : SrcObs) : Nat :=
  let lim := if c.refLock ≥ 2 then c.rd EZ.REF_SRC_FREQ_LIM s else 2000
  if !o.present then 1
  else if s < 2 then
    let p := c.srcPort s
    if !(c.up p && c.rangeValid p) then 7 else if c.farLock p < 2 then 5 else 0
  else if o.freqPpb.toInt.natAbs > lim then 2
  else if s < 4 then
    if o.tenMHz then (if o.near10 then 0 else 4) else if c.flag EZ.REF_SRC_NEED_10M s then 4 else 0
  else if c.rd EZ.PTP_STATUS_STATE (s - 4) != 9 || decide (c.rd EZ.PTP_STATUS_CLASS (s - 4) > c.rd EZ.REF_SRC_CLASS_MAX s) then 6
  else 0

/-- |x|, in 2^-16 ns, exceeds n ns. -/
def beyondNs (x : Int) (n : Nat) : Bool := decide (x.natAbs > n * 65536)
/-- |x|, in 2^-16 ns, exceeds n ps. -/
def beyondPs (x : Int) (n : Nat) : Bool := decide (x.natAbs * 1000 > n * 65536)

/-! ### Lock state (R112) -/

/-- The mean of y over the HOLD_AVG seconds that end 64 s before now (R114); the nearest in 2^-16 ppb. With no sample in that
time y stays. -/
def Chip.holdAverage (c : Chip pt) (y : Int) : Int :=
  let top := c.now - 64 * 1000000000
  let l := c.ref.hist.filter (fun h => decide (c.now ≥ 64 * 1000000000 ∧ h.1 ≤ top ∧ h.1 + c.rd EZ.CLN_CTL_HOLD_AVG * 1000000000 ≥ top))
  if l.isEmpty then y else divNear ((l.map (·.2)).sum) l.length

def Chip.setTrim (c : Chip pt) (y : Int) : Chip pt := (c.wrS EZ.CLN_DCO_TRIM y).wrS EZ.CLN_STATUS_Y y

/-- A change of the R112 state: LOCK_STATE with the old and new states and the selected source. -/
def Chip.setRef (c : Chip pt) (new : Nat) : Chip pt :=
  let old := c.refLock
  if old == new then c
  else
    let y := c.rdS EZ.CLN_DCO_TRIM
    let c := c.wr EZ.REF_STATUS_LOCK new
    let c :=
      if new == 3 then
        let spec := c.isRoot && old == 2 && decide (c.now - c.ref.lockedSince ≥ 1000 * 1000000000) && !c.ref.ocxoBad
        let c : Chip pt := { (c.wr EZ.REF_STATUS_SPEC (b2n spec)) with ref := { c.ref with holdSince := c.now } }
        (if c.flag EZ.CLN_CTL_FREEZE then c else c.setTrim (c.holdAverage y)).latchIrq 0
      else if new == 0 then c.latchIrq 0
      else if new == 1 then
        let i := if old == 0 then 0 else if old == 3 then c.rdS EZ.CLN_DCO_TRIM * ((2 ^ 80 : Nat) : Int) else c.ref.i
        { (c.wr EZ.REF_STATUS_SPEC 0) with ref := { c.ref with inCnt := 0, outCnt := 0, i := i } }
      else
        let c := ((c.wr EZ.REF_STATUS_OCXO_FAULT 0).wr EZ.REF_STATUS_SPEC 0).wr EZ.EPOCH_CTL_ALIGNED
          (if c.flag EZ.EPOCH_CTL_MODE then 1 else c.rd EZ.EPOCH_CTL_ALIGNED)
        { c with ref := { c.ref with outCnt := 0, everLocked := true, lockedSince := c.now } }
    c.raise EV.REF_LOCK_STATE none none [i8 old, i8 new, i8 c.refSel]

/-- The state that follows from whether a source is selected and the loop is closed (R112). -/
def Chip.refFollow (c : Chip pt) : Chip pt :=
  let sel := c.refSel != 7
  let closed := !c.flag EZ.CLN_CTL_OPEN
  if sel then (if closed && (c.refLock == 0 || c.refLock == 3) then c.setRef 1 else c)
  else if c.refLock == 1 then (if c.ref.everLocked then c.setRef 3 else c.setRef 0)
  else if c.refLock == 2 then c.setRef 3
  else c

/-! ### Selection (R106, R107) -/

/-- The rank of a selectable source; none when it cannot be selected. -/
def Chip.refRank (c : Chip pt) (s : Nat) : Option (Nat × Nat × Nat) :=
  if c.srcState s != 2 || c.refPrio s == 15 then none
  else some (if s < 2 && c.farLock (c.srcPort s) == 3 then 1 else 0, c.refPrio s, s)

def rankLess (a b : Nat × Nat × Nat) : Bool :=
  decide (a.1 < b.1) || (a.1 == b.1 && (decide (a.2.1 < b.2.1) || (a.2.1 == b.2.1 && decide (a.2.2 < b.2.2))))

/-- The best selectable source. -/
def Chip.refBest (c : Chip pt) : Option (Nat × Nat × Nat) :=
  ((List.range 6).filterMap c.refRank).foldl (fun b r => match b with | none => some r | some x => if rankLess r x then some r else some x) none

/-- A leaf's or trunk's servo follows its selected step-link source (R122, R130). -/
def Chip.servoFollow (c : Chip pt) : Chip pt :=
  let s := c.refSel
  if c.isRoot || decide (s ≥ 2) then c
  else
    let p := c.srcPort s
    if c.input == s && (c.lock == 1 || c.lock == 2) then c
    else if !(c.up p && c.rangeValid p) then c
    else if c.lock == 2 && c.tracked s then c.setLock 2 s
    else if c.lock == 3 && c.flag EZ.TB_CTL_FORCE_HOLD then c
    else c.setLock 1 s

/-- A switch of the selector to a source (R107): REF_SWITCH with the old and new source and the new source's offset. A leading
root in LOCAL latches e anew at its next update (R161). -/
def Chip.refSwitch (c : Chip pt) (new : Nat) : Chip pt :=
  let old := c.refSel
  if old == new then c
  else
    let c : Chip pt := { (c.wr EZ.REF_STATUS_SEL new) with ref := { c.ref with better := none, localLatched := false } }
    let c := if new == 7 then c else c.raise EV.REF_SWITCH none none [i8 old, i8 new, s64 (c.rdS EZ.REF_SST_OFFSET new)]
    c.refFollow.servoFollow

/-- The selection at a tick. -/
def Chip.refSelect (c : Chip pt) : Chip pt :=
  let sel := c.refSel
  match c.refBest with
  | none => c.refSwitch 7
  | some b =>
    match (if sel == 7 then none else c.refRank sel) with
    | none => c.refSwitch b.2.2
    | some r =>
      if c.flag EZ.REF_CTL_REVERT && rankLess b r then
        let since := match c.ref.better with
          | some (x, t) => if x == b.2.2 then t else c.now
          | none => c.now
        { c with ref := { c.ref with better := some (b.2.2, since) } }
      else { c with ref := { c.ref with better := none } }

/-- DISAGREE entered and left at a tick (R108, R109). -/
def Chip.refDisagree (c : Chip pt) (s : Nat) : Chip pt :=
  let off := c.rdS EZ.REF_SST_OFFSET s
  let far := beyondNs off (c.rd EZ.REF_CTL_PBO_THR)
  let applies := decide (c.refLock ≥ 2) && !c.refLocal
  if c.srcState s == 2 && applies && far && !(c.source s).accepted && (c.source s).known then
    ((c.wr EZ.REF_SST_STATE 4 s).raise EV.REF_DISAGREE none none [s64 off]).latchIrq 5
  else if c.srcState s == 4 && (!applies || !far) then c.wr EZ.REF_SST_STATE 2 s
  else c

/-- A leading root without time takes the following root's, through a tracked peer port (R134). -/
def Chip.leaderFollow (c : Chip pt) : Chip pt :=
  if c.isRoot && !c.flag EZ.ROLE_DOMAIN && decide (c.refLock < 2) && c.input == 7 then
    if c.tracked 2 then c.setLock 1 2 else if c.tracked 3 then c.setLock 1 3 else c
  else c

/-- One selector tick (R102, R103, R106, R108). -/
def Chip.selectorTick (c : Chip pt) (obs : List SrcObs) : Chip pt :=
  let six := List.range 6
  let c := six.foldl (fun c s =>
    let r := match obs[s]? with | some o => c.srcReason s o | none => 1
    if r != 0 && (c.srcState s == 1 || c.srcState s == 2 || c.srcState s == 4) then c.srcFail s r
    else c.onSource s (fun x => { x with healthySince := if r == 0 then some (x.healthySince.getD c.now) else none })) c
  let c := six.foldl (fun c s =>
    if c.srcState s == 0 && (c.source s).healthySince.isSome then
      (c.wr EZ.REF_SST_STATE 1 s).onSource s (fun x => { x with healthySince := some c.now }) else c) c
  let c := six.foldl (fun c s => c.refDisagree s) c
  c.refSelect.refFollow.servoFollow.leaderFollow

/-! ### The clean-up loop (R104, R110, R111) -/

/-- τ of a source as a fraction in s: 1 µs, 1 s, or the Sync interval of the port. -/
def Chip.refTau (c : Chip pt) (s : Nat) : Nat × Nat :=
  if s < 2 then (1, 1000000) else if s < 4 then (1, 1)
  else
    let k := c.rdS EZ.PTP_CTL_LOG_SYNC (s - 4)
    if k < 0 then (1, 2 ^ k.natAbs) else (2 ^ k.natAbs, 1)

/-- The bound of the DCO trim: 10,000 ppb. -/
def trimMax : Int := 655360000
def clampTrim (y : Int) : Int := if y > trimMax then trimMax else if y < -trimMax then -trimMax else y

/-- One PI update (R110), in 2^-96 ppb: i and y before the clamp. -/
def loopPI (kp ki : Nat) (tau : Nat × Nat) (i e : Int) : Int × Int :=
  let g := e * (tau.2 : Int) * ((2 ^ 80 : Nat) : Int)
  let i1 := i + g / ((2 ^ ki * tau.1 : Nat) : Int)
  (i1, i1 + g / ((2 ^ kp * tau.1 : Nat) : Int))

/-- A root steps HT onto the source (R111); every source's offset against HT moves with it. -/
def Chip.refStep (c : Chip pt) (e : Int) : Chip pt :=
  let d := divNear e 65536
  let c := c.timeStep (d * ((2 ^ 32 : Nat) : Int))
  (List.range 6).foldl (fun c s => c.wrS EZ.REF_SST_OFFSET (c.rdS EZ.REF_SST_OFFSET s - d * 65536) s) c

/-- The lock counters after an update (R112). -/
def Chip.refCount (c : Chip pt) (e : Int) : Chip pt :=
  if c.refLock == 1 then
    if beyondPs e (c.rd EZ.CLN_CTL_LOCK_THR) then { c with ref := { c.ref with inCnt := 0 } }
    else
      let c : Chip pt := { c with ref := { c.ref with inCnt := c.ref.inCnt + 1 } }
      if c.ref.inCnt ≥ c.rd EZ.CLN_CTL_LOCK_CNT then c.setRef 2 else c
  else if c.refLock == 2 then
    if beyondPs e (c.rd EZ.CLN_CTL_UNLOCK_THR) then
      let c : Chip pt := { c with ref := { c.ref with outCnt := c.ref.outCnt + 1 } }
      if c.ref.outCnt ≥ 4 then c.setRef 1 else c
    else { c with ref := { c.ref with outCnt := 0 } }
  else c

/-- One update of the selected source in the closed loop (R110, R111). -/
def Chip.loopUpdate (c : Chip pt) (s : Nat) (e0 : Int) : Chip pt :=
  let c := if c.refLocal && !c.ref.localLatched then { c with ref := { c.ref with latch := e0, localLatched := true } } else c
  let hold := c.refLocal || c.flag EZ.TS_STATUS_LATCHED
  let e := if hold then e0 - c.ref.latch else e0
  let c : Chip pt := { (c.wrS EZ.CLN_STATUS_E (clampS 32 e)) with ref := { c.ref with e := e0 } }
  let following := c.isRoot && (c.input == 2 || c.input == 3) && decide (c.lock ≥ 1)
  let big := c.isRoot && !c.refLocal && !following && decide (e.natAbs ≥ 1000 * 65536)
  if big && c.refLock == 1 && !c.flag EZ.REF_CTL_NO_STEP && !c.anyJob then c.refStep e
  else
    let y0 := c.rdS EZ.CLN_DCO_TRIM
    let yEntry := if big then some (c.ref.yEntry.getD y0) else if beyondPs e (c.rd EZ.CLN_CTL_LOCK_THR) then c.ref.yEntry else none
    let (i, yy) := loopPI (c.rd EZ.CLN_CTL_KP_SHIFT) (c.rd EZ.CLN_CTL_KI_SHIFT) (c.refTau s) c.ref.i e
    let y := clampTrim (divNear yy (2 ^ 80))
    let lim : Int := (c.rd EZ.REF_CTL_SLEW_MAX * 65536 : Nat)
    let y := match yEntry with
      | some b => if y > b + lim then b + lim else if y < b - lim then b - lim else y
      | none => y
    let keep := c.ref.hist.filter (fun h => decide (h.1 + (c.rd EZ.CLN_CTL_HOLD_AVG + 64) * 1000000000 ≥ c.now))
    let c : Chip pt := { (c.setTrim y) with ref := { c.ref with i := i, yEntry := yEntry, hist := (c.now, y) :: keep } }
    c.refCount e

/-- One update of source s with its phase error and its offset against HT, in 2^-16 ns (R104, R110). -/
def Chip.refUpdate (c : Chip pt) (s : Nat) (e off : Int) : Chip pt :=
  let old := c.rdS EZ.REF_SST_OFFSET s
  let c := c.wrS EZ.REF_SST_OFFSET off s
  if c.srcState s == 0 then c
  else
    let (tn, td) := c.refTau s
    let diff := (off - old) * (td : Int) - c.rdS EZ.CLN_DCO_TRIM * (tn : Int)
    let jump := (c.source s).known && decide (diff.natAbs > c.rd EZ.REF_SRC_JUMP_THR s * 65536 * td)
    let c := c.onSource s (fun x => { x with known := true })
    if jump then c.refJump s old off
    else if c.refSel == s && !c.flag EZ.CLN_CTL_OPEN && (c.refLock == 1 || c.refLock == 2) then c.loopUpdate s e
    else c

/-! ### Commands of the loop -/

/-- OPEN and FREEZE written (R113). -/
def Chip.loopOpen (c : Chip pt) (isOpen freeze : Bool) : Chip pt :=
  let c := (c.wr EZ.CLN_CTL_OPEN (b2n isOpen)).wr EZ.CLN_CTL_FREEZE (b2n freeze)
  if isOpen then (if c.refLock == 2 then c.setRef 3 else c) else c.refFollow

/-- TRIM written (R113). -/
def Chip.trimWrite (c : Chip pt) (v : Int) : Chip pt :=
  if c.flag EZ.CLN_CTL_OPEN then c.setTrim (clampTrim v) else c.inc EZ.REF_STATUS_WR_IGN

/-- ACCEPT of source s (R109). -/
def Chip.refAccept (c : Chip pt) (s : Nat) : Chip pt :=
  if c.srcState s == 2 || c.srcState s == 4 then (c.wr EZ.REF_SST_STATE 2 s).onSource s (fun x => { x with accepted := true })
  else c.inc EZ.REF_STATUS_WR_IGN

/-- REALIGN (R134): the latch cleared; the loop slews to a target of zero within SLEW_MAX. -/
def Chip.realign (c : Chip pt) : Chip pt :=
  { (c.wr EZ.TS_STATUS_LATCHED 0) with ref := { c.ref with latch := 0, yEntry := some (c.rdS EZ.CLN_DCO_TRIM) } }

/-- MODE of EZ_EPOCH_CTL written (R161). -/
def Chip.epochMode (c : Chip pt) (tai : Bool) : Chip pt :=
  if c.anyJob then c.inc EZ.EPOCH_CTL_WR_IGN
  else if c.flag EZ.EPOCH_CTL_MODE == tai then c
  else
    let c := (c.wr EZ.EPOCH_CTL_MODE (b2n tai)).wr EZ.EPOCH_CTL_ALIGNED 0
    if tai then
      let c : Chip pt := { c with ref := { c.ref with latch := 0, localLatched := false } }
      if c.isRoot && !c.flag EZ.ROLE_DOMAIN && (c.refLock == 2) then c.setRef 1 else c
    else c

/-- Seconds of HOLDOVER; 0 in other states (EZ_REF_STATUS.HOLD_TIME). -/
def Chip.refHoldTime (c : Chip pt) : Nat := if c.refLock == 3 then satU 32 ((c.now - c.ref.holdSince) / 1000000000) else 0

/-! ### Meanings -/

/-- SELECTOR_TICK (R102, R103, R106, R108). -/
def execSelectorTick (obs : List SrcObs) (s : State) : Out := .next (s.onChip .elzel (·.selectorTick obs))

/-- REF_UPDATE (R104, R110 to R112). -/
def execRefUpdate (src : BitVec 3) (e : BitVec 48) (offset : BitVec 48) (s : State) : Out :=
  .next (s.onChip .elzel (fun c => if src.toNat < 6 then c.refUpdate src.toNat e.toInt offset.toInt else c))

/-- QUAL_TIME_EXPIRED (R103): QUALIFYING becomes QUALIFIED after QUAL_TIME ms of unbroken health. -/
def execQualTimeExpired (src : BitVec 3) (s : State) : Out :=
  .next (s.onChip .elzel (fun c =>
    let n := src.toNat
    match (c.source n).healthySince with
    | some t => if c.srcState n == 1 && decide (n < 6) && decide (c.now - t ≥ c.rd EZ.REF_SRC_QUAL_TIME n * 1000000)
        then c.wr EZ.REF_SST_STATE 2 n else c
    | none => c))

/-- REF_HOLDOFF_EXPIRED (R105). -/
def execRefHoldoffExpired (src : BitVec 3) (s : State) : Out :=
  .next (s.onChip .elzel (fun c =>
    let n := src.toNat
    if decide (n < 6) && c.srcState n == 3 && decide (c.now ≥ (c.source n).holdoffEnd) then
      (c.wr EZ.REF_SST_STATE 1 n).onSource n (fun x => { x with healthySince := some c.now }) else c))

/-- WTR_EXPIRED (R107): a better source has ranked better, unbroken, for WTR seconds. -/
def execWtrExpired (s : State) : Out :=
  .next (s.onChip .elzel (fun c =>
    match c.ref.better with
    | some (b, t) => if c.flag EZ.REF_CTL_REVERT && decide (c.now - t ≥ c.rd EZ.REF_CTL_WTR * 1000000000) then c.refSwitch b else c
    | none => c))

/-- REF_ACCEPT (R109). -/
def execRefAccept (src : BitVec 3) (s : State) : Out :=
  .next (s.onChip .elzel (fun c => if src.toNat < 6 then c.refAccept src.toNat else c.inc EZ.REF_STATUS_WR_IGN))

/-- LOOP_OPEN_WRITE (R113). -/
def execLoopOpenWrite (isOpen freeze : Bool) (s : State) : Out := .next (s.onChip .elzel (·.loopOpen isOpen freeze))

/-- DCO_TRIM_WRITE (R113). -/
def execDcoTrimWrite (trim : BitVec 32) (s : State) : Out := .next (s.onChip .elzel (·.trimWrite trim.toInt))

/-- OCXO_COMPARE (R101's OCXO_FAULT, R115). -/
def execOcxoCompare (ppb : BitVec 32) (s : State) : Out :=
  .next (s.onChip .elzel (fun c =>
    let bad := decide (ppb.toInt.natAbs > 100)
    let was := c.ref.ocxoBad
    let c : Chip .elzel := { c with ref := { c.ref with ocxoBad := bad } }
    if bad && !was then
      let c := ((c.wr EZ.REF_STATUS_OCXO_FAULT 1).raise EV.OCXO_FAULT none none []).latchIrq 2
      if c.flag EZ.REF_STATUS_SPEC then (c.wr EZ.REF_STATUS_SPEC 0).raise EV.HOLD_SPEC_END none none [] else c
    else c))

/-- HOLD_SPEC_END (R115): 86,400 s of HOLDOVER within the specification. -/
def execHoldSpecEnd (s : State) : Out :=
  .next (s.onChip .elzel (fun c =>
    if c.flag EZ.REF_STATUS_SPEC && c.refLock == 3 && decide (c.now - c.ref.holdSince ≥ 86400 * 1000000000) then
      (c.wr EZ.REF_STATUS_SPEC 0).raise EV.HOLD_SPEC_END none none [] else c))

/-- REALIGN_WRITE (R134). -/
def execRealignWrite (s : State) : Out := .next (s.onChip .elzel Chip.realign)

/-- EPOCH_MODE_WRITE (R161). -/
def execEpochModeWrite (tai : Bool) (s : State) : Out := .next (s.onChip .elzel (·.epochMode tai))

end Sys2Proof.Machine
end

