-- ==== Sys2Proof/Machine/Ptp.lean ====
section
/-!
DEFINITION. Sys2Proof/Machine/Ptp.lean: external time ports and timed frames (07): the IEEE 1588 instances, time-stamping,
timed frames, the 1PPS, 10 MHz and step-pulse outputs; and the meanings of their commands.
-/
namespace Sys2Proof.Machine

variable {pt : Part}

def Elzel.port (e : Elzel) (p : Nat) : PtpPort := (e.ptp[p]?).getD {}
def Elzel.onPtp (e : Elzel) (p : Nat) (f : PtpPort → PtpPort) : Elzel := { e with ptp := upd e.ptp p f }

/-- A change of the port p of Elzel, if p is 0 or 1. -/
def State.onEzPtp (s : State) (p : Nat) (f : Elzel → Elzel) : State := s.onEz (fun e => if p < 2 then f e else e)

/-! ### The instances (R143 to R147) -/

def Elzel.ptpState (e : Elzel) (p : Nat) : Nat := e.c.rd EZ.PTP_STATUS_STATE p
def Elzel.ptpMode (e : Elzel) (p : Nat) : Nat := e.c.rd EZ.PTP_CTL_MODE p

/-- A write of MODE (R145). SLAVE is accepted at a root only. A SLAVE instance listens; a MASTER instance is master; OFF is
DISABLED. -/
def Elzel.ptpModeWrite (e : Elzel) (p mode : Nat) : Elzel :=
  if mode == 1 && !e.c.isRoot then e.onC (·.inc EZ.PTP_STATUS_WR_IGN p)
  else if e.ptpMode p == mode then e
  else
    let st := if mode == 1 then 4 else if mode == 2 then 6 else 3
    ((e.onC (fun c => ((c.wr EZ.PTP_CTL_MODE mode p).wr EZ.PTP_STATUS_STATE st p).wr EZ.PTP_STATUS_CLASS 0 p))).onPtp p
      (fun x => { x with masters := [], best := none })

/-- The comparison of the best master clock algorithm. PRESUMED: the order of IEEE 1588-2019, which lies outside the manual. -/
def ptpBetter (a b : PtpMsg) : Bool :=
  let key (m : PtpMsg) : Nat := ((((m.prio1.toNat * 256 + m.clockClass.toNat) * 256 + m.accuracy.toNat) * 65536 + m.variance.toNat) * 256
    + m.prio2.toNat) * 2 ^ 80 + m.sender.toNat
  decide (key a < key b)

def bestMaster : List Master → Option PtpMsg
  | [] => none
  | a :: l => match bestMaster l with
    | none => some a.msg
    | some b => some (if ptpBetter a.msg b then a.msg else b)

/-- The best master chosen anew: LISTENING without one; UNCALIBRATED on a new one until its first Sync. -/
def Elzel.ptpSelect (e : Elzel) (p : Nat) : Elzel :=
  match bestMaster (e.port p).masters with
  | none => (e.onC (fun c => (c.wr EZ.PTP_STATUS_STATE 4 p).wr EZ.PTP_STATUS_CLASS 0 p)).onPtp p (fun x => { x with best := none })
  | some m =>
    let same := (e.port p).best == some m.sender
    ((e.onC (fun c => (if same then c else c.wr EZ.PTP_STATUS_STATE 8 p).wr EZ.PTP_STATUS_CLASS m.clockClass.toNat p)).onPtp p
      (fun x => { x with best := some m.sender }))

/-- A message sent by the instance. -/
def Elzel.ptpSend (e : Elzel) (p : Nat) (ks : List PtpKind) : Elzel := e.onPtp p (fun x => { x with sent := ks ++ x.sent })

/-- An instance that an ENGINE reset left in INITIALIZING goes on (DEDUCED, log entry 80): a SLAVE listens, a MASTER is master. -/
def Elzel.ptpBegin (e : Elzel) (p : Nat) : Elzel :=
  if e.ptpState p == 1 && (e.ptpMode p == 1 || e.ptpMode p == 2) then
    e.onC (·.wr EZ.PTP_STATUS_STATE (if e.ptpMode p == 1 then 4 else 6) p)
  else e

/-- A message received (R144 to R146, R148, R151). -/
def Elzel.ptpMessage (e : Elzel) (p : Nat) (m : PtpMsg) : Elzel :=
  let mode := e.ptpMode p
  let e := e.ptpBegin p
  let e := e.onPtp p (fun x => { x with lastRx := some (m.stamp, e.c.steps) })
  if mode == 0 || mode == 3 then e
  else if !m.supported || m.kind == .management || m.kind == .signalling then e.onC (·.inc EZ.PTP_STATUS_UNSUP p)
  else match m.kind with
    | .announce =>
      if mode == 2 then e.onC (·.inc EZ.PTP_STATUS_FOREIGN p)
      else (e.onPtp p (fun x =>
        { x with masters := ⟨m, e.c.now⟩ :: x.masters.filter (fun y => y.msg.sender != m.sender) })).ptpSelect p
    | .delayReq => if mode == 2 && !e.c.flag EZ.PTP_CTL_P2P p then e.ptpSend p [.delayResp] else e
    | .pdelayReq =>
      if e.c.flag EZ.PTP_CTL_P2P p then
        (e.onPtp p (fun x => { x with pdelayRx := m.stamp })).ptpSend p
          (if e.c.flag EZ.PTP_CTL_ONE_STEP p then [.pdelayResp] else [.pdelayRespFollowUp, .pdelayResp])
      else e
    | _ => e

/-- One received Sync of the selected master (R145): an update of source 4 or 5 with e = −offsetFromMaster. -/
def Elzel.ptpSync (e : Elzel) (p : Nat) (offset : Int) (mpd : Nat) : Elzel :=
  let st := e.ptpState p
  if e.ptpMode p != 1 || (st != 8 && st != 9) then e
  else
    let e := e.onC (fun c => (c.wr EZ.PTP_STATUS_STATE 9 p).wr EZ.PTP_STATUS_MPD mpd p)
    if st == 9 then e.onC (·.refUpdate (4 + p) (-offset) (-offset)) else e

/-- What a MASTER instance advertises: clockClass, clockAccuracy and timeSource (R146, R147). -/
def Elzel.advert (e : Elzel) (p : Nat) : Nat × Nat × Nat :=
  let c := e.c
  if c.isRoot then
    let lk := c.refLock
    if lk < 2 then (248, 0xFE, 0xA0)
    else if !c.flag EZ.EPOCH_CTL_MODE then (13, 0xFE, 0xA0)
    else if lk == 2 then (6, 0x21, if c.refSel == 2 || c.refSel == 3 then 0x20 else 0x40)
    else if c.flag EZ.REF_STATUS_SPEC then (7, 0x24, 0xA0)
    else (52, 0xFE, 0xA0)
  else
    let x := e.port p
    let lk := c.calLock
    let isLocal := match x.fetched with | some v => v.local_ | none => false
    let fresh := x.fetched.isSome && decide (c.now - x.fetchedAt ≤ 3000000000)
    if lk < 2 then (248, 0xFE, 0xA0)
    else if lk == 2 && fresh then
      match x.fetched with
      | some v => (v.clockClass.toNat, v.accuracy.toNat, v.timeSource.toNat)
      | none => (52, 0xFE, 0xA0)
    else (if isLocal then 14 else 52, 0xFE, 0xA0)

/-- Which messages an instance sends in its role (R143). -/
def Elzel.ptpDue (e : Elzel) (p : Nat) (k : PtpKind) : Elzel :=
  let mode := e.ptpMode p
  let p2p := e.c.flag EZ.PTP_CTL_P2P p
  let e := e.ptpBegin p
  match k with
  | .sync => if mode == 2 then e.ptpSend p (if e.c.flag EZ.PTP_CTL_ONE_STEP p then [.sync] else [.followUp, .sync]) else e
  | .announce => if mode == 2 then e.ptpSend p [.announce] else e
  | .delayReq => if mode == 1 && !p2p && (e.ptpState p == 8 || e.ptpState p == 9) then e.ptpSend p [.delayReq] else e
  | .pdelayReq => if (mode == 1 || mode == 2) && p2p then e.ptpSend p [.pdelayReq] else e
  | _ => e

/-- announceReceiptTimeout intervals without an Announce of a master (R143, R145): the master is dropped. -/
def Elzel.annTimeout (e : Elzel) (p : Nat) : Elzel :=
  if e.ptpMode p != 1 then e
  else
    let lim := min 7 (max 2 (e.c.rd EZ.PTP_CTL_ANN_TO p)) * 2 ^ (min 4 (e.c.rd EZ.PTP_CTL_LOG_ANN p)) * 1000000000
    let left := (e.port p).masters.filter (fun m => decide (e.c.now - m.heardAt < lim))
    if left.length == (e.port p).masters.length then e else (e.onPtp p (fun x => { x with masters := left })).ptpSelect p

/-! ### One-step insertion (R149) -/

/-- CRC-32 of Ethernet over bytes, least significant bit first, for the FCS. -/
def fcsBit (r : Nat) (b : Bool) : Nat := if (r % 2 == 1) != b then Nat.xor (r / 2) 0xEDB88320 else r / 2
def fcsByte (r : Nat) (v : BitVec 8) : Nat := (List.range 8).foldl (fun r i => fcsBit r (v.toNat.testBit i)) r
def fcs (bs : List (BitVec 8)) : Nat := 2 ^ 32 - 1 - bs.foldl fcsByte (2 ^ 32 - 1)

/-- Bytes written over a list from offset o. -/
def patch (l : List (BitVec 8)) (o : Nat) (bs : List (BitVec 8)) : List (BitVec 8) := l.take o ++ bs ++ l.drop (o + bs.length)
/-- n bytes from offset o as a number. -/
def readAt (l : List (BitVec 8)) (o n : Nat) : Nat := ofBytesBE ((l.drop o).take n)

/-- Sum of the 16-bit words of a byte list, in ones' complement (for the UDP/IPv6 octets). -/
def sum16 : List (BitVec 8) → Nat
  | a :: b :: l => (a.toNat * 256 + b.toNat + sum16 l) % 65535
  | [a] => a.toNat * 256
  | [] => 0

/-- The frame as it leaves with ONESTEP (R149), without its FCS. The message begins after the Ethernet, VLAN, IP and UDP
headers of the port's settings. -/
def oneStep (transport : Nat) (vlan : Bool) (stamp t2 : Nat) (f : List (BitVec 8)) : List (BitVec 8) :=
  let o := 14 + (if vlan then 4 else 0) + (if transport == 1 then 28 else if transport == 2 then 48 else 0)
  let kind := readAt f o 1 % 16
  let corr := readAt f (o + 8) 8
  let ns := stamp / 65536
  let g := if kind == 3 then patch f (o + 8) (bytesBE 8 ((corr + (stamp + 2 ^ 80 - t2)) % 2 ^ 64))
    else patch (patch f (o + 34) (bytesBE 6 (ns / 1000000000) ++ bytesBE 4 (ns % 1000000000))) (o + 8)
      (bytesBE 8 ((corr + stamp % 65536) % 2 ^ 64))
  if transport == 1 then patch g (o - 2) (bytesBE 2 0)
  else if transport == 2 then
    let n := g.length
    let old := sum16 (f.drop o)
    let new := sum16 ((g.take (n - 2)).drop o)
    patch g (n - 2) (bytesBE 2 ((old + 65535 - new % 65535) % 65535))
  else g

/-! ### Timed frames (R150 to R154) -/

def TxDesc.sec (d : TxDesc) : Nat := bits d.d0 63 16
def TxDesc.id (d : TxDesc) : Nat := bits d.d0 15 0
def TxDesc.ns (d : TxDesc) : Nat := bits d.d1 63 34
def TxDesc.timed (d : TxDesc) : Bool := bit d.d1 33
def TxDesc.lateSend (d : TxDesc) : Bool := bit d.d1 32
def TxDesc.stamped (d : TxDesc) : Bool := bit d.d1 31
def TxDesc.oneStepOn (d : TxDesc) : Bool := bit d.d1 30
def TxDesc.len (d : TxDesc) : Nat := bits d.d1 29 18
def TxDesc.buf (d : TxDesc) : Nat := bits d.d1 17 12

/-- The byte of BAR0 at which a frame buffer begins (R152). -/
def bufAddr (p buf : Nat) : Nat := 0x70000 + 0x20000 * p + 0x800 * buf

/-- HT in 2^-32 ns. -/
def Chip.ht (c : Chip pt) : Nat := (c.htSec * 1000000000 + c.htNs) * 2 ^ 32 + c.htFrac

/-- The preamble and delimiter, 2.56 ns before the launch time, should have started (R154). -/
def Chip.preambleDue (c : Chip pt) (d : TxDesc) (strict : Bool) : Bool :=
  let l := (d.sec * 1000000000 + d.ns) * 2 ^ 32 * 100
  let h := c.ht * 100 + 256 * 2 ^ 32
  if strict then decide (h > l) else decide (h ≥ l)

/-- Word 1 of a descriptor written: the descriptor is queued, or refused when 32 are held (R152). -/
def Elzel.txqEnqueue (e : Elzel) (p : Nat) (d1 : Word) : Elzel :=
  let x := e.port p
  if x.txq.length + (if x.head == .none_ then 0 else 1) ≥ 32 then e.onC (·.inc EZ.TXQ_STATUS_FULL p)
  else e.onPtp p (fun x => { x with txq := x.txq ++ [⟨x.d0, d1⟩] })

/-- A record of the transmit stamp queue (R150, R151). -/
def Elzel.tsPut (e : Elzel) (p : Nat) (d : TxDesc) (late : Bool) (stamp : Nat) : Elzel :=
  let x := e.port p
  if x.tsq.length ≥ 64 then
    (e.onC (fun c => (c.inc EZ.TXQ_STATUS_TSQ_OVF p).wr EZ.TXQ_STATUS_LOST_ID d.id p)).onPtp p (fun x => { x with lostBefore := true })
  else
    let w := w64 (2 ^ 63 + put 62 62 (b2n x.lostBefore) + put 61 60 e.c.steps + put 59 59 (b2n late) + d.id)
    let sw := w64 ((stamp / 65536 % 2 ^ 40) * 65536 + stamp % 65536)
    e.onPtp p (fun x => { x with tsq := x.tsq ++ [⟨w, sw, e.c.now⟩], lostBefore := false })

/-- The next descriptor reaches the head (R152 to R154). -/
def Elzel.txqHead (e : Elzel) (p : Nat) : Elzel :=
  let x := e.port p
  match x.head, x.txq with
  | .none_, d :: rest =>
    let e := e.onPtp p (fun x => { x with txq := rest })
    if !d.timed then e.onPtp p (fun x => { x with head := .sending d false })
    else if e.c.preambleDue d true then
      let e := e.onC (fun c => (c.inc EZ.TXQ_STATUS_LATE p).raise EV.TXQ_LATE none none
        [i8 p, i16 d.id, i64 d.sec, i32 d.ns, i64 c.gtInt])
      if d.lateSend then e.onPtp p (fun x => { x with head := .sending d true })
      else if d.stamped then e.tsPut p d true 0 else e
    else e.onPtp p (fun x => { x with head := .waiting d })
  | _, _ => e

/-- The frame at the head has been sent (R149, R150). -/
def Elzel.txqSent (e : Elzel) (p stamp : Nat) : Elzel :=
  let x := e.port p
  match x.head with
  | .sending d late =>
    let n := min 1522 (max 64 d.len)
    let raw := memReadBytes e.frames (bufAddr p d.buf) (n - 4)
    let f := if d.oneStepOn then
        oneStep (e.c.rd EZ.PTP_CTL_TRANSPORT p) (e.c.flag EZ.PTP_CTL_VLAN_EN p) stamp x.pdelayRx.toNat raw else raw
    let e := e.onPtp p (fun x => { x with head := .none_, lastFrame := f ++ (bytesBE 4 (fcs f)).reverse })
    if d.stamped then e.tsPut p d late stamp else e
  | _ => e

/-- A read of EZ_ETS: the oldest record, removed, its stamp latched; VALID = 0 when there is none (R150). -/
def Elzel.etsRead (e : Elzel) (p : Nat) : Elzel × Word :=
  match (e.port p).tsq with
  | [] => (e, 0)
  | r :: rest => ((e.onPtp p (fun x => { x with tsq := rest })).onC (fun c => c.set (EZ.ETS_STAMP + 0x100 * p) r.stamp), r.ets)

/-- A record that has waited 2^39 ns is discarded and counted (R150). -/
def Elzel.tsAge (e : Elzel) (p : Nat) : Elzel :=
  match (e.port p).tsq with
  | r :: rest =>
    if e.c.now - r.at_ ≥ 2 ^ 39 then
      (e.onPtp p (fun x => { x with tsq := rest, lostBefore := x.lostBefore })).onC (·.inc EZ.TXQ_STATUS_TSQ_OVF p)
    else e
  | [] => e

/-- ENGINE reset of subsystem 15 (R163). -/
def Elzel.ptpEngineReset (e : Elzel) : Elzel :=
  [0, 1].foldl (fun e p =>
    let x := e.port p
    let n := x.txq.length + x.tsq.length + (if x.head == .none_ then 0 else 1)
    let e := e.onC (·.inc EZ.TXQ_STATUS_TSQ_OVF p n)
    let e := e.onC (fun c => if c.rd EZ.PTP_CTL_MODE p == 0 then c else c.wr EZ.PTP_STATUS_STATE 1 p)
    e.onPtp p (fun x => { x with txq := [], tsq := [], head := .none_, masters := [], best := none })) e

/-! ### Outputs (R155 to R160) -/

/-- The 1PPS output is held low (R157). -/
def Elzel.squelched (e : Elzel) : Bool := e.c.flag EZ.PPS_CTL_SQUELCH && decide (e.c.calLock < 2)

/-- ps as 2^-16 ns, to the nearest. -/
def psUnits (ps : Nat) : Int := divNear ((ps * 65536 : Nat) : Int) 1000

/-- One HT whole second (R155 to R157): the 1PPS edge, its loopback stamp, and the mean 10 MHz loopback error over the second, in
2^-16 ns. The interpolators move by a sixteenth of the error. -/
def Elzel.pps (e : Elzel) (stamp : Nat) (ten : Int) : Elzel :=
  let c := e.c
  let e := if c.flag EZ.PPS_CTL_TENM_EN then { e with out := { e.out with trimTen := e.out.trimTen + divNear ten 8192 } } else e
  if !c.flag EZ.PPS_CTL_PPS_EN || e.squelched then e
  else if (match e.out.lastPps with | some (t, _) => decide (c.now - t < 1000000) | none => false) then e.onC (·.inc EZ.PPS_STATUS_SKIPPED)
  else
    let err : Int := Int.ofNat stamp - psUnits (c.rd EZ.PPS_CTL_LAT_PPS) - Int.ofNat (c.htSec * 1000000000 % 2 ^ 64 * 65536)
    let w := min 999999 (max 1 (c.rd EZ.PPS_CTL_WIDTH)) * 1000
    { (e.onC (·.wrS EZ.PPS_STATUS_ERR err)) with
      out := { e.out with trimPps := e.out.trimPps + divNear err 8192, lastPps := some (c.now, w) } }

def Elzel.spLen (e : Elzel) : Nat := max 100 e.out.spPeriod

/-- DEV of a label against the grid in use, in whole ns (R159). -/
def spDevOf (gt anchor period : Nat) : Int :=
  let p : Int := Int.ofNat (period * 2 ^ 32)
  let r := (Int.ofNat gt - Int.ofNat (anchor * 2 ^ 32)) % p
  divNear (if 2 * r > p then r - p else r) (2 ^ 32)

/-- PERIOD, WIDTH and ANCHOR loaded. -/
def Elzel.spLoad (e : Elzel) : Elzel :=
  let p := max 100 (e.c.rd EZ.SPULSE_CTL_PERIOD)
  { e with out := { e.out with
      spPeriod := p, spWidth := min (e.c.rd EZ.SPULSE_CTL_WIDTH) (p / 2), spAnchor := (e.c.get EZ.SPULSE_ANCHOR).toNat } }

/-- A write of EZ_SPULSE_CTL (R158, R160). DEV at a REALIGN is that of the next pulse's label, as GT now stands (DEDUCED, log entry 80). -/
def Elzel.spulseWrite (e : Elzel) (w : Word) : Elzel :=
  let was := e.c.flag EZ.SPULSE_CTL_EN
  let en := bit w 63
  let e := e.onC (fun c => ((((c.wr EZ.SPULSE_CTL_EN (b2n en)).wr EZ.SPULSE_CTL_GRADUAL (bits w 61 61)).wr EZ.SPULSE_CTL_MAXADJ (bits w 60 48)).wr
    EZ.SPULSE_CTL_PERIOD (bits w 47 16)).wr EZ.SPULSE_CTL_WIDTH (bits w 15 0))
  if !en then { (e.onC (fun c => (c.wr EZ.SPULSE_STATUS_RUN 0).wr EZ.SPULSE_STATUS_ALIGNING 0)) with out := { e.out with spAlign := false } }
  else
    let e := if was then e
      else
        let e := e.spLoad
        let from_ := e.c.gtInt + 1000
        let p := e.spLen
        let off := (Int.ofNat from_ - Int.ofNat e.out.spAnchor) % (p : Int)
        let wait := 1000 + (if off = 0 then 0 else p - off.toNat)
        { (e.onC (·.wr EZ.SPULSE_STATUS_RUN 1)) with out := { e.out with spNext := e.c.now + wait, spDev := false } }
    if bit w 62 && was then
      let e := e.spLoad
      let label := e.c.gt + (e.out.spNext - e.c.now) * 2 ^ 32
      let e := e.onC (fun c => (c.wrS EZ.SPULSE_STATUS_DEV (spDevOf label e.out.spAnchor e.spLen)).wr EZ.SPULSE_STATUS_ALIGNING (bits w 61 61))
      { e with out := { e.out with spAlign := true } }
    else e

/-- One step pulse (R158 to R160, R156). -/
def Elzel.stepPulse (e : Elzel) (stamp : Nat) : Elzel :=
  let c := e.c
  if !c.flag EZ.SPULSE_CTL_EN || decide (c.now < e.out.spNext) then e
  else
    let p := e.spLen
    let dev := spDevOf c.gt e.out.spAnchor p
    let far := decide (dev.natAbs > 10)
    let c2 := c.wrS EZ.SPULSE_STATUS_DEV dev
    let c2 := if far && !e.out.spDev then c2.raise EV.SPULSE_DEV none none [s32 dev, i64 c.gtInt] else c2
    let grad := c.flag EZ.SPULSE_CTL_GRADUAL
    let m : Int := (max 1 (c.rd EZ.SPULSE_CTL_MAXADJ) : Nat)
    let adj := if !e.out.spAlign then 0 else if !grad then dev else if dev > m then m else if dev < -m then -m else dev
    let still := e.out.spAlign && grad && dev != 0
    let c2 := c2.wr EZ.SPULSE_STATUS_ALIGNING (b2n still)
    let err : Int := Int.ofNat stamp - psUnits (c.rd EZ.PPS_CTL_LAT_SP) - Int.ofNat (c.gt / 2 ^ 16 % 2 ^ 80)
    { e with c := c2, out := { e.out with
        spNext := (Int.ofNat (c.now + p) - adj).toNat, spDev := far, spAlign := still,
        lastPulse := some (c.now, e.out.spWidth), trimSp := e.out.trimSp + divNear err 8192 } }

/-! ### Meanings -/

/-- PTP_SYNC (R145). -/
def execPtpSync (p : BitVec 7) (offset : BitVec 48) (mpd : BitVec 32) (s : State) : Out :=
  .next (s.onEzPtp p.toNat (·.ptpSync p.toNat offset.toInt mpd.toNat))

/-- PTP_MESSAGE (R144 to R146, R148). -/
def execPtpMessage (p : BitVec 7) (msg : PtpMsg) (s : State) : Out := .next (s.onEzPtp p.toNat (·.ptpMessage p.toNat msg))

/-- PTP_CLASS_FETCH (R147): the answer of the root, if one came. -/
def execPtpClassFetch (p : BitVec 7) (answer : Option PtpValues) (s : State) : Out :=
  .next (s.onEzPtp p.toNat (fun e =>
    match answer with
    | some v => if e.c.isRoot then e else e.onPtp p.toNat (fun x => { x with fetched := some v, fetchedAt := e.c.now })
    | none => e))

/-- TXQ_ENQUEUE (R152). -/
def execTxqEnqueue (p : BitVec 7) (d1 : Word) (s : State) : Out := .next (s.onEzPtp p.toNat (·.txqEnqueue p.toNat d1))

/-- TXQ_DESCRIPTOR_HEAD (R152, R154). -/
def execTxqDescriptorHead (p : BitVec 7) (s : State) : Out := .next (s.onEzPtp p.toNat (·.txqHead p.toNat))

/-- TIMED_FRAME_LAUNCH (R153): the preamble of the timed frame at the head starts in time for its launch. -/
def execTimedFrameLaunch (p : BitVec 7) (s : State) : Out :=
  .next (s.onEzPtp p.toNat (fun e =>
    match (e.port p.toNat).head with
    | .waiting d => if e.c.preambleDue d false then e.onPtp p.toNat (fun x => { x with head := .sending d false }) else e
    | _ => e))

/-- FRAME_TRANSMITTED (R149 to R151). -/
def execFrameTransmitted (p : BitVec 7) (stamp : BitVec 80) (s : State) : Out :=
  .next (s.onEzPtp p.toNat (·.txqSent p.toNat stamp.toNat))

/-- ETS_READ (R150). -/
def execEtsRead (p : BitVec 7) (s : State) : Out := .next (s.onEzPtp p.toNat (fun e => (e.etsRead p.toNat).1))

/-- TX_STAMP_AGE_DISCARD (R150). -/
def execTxStampAgeDiscard (p : BitVec 7) (s : State) : Out := .next (s.onEzPtp p.toNat (·.tsAge p.toNat))

/-- PPS_OUTPUT (R155 to R157). -/
def execPpsOutput (stamp : BitVec 80) (tenErr : BitVec 32) (s : State) : Out :=
  .next (s.onEz (·.pps stamp.toNat tenErr.toInt))

/-- STEP_PULSE (R158 to R160). -/
def execStepPulse (stamp : BitVec 80) (s : State) : Out := .next (s.onEz (·.stepPulse stamp.toNat))

/-- SPULSE_ENABLE (R158): a write of EZ_SPULSE_CTL with EN = 1. -/
def execSpulseEnable (data : Word) (s : State) : Out := .next (s.onEz (·.spulseWrite (setBits data 63 62 2)))

/-- SPULSE_REALIGN (R160): a write of EZ_SPULSE_CTL with REALIGN = 1. -/
def execSpulseRealign (data : Word) (s : State) : Out := .next (s.onEz (·.spulseWrite (setBits data 62 62 1)))

/-- PTP_MESSAGE_DUE (R143). -/
def execPtpMessageDue (p : BitVec 7) (kind : PtpKind) (s : State) : Out := .next (s.onEzPtp p.toNat (·.ptpDue p.toNat kind))

/-- ANNOUNCE_RECEIPT_TIMEOUT (R145). -/
def execAnnounceReceiptTimeout (p : BitVec 7) (s : State) : Out := .next (s.onEzPtp p.toNat (·.annTimeout p.toNat))

end Sys2Proof.Machine
end

