-- ==== Sys2Proof/Machine/Power.lean ====
section
/-!
DEFINITION. Sys2Proof/Machine/Power.lean: the power states of 15: idle time, entry to NAP, BURROW, QUIET and DEN_ONLY, and wakes.
-/
namespace Sys2Proof.Machine

variable {pt : Part}

/-! ### Garja (R306 to R313) -/

/-- BURROW_MAX in s; others than 1 to 9 act as the nearer bound (R312). -/
def Chip.burrowMax (c : Chip pt) : Nat := min 9 (max 1 (c.rd GJ.PST_CTL_BURROW_MAX))
/-- EXIT_BURROW in µs (R312). -/
def Chip.exitBurrow (c : Chip pt) : Nat := 250 + 100 * c.burrowMax

/-- The tolerance test for NAP (R308). -/
def Chip.ltrNap (c : Chip pt) : Bool := decide (c.rd GJ.PST_LTR_ACCESS ≥ 2000)
/-- The tolerance test for BURROW (R308). -/
def Chip.ltrBurrow (c : Chip pt) : Bool :=
  decide (c.rd GJ.PST_LTR_ACCESS ≥ 15000) && decide (c.rd GJ.PST_LTR_TIME ≥ c.exitBurrow)

/-- A context is in the state ACTIVE. -/
def Chip.anyActive (c : Chip pt) : Bool :=
  c.regs.any (fun e => decide (0x6800 ≤ e.1) && decide (e.1 < 0x7000) && bits e.2 63 61 == 1)

/-- No target-port or initiator-port transaction is outstanding (R307). -/
def Garja.quietPorts (g : Garja) : Bool :=
  g.so.passes.all (fun p => p.answers.isEmpty) && g.so.intake.isEmpty && g.lane.reads.isEmpty && g.lane.records.isEmpty
    && g.c.cmd.open_.isEmpty && g.c.cmd.replies.isEmpty

/-- The conditions of NAP, which BURROW shares (R307, R309). -/
def Garja.idle (g : Garja) : Bool :=
  g.c.flag GJ.PST_CTL_NAP_EN && !g.c.flag GJ.PST_CTL_PIN && !g.c.anyActive && g.quietPorts && g.c.ev.queue.isEmpty
    && !g.c.flag GJ.PWR_RAMP0_RUN && g.c.ltrNap && g.c.den.run.isNone

/-- The idle time counted (R307): it starts when the conditions are first seen and ends when one of them is not. -/
def Chip.noteIdle (c : Chip pt) (idle : Bool) : Chip pt :=
  { c with pw := { c.pw with idleSince := if idle then some (c.pw.idleSince.getD c.now) else none } }

/-- The conditions have held for n ns. -/
def Chip.idleFor (c : Chip pt) (n : Nat) : Bool :=
  match c.pw.idleSince with
  | some t => decide (t + n ≤ c.now)
  | none => false

/-- Entry to BURROW (R38, R306): HOLDOVER, both ports DISABLED, the GPLL stopped. The exit reason of the ports and the lock bit are
DEDUCED (log entry 60). -/
def Garja.enterBurrow (g : Garja) : Garja :=
  g.onC (fun c =>
    let c := c.setLock 3 c.input
    let c := (c.leave 0 6 0).leave 1 6 0
    let c := c.wr GJ.CLK_STATUS_GPLL_LOCK 0
    { c with pw := { c.pw with st := .burrow, entryAt := c.now } })

/-- Entry to NAP (R306). -/
def Garja.enterNap (g : Garja) : Garja := g.onC (fun c => { c with pw := { c.pw with st := .nap, entryAt := c.now } })

/-- POWER_STATE_ENTRY (R307): a ballast above 0 is ramped down first (R295). -/
def Garja.powerEntry (g : Garja) : Garja :=
  if g.c.pw.st != .run || !g.idle || !g.c.idleFor (g.c.rd GJ.PST_CTL_IDLE_US * 1000) then g
  else if g.level > 0 then g.defaultRamp
  else if g.c.flag GJ.PST_CTL_BURROW_EN && !g.c.anyCtx && g.c.ltrBurrow then g.enterBurrow
  else g.enterNap

/-- The state is disqualified by GJ_PST_LTR (R308). -/
def Chip.ltrFails (c : Chip pt) : Bool := (c.pw.st == .nap && !c.ltrNap) || (c.pw.st == .burrow && !c.ltrBurrow)

/-- GJ_PST_LTR written (R308). -/
def Chip.ltrSet (c : Chip pt) (data : Word) : Chip pt :=
  let c := c.set GJ.PST_LTR data
  if c.ltrFails then c.wake 1 else c

/-- The last time at which the part was LOCKED, in local time (R312). -/
def Chip.lastLocked (c : Chip pt) : Nat := if c.lock == 3 then c.tb.holdSince else if c.lock == 2 then c.now else c.pw.lockedAt

/-- A periodic relock is due (R312). -/
def Chip.relockDue (c : Chip pt) : Bool :=
  c.pw.st == .burrow && decide (c.lastLocked + c.burrowMax * 1000000000 ≤ c.now)

/-- The source of a wake acts in the present state, with its enable (R310). -/
def Chip.wakeAllowed (c : Chip pt) (cause : Nat) : Bool :=
  let nap := c.pw.st == .nap
  let any := nap || c.pw.st == .burrow
  match cause with
  | 1 => any
  | 2 | 3 | 4 => nap
  | 5 => c.pw.st == .burrow
  | 6 => any && c.flag GJ.PST_WAKE_TIMER && decide (sdiff 64 c.gtInt (c.rd GJ.PST_TIMER_WAKE_AT) ≥ 0)
  | 7 => any && (c.flag GJ.PST_WAKE_EVT0 || c.flag GJ.PST_WAKE_EVT1)
  | 8 => any && c.flag GJ.PWR_STATUS_REQ && c.flag GJ.PST_WAKE_PWR_REQ
  | 9 => c.relockDue
  | _ => false

/-! ### Elzel (R314 to R316) -/

/-- The conditions of QUIET (R315); a trace capture runs while the journal is written with TRACE_ITEMS (R244, R356). -/
def Elzel.idle (e : Elzel) : Bool :=
  e.c.flag EZ.PST_CTL_QUIET_EN && !e.c.anyMember && (List.range e.c.nSets).all (fun k => e.c.setState k == 0)
    && !(e.c.flag EZ.JRNL_CTL_EN && e.c.flag EZ.JRNL_CTL_TRACE_ITEMS) && e.c.cmd.open_.isEmpty && e.c.cmd.replies.isEmpty
    && e.c.den.run.isNone

/-- QUIET_ENTRY (R315). -/
def Elzel.quietEntry (e : Elzel) : Elzel :=
  if e.c.pw.st == .run && e.idle && e.c.idleFor (e.c.rd EZ.PST_CTL_IDLE_MS * 1000000) then
    e.onC (fun c => { c.wr EZ.PST_STATUS_STATE 1 with pw := { c.pw with st := .quiet, entryAt := c.now } })
  else e

/-- Entry to DEN_ONLY (R314, R316): the ports stop, both lock states read HOLDOVER, and the Den keeps HT with the DCO trim of
this edge. A running capture ends first (R449). -/
def Elzel.enterDenOnly (e : Elzel) (entry : Nat) : Elzel :=
  e.onC (fun c =>
    let c := (c.setLock 3 c.input).setRef 3
    let c := (List.range 68).foldl (fun c p => if c.rd EZ.SL_STATUS_STATE p == 0 then c else c.leave p 6 0) c
    let c := (c.wr EZ.PST_STATUS_STATE 2).wr EZ.PST_STATUS_ENTRY entry
    { c with pw := { c.pw with st := .denOnly, entryAt := c.now, trimFrozen := c.rdS EZ.CLN_DCO_TRIM } })

/-- A request for DEN_ONLY (R315): refused, and counted, while a job has a member below unless FORCE is set. -/
def Elzel.denOnlyReq (e : Elzel) (force : Bool) : Elzel :=
  if e.c.pw.st == .denOnly then e
  else if e.c.anyMember && !force then e.onC (·.inc EZ.PST_STATUS_REFUSED)
  else e.enterDenOnly 1

/-! ### Meanings -/

/-- POWER_STATE_ENTRY (R307). -/
def execPowerStateEntry (s : State) : Out := .next (s.onGjLive Garja.powerEntry)

/-- WAKE (R310): a source that does not act in the present state, or is not enabled, wakes nothing. -/
def execWake (cause : BitVec 4) (s : State) : Out :=
  .next (s.onDen .garja (fun c => if c.wakeAllowed cause.toNat then c.wake cause.toNat else c))

/-- BURROW_RELOCK (R312). -/
def execBurrowRelock (s : State) : Out := .next (s.onDen .garja (fun c => if c.relockDue then c.wake 9 else c))

/-- LTR_WRITE (R308): a request of the target port. -/
def execLtrWrite (data : Word) (s : State) : Out := .next (s.onReg .garja (·.ltrSet data))

/-- QUIET_ENTRY (R315). -/
def execQuietEntry (s : State) : Out := .next (s.onEz Elzel.quietEntry)

/-- DEN_ONLY_REQUEST (R315): a write of EZ_PST_CTL with REQ = DEN_ONLY. -/
def execDenOnlyRequest (force : Bool) (s : State) : Out := .next (s.onEz (·.denOnlyReq force))

end Sys2Proof.Machine
end

