-- ==== Sys2Proof/Machine/RegAccess.lean ====
section
/-!
DEFINITION. Sys2Proof/Machine/RegAccess.lean: what the register maps of 20 say of an offset: the row that holds it, its writable
bits, a masked write as it is stored, and the stated ranges of its fields.
-/
namespace Sys2Proof.Machine

variable {pt : Part}

/-- The row of the register map that holds an offset. -/
def regRow (u : Part) (off : Nat) : Option RegRow :=
  (match u with | .garja => GJ.rows | .elzel => EZ.rows).find? (fun r => rowHas r.base r.stride r.count off)

/-- The RW bits of a register; GJ_SO_TMO_0 reads as zero (R181). -/
def rwMask (u : Part) (off : Nat) : Nat :=
  if u == .garja && off == 0x4100 then 0 else match regRow u off with
  | some r => r.rw
  | none => 0

/-- The bits of a that b selects, over the rest of c. -/
def mergeBits (c a b : Word) : Word := (c &&& ~~~b) ||| (a &&& b)

/-- A write of data under a mask as the RW bits store it; what is not RW stays. -/
def Chip.storeRw (c : Chip pt) (off : Nat) (mask data : Word) : Chip pt :=
  c.set off (mergeBits (c.get off) data (mask &&& w64 (rwMask pt off)))

/-- A stated range of a field: the registers, the bits, the least and the greatest value. -/
structure FldRange where
  base : Nat
  stride : Nat
  count : Nat
  hi : Nat
  lo : Nat
  least : Nat
  most : Nat
deriving DecidableEq, Repr

/-- The stated ranges of Garja's RW fields; a value that a direct write would clamp lies outside (R280). -/
def gjRanges : List FldRange :=
  [⟨0x128, 0, 1, 35, 0, incrLo, incrHi⟩, ⟨0x130, 0, 1, 47, 40, 40, 255⟩, ⟨0x300, 0x40, 4, 62, 61, 0, 2⟩,
   ⟨0x318, 0x40, 4, 31, 0, 1000, 4294967295⟩, ⟨0x328, 0x40, 4, 60, 40, 3, 1048576⟩, ⟨0x328, 0x40, 4, 39, 24, 1, 65535⟩,
   ⟨0x400, 0, 1, 61, 57, 20, 24⟩, ⟨0x510, 0x80, 2, 47, 32, 0, 4095⟩, ⟨0x4800, 8, 256, 38, 32, 0, 64⟩,
   ⟨0xB008, 0, 1, 23, 0, 64, 16777215⟩, ⟨0xB100, 0, 1, 55, 48, 1, 9⟩, ⟨0xEA08, 0x20, 16, 61, 57, 6, 16⟩,
   ⟨0xF818, 0x40, 8, 61, 58, 4, 12⟩, ⟨0xF818, 0x40, 8, 57, 54, 4, 12⟩, ⟨0xFC10, 0, 1, 47, 32, 100, 65535⟩]

/-- The stated ranges of Elzel's RW fields. -/
def ezRanges : List FldRange :=
  [⟨0x100, 0, 1, 60, 59, 1, 3⟩, ⟨0x20000, 0x40, 76, 62, 61, 0, 2⟩, ⟨0x20018, 0x40, 76, 31, 0, 1000, 4294967295⟩,
   ⟨0x20028, 0x40, 76, 60, 40, 3, 1048576⟩, ⟨0x20028, 0x40, 76, 39, 24, 1, 65535⟩, ⟨0x21400, 0, 1, 61, 57, 20, 24⟩,
   ⟨0x30000, 0x80, 68, 53, 39, 25, 25000⟩, ⟨0x30010, 0x80, 68, 47, 32, 0, 4095⟩, ⟨0x50128, 0, 1, 35, 0, incrLo, incrHi⟩,
   ⟨0x50130, 0, 1, 47, 40, 40, 255⟩, ⟨0x60000, 0x100, 2, 63, 62, 0, 2⟩, ⟨0x60000, 0x100, 2, 59, 58, 0, 2⟩,
   ⟨0x60000, 0x100, 2, 57, 50, 0, 127⟩, ⟨0x60000, 0x100, 2, 45, 42, 0, 4⟩, ⟨0x60000, 0x100, 2, 41, 38, 0, 5⟩,
   ⟨0x60000, 0x100, 2, 21, 19, 2, 7⟩, ⟨0x60200, 0, 1, 19, 0, 1, 999999⟩, ⟨0x60300, 0, 1, 60, 48, 1, 8191⟩,
   ⟨0x60300, 0, 1, 47, 16, 100, 4294967295⟩]
  ++ [⟨0x100000, 0x20, 4096, 53, 49, 0, 16⟩, ⟨0x100008, 0x20, 4096, 49, 39, 0, 1024⟩, ⟨0x800000, 8, 524288, 18, 0, 0, 262144⟩,
   ⟨0xE00000, 0, 1, 49, 40, 1, 1023⟩, ⟨0xE50008, 0x20, 64, 61, 57, 6, 16⟩, ⟨0xC80018, 0x40, 1024, 61, 58, 4, 12⟩,
   ⟨0xC80018, 0x40, 1024, 57, 54, 4, 12⟩, ⟨0xD80100, 0x10, 5, 63, 56, 0, 127⟩, ⟨0xD80100, 0x10, 5, 55, 48, 0, 128⟩,
   ⟨0xE70010, 0, 1, 47, 32, 100, 65535⟩]

/-- The fields whose range is not one interval: PNOM 0 or from 0.25 ns (R42), LOG_SYNC −7 to +1 (R143), and the DCO trim (R113). -/
def rangeOdd (u : Part) (off : Nat) (mask new : Word) : Bool :=
  match u with
  | .garja => !(rowHas 0x2000 8 64 off && bits mask 23 0 != 0 && bits new 23 0 != 0 && decide (bits new 23 0 < 0x4000))
  | .elzel =>
    !(rowHas 0x60000 0x100 2 off && bits mask 49 46 != 0 && decide (bits new 49 46 > 1) && decide (bits new 49 46 < 9))
      && !(off == 0x40210 && decide ((sx 32 (bits new 31 0)).natAbs > 655360000))

/-- Every field that the mask touches lies in its stated range (RANGE of R280). -/
def rangeOk (u : Part) (off : Nat) (mask new : Word) : Bool :=
  (match u with | .garja => gjRanges | .elzel => ezRanges).all (fun r =>
    !rowHas r.base r.stride r.count off || bits mask r.hi r.lo == 0
      || (decide (r.least ≤ bits new r.hi r.lo) && decide (bits new r.hi r.lo ≤ r.most)))
    && rangeOdd u off mask new

/-- The window of a part's registers: Garja's register window of 64 KiB (R402), Elzel's BAR0 of 16 MiB (R403). -/
def regWindow : Part → Nat
  | .garja => 0x10000
  | .elzel => 0x1000000

/-- FORMAT of R280 for a WRITE entry: the offset is in the window and aligned, and the mask covers RW bits only. -/
def formatOk (u : Part) (off : Nat) (mask : Word) : Bool :=
  decide (off < regWindow u) && off % 8 == 0 && mask &&& ~~~(w64 (rwMask u off)) == 0

end Sys2Proof.Machine
end

