-- ==== Sys2Proof/Machine/Pool.lean ====
section
/-!
DEFINITION. Sys2Proof/Machine/Pool.lean: command headers (R340), routing of MGMT packets in an Elzel (R91), and the tree-tag pool by
which an Elzel sends a command into the tree (R345, R351).
-/
namespace Sys2Proof.Machine

variable {pt : Part}

/-! ### Headers (R340, R341) -/

/-- Word 0 of a command header. -/
def cmdW0 (op lvl tag blen : Nat) : Word := w64 (put 63 56 op + put 55 48 lvl + put 47 32 tag + put 31 26 blen)

def hdrOp (w : Word) : Nat := bits w 63 56
def hdrLvl (w : Word) : Nat := bits w 55 48
def hdrTag (w : Word) : Nat := bits w 47 32
def hdrBlen (w : Word) : Nat := bits w 31 26
def hdrRoute (w : Word) : Bool := bit w 25
def hdrFence (w : Word) : Bool := bit w 24
def hdrLevel (w : Word) : Nat := bits w 23 22
def hdrDst (w : Word) : Nat := bits w 21 4
def hdrDomain (w : Word) : Nat := bits w 3 3
def hdrByChip (w : Word) : Bool := bit w 2
/-- STATUS, DETAIL and INDEX of a reply. -/
def repStatus (w : Word) : Nat := bits w 25 18
def repDetail (w : Word) : Nat := bits w 63 48
def repIndex (w : Word) : Nat := bits w 47 32

/-! ### Routing (R91) -/

/-- Where a routed MGMT packet goes from an Elzel. -/
inductive Route where
  | here
  | to_ (p : Nat)
  | nowhere
deriving DecidableEq, Repr

/-- The downstream port on the way to a coordinate. -/
def Chip.portField (c : Chip pt) (dst : Nat) : Nat := dst / 2 ^ c.portShift % 64

/-- The coordinate lies in the subtree of the part. -/
def Chip.below (c : Chip pt) (dst : Nat) : Bool :=
  c.isRoot || dst / 2 ^ (c.portShift + 6) == c.rd EZ.ROLE_PREFIX / 2 ^ (c.portShift + 6)

/-- R91: up until the Elzel of LEVEL, down by the port fields of DST. -/
def Chip.mgmtRoute (c : Chip pt) (h : Flit) : Route :=
  let m := mgmtOf h
  if m.up then (if m.level == c.level then .here else if c.isRoot then .nowhere else .to_ c.uplink)
  else if m.level == c.level && m.dst == c.rd EZ.ROLE_PREFIX then .here
  else if c.level ≤ m.level || !c.below m.dst then .nowhere
  else .to_ (c.portField m.dst)

/-! ### The pool (R351) -/

def Elzel.wrapOf (e : Elzel) (i : Nat) : Nat := (((e.mgr.wraps.find? (fun x => x.1 == i)).map (·.2)).getD 0 + e.mgr.wrapBase) % 16

/-- The lowest free entry. DEDUCED: the manual names no order. -/
def Elzel.freeEntry (e : Elzel) : Option Nat := (List.range 4096).find? (fun i => !e.mgr.pool.any (fun x => x.idx == i))

/-- The WRAP of an entry advanced, modulo 16. -/
def Elzel.bumpWrap (e : Elzel) (i : Nat) : Elzel :=
  let w := (e.wrapOf i + 17 - e.mgr.wrapBase % 16) % 16
  e.onMgr (fun m => { m with wraps := (i, w) :: m.wraps.filter (fun x => x.1 != i) })

/-- An entry of the pool freed: its WRAP advances at the next use. -/
def Elzel.freeTag (e : Elzel) (i : Nat) : Elzel :=
  (e.onMgr (fun m => { m with pool := m.pool.filter (fun x => x.idx != i) })).bumpWrap i

/-- A CMD packet for a destination. -/
def Chip.cmdPkt (c : Chip pt) (d : Dest) (w0 w1 : Word) (body : List Word) : Pkt :=
  let b := flitsOf (w0 :: w1 :: body)
  Mgmt.flit { len := b.length, cls := 4, routed := d.routed, up := decide (d.port ≥ 64), level := d.level, dst := d.dst,
              src := c.rd EZ.ROLE_PREFIX, tag := hdrTag w0, lvl := hdrLvl w0 } :: b

/-- The µs that a forwarding Elzel waits (R340, R351). -/
def Chip.tmoOf (c : Chip pt) (tmo : Nat) : Nat := if tmo = 0 then c.rd EZ.CMD_CTL_DEF_TMO else tmo

/-- A command sent with an entry of the pool, whose tag replaces that of the header; none while the pool is exhausted. A command
whose destination the Elzel cannot place takes an entry and is not sent: it ends in TIMEOUT (DEDUCED). -/
def Elzel.sendCmd (e : Elzel) (d : Option Dest) (w0 w1 : Word) (body : List Word) (tmo : Nat) (why : Purpose) : Option Elzel :=
  match e.freeEntry with
  | none => none
  | some i =>
    let wrap := e.wrapOf i
    let w0 := setBits w0 47 32 (wrap * 4096 + i)
    let e := e.onMgr (fun m => { m with pool := m.pool ++ [{ idx := i, wrap := wrap, op := hdrOp w0, lvl := hdrLvl w0, at_ := e.c.now, tmo := e.c.tmoOf tmo, why := why }] })
    match d with
    | none => some e
    | some d => some (e.onC (fun c => c.send d.port .mgmt (c.cmdPkt d w0 w1 body)))

/-- A command of the part's own to a destination at the level it speaks, if the pool has an entry. -/
def Elzel.ownCmd (e : Elzel) (d : Dest) (op : Nat) (body : List Word) (tmo : Nat) (why : Purpose) : Elzel :=
  let body := padEven body
  (e.sendCmd (some d) (cmdW0 op e.c.lvlMax 0 (body.length / 2)) 0 body tmo why).getD e

/-- The peer port on which a root reaches its sibling: PEER0, or PEER1 while PEER0 is not UP (R286). -/
def Chip.peerPort (c : Chip pt) : Nat := if c.up 66 then 66 else 67

/-- What a command header names: the part itself, or a destination with the header that is sent, or no place. -/
inductive Target where
  | self
  | dest (d : Dest) (w0 : Word)
  | unknown
deriving DecidableEq, Repr

/-- The destination that a header names (R345, R286). In another domain a root sends the command, header and all, to its sibling on a
peer port; in its own domain ROUTE, FENCE, LEVEL, DST, DOMAIN and BYCHIP are cleared. -/
def Elzel.targetOf (e : Elzel) (w0 : Word) : Target :=
  let c := e.c
  let plain := setBits w0 25 0 0
  if hdrDomain w0 != c.rd EZ.ROLE_DOMAIN then
    (if c.isRoot then .dest { port := c.peerPort } (setBits w0 24 24 0) else .unknown)
  else if hdrByChip w0 then
    match e.portToChip (hdrDst w0), e.coordOfChip (hdrDst w0) with
    | some p, some k => .dest { port := p, routed := true, level := 0, dst := k } plain
    | _, _ => .unknown
  else if hdrLevel w0 == c.level && hdrDst w0 == c.rd EZ.ROLE_PREFIX then .self
  else if c.level > hdrLevel w0 && c.below (hdrDst w0) then
    .dest { port := c.portField (hdrDst w0), routed := true, level := hdrLevel w0, dst := hdrDst w0 } plain
  else if c.isRoot then .unknown
  else .dest { port := c.uplink, routed := true, level := hdrLevel w0, dst := hdrDst w0 } plain

/-! ### Answers -/

/-- The entry that a tree tag names, if it is in use with that WRAP (R351). -/
def Elzel.poolFind (e : Elzel) (tag : Nat) : Option PoolEnt :=
  e.mgr.pool.find? (fun x => x.idx == tag % 4096 && x.wrap == tag / 4096)

/-- A reply that names no command under way. -/
def Elzel.lateReply (e : Elzel) : Elzel := e.onC (·.inc EZ.CMD_STATUS_LATE_REPLY)

end Sys2Proof.Machine
end

