-- ==== Sys2Proof/Machine/Health.lean ====
section
/-!
DEFINITION. Sys2Proof/Machine/Health.lean: tallies and attribution (R359, R362), scores and states (R363 to R365), owl pairs (R366,
R367), the limiter and expulsions (R368, R369), remaps (R370) and trials (R373).
-/
namespace Sys2Proof.Machine

variable {pt : Part}

/-! ### Changes of the root's own (R286) -/

/-- The header word of a block (R348): of a Garja by chip number, and of an Elzel by coordinate. -/
def gjHdr (domain chip n : Nat) : Word := w64 (put 62 62 domain + put 59 42 chip + put 15 0 n)
def ezHdr (domain level prefix_ n : Nat) : Word := w64 (2 ^ 63 + put 62 62 domain + put 61 60 level + put 59 42 prefix_ + put 15 0 n)

/-- Entries (R277): a WRITE, a context command and a START. -/
def stgWrite (off : Nat) (mask data : Word) : StgEntry := ⟨w64 (put 47 24 off), mask, data⟩
def stgCtxCmd (w : Word) : StgEntry := ⟨w64 (put 63 62 1 + put 55 48 1), 0, w⟩
def stgStart (ctx pc s1 : Nat) : StgEntry := ⟨w64 (put 63 62 1 + put 55 48 2), w64 (put 63 56 ctx + put 55 44 pc), w64 (put 47 0 s1)⟩

/-- T of a change that starts now (R286). DEDUCED: T is fixed when the round starts. -/
def Chip.newT (c : Chip pt) : Nat := (c.gtInt + c.rd EZ.STG_CFG_LEAD * 1000) % 2 ^ 64

/-- A change of the root's own (R137, R366, R367), with a CHANGE of its own choice. -/
def Elzel.ownChange (e : Elzel) (parts : List StagePart) (sEff : Nat) (fin : CoordEnd) : Elzel :=
  let n := 0xC0000000 + e.mgr.hlt.own % 2 ^ 30
  (e.onHlt (fun h => { h with own := h.own + 1 })).onMgr (fun m =>
    { m with coords := m.coords ++ [{ change := n, parts := parts, t := e.c.newT, sEff := sEff, fin := fin }] })

/-- The plan that the root holds for a job. -/
def Elzel.planOf (e : Elzel) (j : Nat) : Option Plan := e.mgr.plans.find? (fun p => p.job == j)
/-- Chip numbers of the Garja blocks of a plan. -/
def Plan.chips (p : Plan) : List Nat := (p.blocks.filter (fun b => !bit b.hdr 63)).map (fun b => bits b.hdr 59 42)

/-! ### Expulsions (R368, R369) -/

def Chip.spareFree (c : Chip pt) (k : Nat) : Bool :=
  c.flag EZ.HLT_SPARE_VALID k && !c.flag EZ.HLT_SPARE_TRIAL k && !c.flag EZ.HLT_SPARE_INUSE k && !c.flag EZ.HLT_SPARE_RESERVED k

/-- SPARES_FREE (R368). -/
def Chip.sparesFree (c : Chip pt) : Nat :=
  ((List.range 64).filter (fun k => c.flag EZ.HLT_SPARE_VALID k && !c.flag EZ.HLT_SPARE_TRIAL k && !c.flag EZ.HLT_SPARE_INUSE k)).length

/-- The trunk of a coordinate for the limiter: the whole tree in depth 1 and 2. -/
def Chip.trunkOf (c : Chip pt) (coord : Nat) : Nat := if c.rd EZ.ROLE_DEPTH == 3 then coord / 4096 else 0

/-- The limiter allows an expulsion (R368). -/
def Elzel.allowed (e : Elzel) (coord : Nat) (exempt : Bool) : Bool :=
  let win := e.c.rd EZ.HLT_LIM_EXP_WIN * 60000000000
  let recent := (e.mgr.hlt.expels.filter (fun x => x.1 == e.c.trunkOf coord && decide (e.c.gtInt < x.2 + win))).length
  (exempt || decide (recent < e.c.rd EZ.HLT_LIM_EXP_MAX))
    && decide (e.c.rd EZ.HLT_CNT_OPEN + 1 ≤ e.c.sparesFree + e.c.rd EZ.HLT_LIM_REPAIRING)

/-- An expulsion (R369): cause 1 SCORE, 2 CONFIRMED, 3 HELD. -/
def Elzel.expel (e : Elzel) (chip coord job cause : Nat) : Elzel :=
  let k := (List.range 64).find? e.c.spareFree
  let e := match k with
    | some k => e.onC (·.wr EZ.HLT_SPARE_RESERVED 1 k)
    | none => e
  let e := e.onC (fun c => (c.inc EZ.HLT_CNT_OPEN).inc EZ.HLT_CNT_EXPELLED)
  let e := e.onHlt (fun h => { h with expels := (e.c.trunkOf coord, e.c.gtInt) :: h.expels })
  e.onC (fun c => c.raise EV.EXPEL none none
    [i32 chip, i16 job, i8 cause, i32 ((k.map (fun i => c.rd EZ.HLT_SPARE_CHIP i)).getD 0), i8 (c.rd EZ.HLT_CNT_OPEN)])

/-! ### States (R365) -/

def Chip.dieState (c : Chip pt) (p : Nat) : Nat := c.rd EZ.HLT_DIE_W0_STATE p
def Chip.dieScore (c : Chip pt) (p : Nat) : Nat := c.rd EZ.HLT_DIE_W0_SCORE p

/-- A change of state: HLT_STATE and a health entry. -/
def Elzel.setDie (e : Elzel) (p job step new : Nat) (digest : Word) : Elzel :=
  let old := e.c.dieState p
  if old == new then e
  else
    let chip := e.c.rd EZ.HLT_DIE_W0_CHIP p
    let score := e.c.dieScore p
    e.onC (fun c => ((c.wr EZ.HLT_DIE_W0_STATE new p).ledgerHealth job chip new 0 score step digest).raise EV.HLT_STATE none (some step)
      [i32 chip, i8 old, i8 new, i16 score, i16 job])

/-- The state that a score alone gives. -/
def Chip.stateOfScore (c : Chip pt) (score : Nat) : Nat :=
  if score ≥ c.rd EZ.HLT_CFG_SUSPECT then 2 else if score ≥ c.rd EZ.HLT_CFG_WATCH then 1 else 0

/-- A subject asks for an owl, in descending score (R366), or withdraws. -/
def Elzel.want (e : Elzel) (chip port job score : Nat) : Elzel :=
  e.onHlt (fun h =>
    let rest := h.wanting.filter (fun x => x.1 != chip)
    { h with wanting := rest.filter (fun x => decide (x.2.2.2 ≥ score)) ++ (chip, port, job, score) :: rest.filter (fun x => decide (x.2.2.2 < score)) })
def Elzel.unwant (e : Elzel) (chip : Nat) : Elzel := e.onHlt (fun h => { h with wanting := h.wanting.filter (fun x => x.1 != chip) })

/-- A refused expulsion, counted in HELD. -/
def Elzel.refuseExpel (e : Elzel) : Elzel := e.onC (·.inc EZ.HLT_CNT_HELD)

/-- The state of the die on port p set from its score (R365). A leaf that is not the domain-A root cannot ask the limiter: its die
stays SUSPECT or PAIRED there. -/
def Elzel.restate (e : Elzel) (p job step : Nat) (digest : Word) : Elzel :=
  let st := e.c.dieState p
  let score := e.c.dieScore p
  let chip := e.c.rd EZ.HLT_DIE_W0_CHIP p
  let coord := e.c.childCoord p
  let high := decide (score ≥ e.c.rd EZ.HLT_CFG_EXPEL) && e.c.isRootA
  let limit := fun (e : Elzel) =>
    if e.allowed coord false then (e.setDie p job step 5 digest).unwant chip |>.expel chip coord job 1
    else (e.refuseExpel).setDie p job step 4 digest
  let ask := fun (e : Elzel) => if e.c.isRootA && e.c.flag EZ.HLT_LIM_AUTO_OWL then e.want chip p job score else e
  match st with
  | 0 | 1 =>
    let new := e.c.stateOfScore score
    let e := e.setDie p job step new digest
    if new == 2 then (let e := ask e; if high then limit e else e) else e
  | 2 =>
    if high then limit e
    else
      let new := e.c.stateOfScore score
      if new == 2 then ask e else (e.unwant chip).setDie p job step new digest
  | 3 => if high then limit e else e
  | _ => e

/-! ### Charges (R363) -/

/-- Kinds of charge and their weights: 1 DIG, 2 OWL, 3 REPLAY, 4 HARD, 5 CFX, 6 LINK. -/
def Chip.weight (c : Chip pt) (kind : Nat) : Nat :=
  match kind with
  | 1 => c.rd EZ.HLT_WGT_DIG
  | 2 => c.rd EZ.HLT_WGT_OWL
  | 3 => c.rd EZ.HLT_WGT_REPLAY
  | 4 => c.rd EZ.HLT_WGT_HARD * 256
  | 5 => c.rd EZ.HLT_WGT_CFX * 256
  | _ => c.rd EZ.HLT_WGT_LINK * 256

/-- The weight charged to the die of port p at its LAST_STEP. -/
def Elzel.lastWeight (e : Elzel) (p : Nat) : Option Nat := (e.mgr.hlt.weights.find? (fun x => x.1 == p)).map (·.2)

/-- A charge (R363): at most once per step, with the largest weight. A charge without a step counts by itself. A mismatch reads the
die's snapshot (R362). -/
def Elzel.charge (e : Elzel) (p kind job ctx : Nat) (step : Option Nat) (digest refDigest : Word) : Elzel :=
  if !e.c.flag EZ.HLT_DIE_W0_VALID p then e
  else
    let w := e.c.weight kind
    let prior := match step, e.lastWeight p with
      | some s, some v => if e.c.rd EZ.HLT_DIE_W1_LAST_STEP p == s then some v else none
      | _, _ => none
    if (match prior with | some v => decide (v ≥ w) | none => false) then e
    else
      let add := w - prior.getD 0
      let chip := e.c.rd EZ.HLT_DIE_W0_CHIP p
      let e := e.onC (fun c =>
        let c := c.wr EZ.HLT_DIE_W0_SCORE (satU 16 (c.dieScore p + add)) p
        let c := if kind ≤ 3 then c.inc EZ.HLT_DIE_W0_MISMATCHES p else c
        let c := match step with | some s => c.wr EZ.HLT_DIE_W1_LAST_STEP s p | none => c
        c.wr EZ.HLT_DIE_W2_LAST_HT c.gtInt p)
      let e := match step with
        | some _ => e.onHlt (fun h => { h with weights := (p, w) :: h.weights.filter (fun x => x.1 != p) })
        | none => e
      let s := step.getD (e.c.rd EZ.HLT_DIE_W1_LAST_STEP p)
      let e := e.onC (fun c => c.ledgerHealth job chip (c.dieState p) kind (c.dieScore p) s digest)
      let e := e.restate p job s digest
      if kind > 3 then e
      else
        let m : Mismatch := { port := p, chip := chip, ctx := ctx, job := job, step := s, kind := kind, state := e.c.dieState p,
                              score := e.c.dieScore p, digest := digest, refDigest := refDigest }
        e.ownCmd { port := p } CM.REG_READ [w64 (put 47 24 (GJ.HLT_SNAP_W0 + 0x20 * (s % 64)) + 2)] 0 (.snap m)

/-- HLT_MISMATCH once the snapshot has been read, or has not answered (R362), and a remap that it shows (R370). -/
def Elzel.snapRead (e : Elzel) (m : Mismatch) (ws : List Word) : Elzel :=
  let w0 := ws.getD 0 0
  let w1 := ws.getD 1 0
  let w2 := ws.getD 2 0
  let ok := bit w0 55 && bits w0 63 56 == m.ctx && bits w0 47 0 == m.step
  let g := fun (v : Nat) => if ok then v else 0
  let e := e.onC (fun c => c.raise EV.HLT_MISMATCH (some m.ctx) (some m.step)
    [i32 m.chip, i8 m.kind, i8 m.state, i16 m.score, i64 m.digest.toNat, i64 m.refDigest.toNat, i16 (g (bits w1 63 48)),
     i16 (g (bits w1 47 32)), i32 (g (bits w1 31 0)), i8 (b2n ok), i8 (g (bits w2 47 40)), i16 (g (bits w2 63 48)), i16 m.job])
  if !ok then e
  else
    let e := e.onC (fun c => (c.wr EZ.HLT_DIE_W3_TJ (bits w1 63 48) m.port).wr EZ.HLT_DIE_W3_VDD (bits w1 47 32) m.port)
    if bits w2 63 48 > e.c.rd EZ.HLT_DIE_W3_REMAPS m.port then
      let e := e.onC (fun c => (c.wr EZ.HLT_DIE_W0_SCORE (c.dieScore m.port / 2) m.port).wr EZ.HLT_DIE_W3_REMAPS (bits w2 63 48) m.port)
      (e.restate m.port m.job m.step m.digest).ownCmd { port := m.port } CM.REG_READ [w64 (put 47 24 GJ.HLT_STATUS)] 0 (.remap m.port)
    else e

/-- HLT_REMAP, with SPARES_USED of the die (R370). -/
def Elzel.remapRead (e : Elzel) (p : Nat) (ws : List Word) : Elzel :=
  e.onC (fun c => c.raise EV.HLT_REMAP none none
    [i32 (c.rd EZ.HLT_DIE_W0_CHIP p), i16 (c.rd EZ.HLT_DIE_W3_REMAPS p), i8 (bits (ws.getD 0 0) 47 40), i16 (c.dieScore p)])

/-- The score record of a die found on port p (R363): a chip number that was not there starts a record of its own. -/
def Chip.dieBound (c : Chip pt) (p chip : Nat) : Chip pt :=
  if c.flag EZ.HLT_DIE_W0_VALID p && c.rd EZ.HLT_DIE_W0_CHIP p == chip then c
  else
    ((((c.set (EZ.HLT_DIE_W0 + 0x20 * p) (w64 (2 ^ 60 + put 59 42 chip))).set (EZ.HLT_DIE_W1 + 0x20 * p) 0).set (EZ.HLT_DIE_W2 + 0x20 * p) 0)
      |>.set (EZ.HLT_DIE_W3 + 0x20 * p) 0)

/-- Every score decays (R364). -/
def Elzel.decay (e : Elzel) : Elzel :=
  (List.range 64).foldl (fun e p =>
    if e.c.flag EZ.HLT_DIE_W0_VALID p then
      let s := e.c.dieScore p
      (e.onC (·.wr EZ.HLT_DIE_W0_SCORE (s - s / 2 ^ (e.c.rd EZ.HLT_CFG_DECAY_SHIFT)) p)).restate p 0 (e.c.rd EZ.HLT_DIE_W1_LAST_STEP p) 0
    else e) e

/-! ### Tallies (R359, R360) -/

/-- A digest counted once more. -/
def countDigest (d : Word) (n : Nat) : List (Word × Nat) → List (Word × Nat)
  | [] => [(d, n)]
  | (x, k) :: l => if x == d then (x, k + n) :: l else (x, k) :: countDigest d n l

/-- The entry with the most members, the first of equals. -/
def topDigest (l : List (Word × Nat)) : Option (Word × Nat) :=
  l.foldl (fun best x => match best with
    | none => some x
    | some b => if x.2 > b.2 then some x else some b) none

/-- The majority write starts the charging (R359): every member whose digest differs, with kind DIG. -/
def Elzel.refWrite (e : Elzel) (job step : Nat) (digest : Word) : Elzel :=
  (e.c.members job step).foldl (fun e p =>
    match e.c.ledgerDigest job step (e.c.chipAt p) with
    | some d => if d == digest then e else e.charge p 1 job (e.c.rd EZ.CMB_JOB_W0_CTX job) (some step) d digest
    | none => e) e

/-- The majority digest written to EZ_HLT_REF of a leaf with REG_WRITE, or at once where the leaf is the root itself. -/
def Elzel.sendRef (e : Elzel) (leaf job step : Nat) (digest : Word) : Elzel :=
  if e.c.isLeaf && leaf == e.c.rd EZ.ROLE_PREFIX then e.refWrite job step digest
  else
    let d : Dest := { port := e.c.portField leaf, routed := true, level := 1, dst := leaf }
    let put_ := fun (e : Elzel) (off : Nat) (v : Word) =>
      e.ownCmd d CM.REG_WRITE [w64 (put 47 24 off), w64 (2 ^ 64 - 1), v] 0 .mute
    put_ (put_ e EZ.HLT_REF_W0 (w64 (put 63 52 job + put 47 0 step))) EZ.HLT_REF_W1 digest

/-- COUNT of the RELEASE of a step: from REPLAY, or else the members of the job's plan. -/
def Elzel.releaseCount (e : Elzel) (job step : Nat) : Nat :=
  match e.c.replayEntry job step with
  | some i => bits ((e.c.replayPkt i).headD 0) 29 11
  | none => ((e.planOf job).map (fun p => p.chips.length)).getD 0

/-- A leaf's tally summed at the root; with a majority the leaves are told. -/
def Elzel.addTally (e : Elzel) (leaf job step : Nat) (counts : List (Word × Nat)) : Elzel :=
  let old := (e.mgr.hlt.tallies.find? (fun t => t.job == job && t.step == step)).getD
    { job := job, step := step, count := e.releaseCount job step, at_ := e.c.now }
  if old.done || old.leaves.contains leaf then e
  else
    let cs := counts.foldl (fun l x => countDigest x.1 x.2 l) old.counts
    let t := { old with leaves := old.leaves ++ [leaf], counts := cs }
    let rest := e.mgr.hlt.tallies.filter (fun t => !(t.job == job && t.step == step))
    match topDigest cs with
    | some (d, n) =>
      if 2 * n > t.count then
        t.leaves.foldl (fun e l => e.sendRef l job step d) (e.onHlt (fun h => { h with tallies := { t with done := true } :: rest }))
      else e.onHlt (fun h => { h with tallies := t :: rest })
    | none => e.onHlt (fun h => { h with tallies := t :: rest })

/-- The tally of a leaf that passes down a RELEASE with MIS = 1 under EQUAL, sent upward whatever its route holds (R359). -/
def Elzel.tally (e : Elzel) (job step : Nat) : Elzel :=
  let cs := (e.c.members job step).foldl (fun l p =>
    match e.c.ledgerDigest job step (e.c.chipAt p) with
    | some d => countDigest d 1 l
    | none => l) []
  let a := (topDigest cs).getD (0, 0)
  let b := (topDigest (cs.filter (fun x => x.1 != a.1))).getD (0, 0)
  let other := (cs.map (·.2)).sum - a.2 - b.2
  let ws := e.c.record EV.HLT_TALLY none (some step) e.c.stamp [i64 a.1.toNat, i64 b.1.toNat, i32 a.2, i32 b.2, i32 other, i16 job]
  let e := e.onC (fun c =>
    let c := c.deliver ws none none
    if c.flag EZ.EVT_ROUTE_UP EV.HLT_TALLY || c.isRoot then c else c.sendUp c.uplink ws)
  if e.c.isRootA then e.addTally (e.c.rd EZ.ROLE_PREFIX) job step cs else e

/-- No majority: HLT_UNATTRIBUTED 10 ms after the RELEASE, or earlier when every tally is in (R359); at the domain-B root while its
peer ports are out of UP (R360). -/
def Elzel.unattributed (e : Elzel) (job step : Nat) : Elzel :=
  match e.mgr.hlt.tallies.find? (fun t => t.job == job && t.step == step) with
  | none => e
  | some t =>
    let all := decide ((t.counts.map (·.2)).sum ≥ t.count)
    if t.done || !(all || decide (e.c.now - t.at_ ≥ 10000000)) then e
    else
      let a := (topDigest t.counts).getD (0, 0)
      let b := (topDigest (t.counts.filter (fun x => x.1 != a.1))).getD (0, 0)
      (e.onHlt (fun h => { h with tallies := h.tallies.map (fun x => if x == t then { x with done := true } else x) })).onC (fun c =>
        c.raise EV.HLT_UNATTRIBUTED none (some step) [i16 job, i32 t.count, i32 a.2, i32 b.2])

/-! ### Owl pairs (R366, R367) -/

/-- The realignment PERIOD of a job's context in its plan image (R371). -/
def Plan.period (p : Plan) : Nat :=
  ((p.blocks.flatMap (·.entries)).find? (fun x => bits x.w0 63 62 == 0 && bits x.w0 47 24 == GJ.SO_RLN_CTX + 8 * p.ctx)).map
    (fun x => bits (x.w1 &&& x.w2) 63 48) |>.getD 0

/-- The lowest step of a job with G(s) ≥ t (R287); with PERIOD = 0 the lowest unreleased step (DEDUCED). -/
def Chip.stepAt (c : Chip pt) (j t : Nat) : Nat :=
  let per := c.rd EZ.LNC_JOB_W0_PERIOD j
  let anc := c.rd EZ.LNC_JOB_W1_ANCHOR j
  if per = 0 then c.relNext j else if t ≤ anc then 0 else (t - anc + per - 1) / per

/-- The first snapshot step of the job after t: DEDUCED, the first step from there that R371 lets be one. -/
def Elzel.snapStep (e : Elzel) (p : Plan) (t : Nat) : Nat :=
  let s := e.c.stepAt p.job (t + 1)
  let per := p.period
  if per = 0 then s else (s + per - 1) / per * per

/-- S1 of the START entries of a block set. -/
def withStart (s1 : Nat) (x : StgEntry) : StgEntry :=
  if bits x.w0 63 62 == 1 && bits x.w0 55 48 == 2 then { x with w2 := setBits x.w2 47 0 s1 } else x

def Elzel.onPair (e : Elzel) (k : Nat) (f : Pairing → Pairing) : Elzel :=
  e.onHlt (fun h => { h with pairs := h.pairs.map (fun p => if p.k == k then f p else p) })

/-- A pairing starts (R366): on the spare the subject's block, on the owl's leaf the owl entry. -/
def Elzel.startPair (e : Elzel) (k spare subj port job : Nat) (trial : Bool) : Elzel :=
  match e.planOf job with
  | none => e
  | some p =>
    let t := e.c.newT
    let so := e.snapStep p t
    let owl := e.c.rd EZ.HLT_SPARE_CHIP spare
    let mis := if e.c.rd EZ.HLT_OWL_W0_OUTCOME k == 5 && e.c.rd EZ.HLT_OWL_W0_SUBJ k == subj then e.c.rd EZ.HLT_OWL_W1_MIS k else 0
    let w0 := w64 (2 ^ 63 + put 59 59 (b2n trial) + put 58 47 job + put 36 19 subj + put 18 1 owl)
    let w1 := w64 (put 63 16 so + put 15 0 mis)
    let blk := (p.blocks.find? (fun b => !bit b.hdr 63 && bits b.hdr 59 42 == subj)).map (fun b => b.entries.map (withStart so)) |>.getD []
    let sp : StagePart := { hdr := gjHdr (e.c.rd EZ.ROLE_DOMAIN) owl blk.length, scopeKind := 1, scope := p.ctx, entries := blk }
    let ent := [stgWrite (EZ.HLT_OWL_W0 + 0x10 * k) (w64 (2 ^ 64 - 1)) w0, stgWrite (EZ.HLT_OWL_W1 + 0x10 * k) (w64 (2 ^ 64 - 1)) w1]
    let leaf := ((e.coordOfChip owl).getD 0) / 64 * 64
    let lp : List StagePart := if e.c.isLeaf then [] else
      [{ hdr := ezHdr (e.c.rd EZ.ROLE_DOMAIN) 1 leaf 2, scopeKind := 0, scope := 0, entries := ent }]
    let e := e.onC (fun c => ((c.set (EZ.HLT_OWL_W0 + 0x10 * k) w0).set (EZ.HLT_OWL_W1 + 0x10 * k) w1).wr EZ.HLT_SPARE_INUSE 1 spare)
    let e := e.onHlt (fun h => { h with pairs := h.pairs.filter (fun x => x.k != k) ++ [{ k := k, port := port, t := t, since := e.c.now }] })
    let e := (e.unwant subj).ownChange (sp :: lp) so (.owl k)
    if e.c.flag EZ.HLT_DIE_W0_VALID port && e.c.rd EZ.HLT_DIE_W0_CHIP port == subj && e.c.dieState port == 2 then e.setDie port job so 3 0 else e

/-- Subjects that wait are served while a spare and an entry are free (R366). -/
def Elzel.servePairs (e : Elzel) : Nat → Elzel
  | 0 => e
  | n + 1 =>
    let entry := (List.range 64).find? (fun k => !e.c.flag EZ.HLT_OWL_W0_VALID k)
    let spare := (List.range 64).find? (fun k => e.c.flag EZ.HLT_SPARE_VALID k && !e.c.flag EZ.HLT_SPARE_INUSE k && !e.c.flag EZ.HLT_SPARE_TRIAL k)
    match e.mgr.hlt.wanting, entry, spare with
    | (chip, port, job, _) :: rest, some k, some sp =>
      if (e.planOf job).isNone then (e.onHlt (fun h => { h with wanting := rest })).servePairs n
      else (e.startPair k sp chip port job false).servePairs n
    | _, _, _ => e

/-- OWL_START, raised once the change is committed (R366). -/
def Elzel.owlStarted (e : Elzel) (k : Nat) : Elzel :=
  let t := ((e.mgr.hlt.pairs.find? (fun p => p.k == k)).map (·.t)).getD 0
  e.onC (fun c => c.raise EV.OWL_START none none
    [i32 (c.rd EZ.HLT_OWL_W0_SUBJ k), i32 (c.rd EZ.HLT_OWL_W0_OWL k), i16 (c.rd EZ.HLT_OWL_W0_JOB k), i64 (c.rd EZ.HLT_OWL_W1_S_O k), i64 t])

/-- The port of the subject of pairing k, where it is bound to the root itself. -/
def Elzel.subjPort (e : Elzel) (k : Nat) : Option Nat :=
  (List.range 64).find? (fun p => e.c.flag EZ.HLT_DIE_W0_VALID p && e.c.rd EZ.HLT_DIE_W0_CHIP p == e.c.rd EZ.HLT_OWL_W0_SUBJ k)

/-- What becomes of the subject when its pairing ends (R365). -/
def Elzel.subjAfter (e : Elzel) (k outcome : Nat) : Elzel :=
  match e.subjPort k with
  | none => e
  | some p =>
    let job := e.c.rd EZ.HLT_OWL_W0_JOB k
    let step := e.c.rd EZ.HLT_DIE_W1_LAST_STEP p
    let chip := e.c.rd EZ.HLT_DIE_W0_CHIP p
    let st := e.c.dieState p
    if st != 3 && st != 4 then e
    else if outcome == 1 then
      (if e.allowed (e.c.childCoord p) true then (e.setDie p job step 5 0).expel chip (e.c.childCoord p) job 2
       else ((e.refuseExpel).setDie p job step 4 0).onC (fun c => c.raise EV.NO_SPARE none none
        [i32 chip, i16 job, i8 (c.rd EZ.HLT_CNT_OPEN), i8 c.sparesFree, i8 (c.rd EZ.HLT_LIM_REPAIRING)]))
    else if outcome == 2 then
      let e := e.onC (fun c => c.wr EZ.HLT_DIE_W0_SCORE (min (c.dieScore p / 2) (c.rd EZ.HLT_CFG_SUSPECT - 1)) p)
      e.setDie p job step (e.c.stateOfScore (e.c.dieScore p)) 0
    else if outcome == 5 then e.want chip p job (e.c.dieScore p)
    else if outcome == 6 || st == 4 then e
    else (e.setDie p job step (e.c.stateOfScore (e.c.dieScore p)) 0)

/-- A pairing ends (R367): 1 CONFIRMED, 2 CLEARED, 3 NOSTART, 4 LAG, 5 ROLLBACK, 6 MANUAL, 7 OWL_FAULT. -/
def Elzel.endPair (e : Elzel) (k outcome : Nat) : Elzel :=
  if !e.c.flag EZ.HLT_OWL_W0_VALID k then e
  else
    let job := e.c.rd EZ.HLT_OWL_W0_JOB k
    let owl := e.c.rd EZ.HLT_OWL_W0_OWL k
    let trial := e.c.flag EZ.HLT_OWL_W0_TRIAL k
    let ctx := ((e.planOf job).map (·.ctx)).getD 0
    let e := e.onC (fun c => c.raise EV.OWL_END none none
      [i32 (c.rd EZ.HLT_OWL_W0_SUBJ k), i32 owl, i16 job, i8 outcome, i16 (c.rd EZ.HLT_OWL_W1_MIS k)])
    let spare := (List.range 64).find? (fun i => e.c.flag EZ.HLT_SPARE_VALID i && e.c.rd EZ.HLT_SPARE_CHIP i == owl)
    let e := match spare with
      | none => e
      | some i =>
        let e := e.onC (·.wr EZ.HLT_SPARE_INUSE 0 i)
        if trial then (if outcome == 2 then e.onC (·.wr EZ.HLT_SPARE_TRIAL 0 i) else e.onC (·.wr EZ.HLT_SPARE_VALID 0 i))
        else if outcome == 7 then e.onC (·.wr EZ.HLT_SPARE_VALID 0 i) else e
    let e := if trial && outcome == 2 then
        (match (List.range 64).find? (fun p => e.c.flag EZ.HLT_DIE_W0_VALID p && e.c.rd EZ.HLT_DIE_W0_CHIP p == owl) with
        | some p => (e.onC (·.wr EZ.HLT_DIE_W0_SCORE 0 p)).setDie p job 0 0 0
        | none => e)
      else e
    let down : StagePart := { hdr := gjHdr (e.c.rd EZ.ROLE_DOMAIN) owl 1, scopeKind := 1, scope := ctx,
                              entries := [stgCtxCmd (w64 (put 63 60 4 + put 59 52 ctx))] }
    let leaf := ((e.coordOfChip owl).getD 0) / 64 * 64
    let lp : List StagePart := if e.c.isLeaf then [] else
      [{ hdr := ezHdr (e.c.rd EZ.ROLE_DOMAIN) 1 leaf 1, scopeKind := 0, scope := 0,
         entries := [stgWrite (EZ.HLT_OWL_W0 + 0x10 * k) (w64 (2 ^ 64 - 1)) 0] }]
    let e := if trial then e else e.subjAfter k outcome
    let e := e.onC (fun c => (c.wr EZ.HLT_OWL_W0_VALID 0 k).wr EZ.HLT_OWL_W0_OUTCOME outcome k)
    let e := e.onHlt (fun h => { h with pairs := h.pairs.filter (fun p => p.k != k), recs := h.recs.filter (fun r => r.k != k) })
    (e.ownChange (down :: lp) 0 (.own job)).servePairs 64

/-- The majority digest of a step, where the root has settled it. -/
def Elzel.majority (e : Elzel) (job step : Nat) : Option Word :=
  match e.mgr.hlt.tallies.find? (fun t => t.job == job && t.step == step && t.done) with
  | none => none
  | some t => match topDigest t.counts with
    | some (d, n) => if 2 * n > t.count then some d else none
    | none => none

/-- One step compared: the subject's digest against its owl's. -/
def Elzel.owlStep (e : Elzel) (k step : Nat) (subj owl : Word) : Elzel :=
  if subj == owl || !e.c.flag EZ.HLT_OWL_W0_VALID k then e
  else
    let job := e.c.rd EZ.HLT_OWL_W0_JOB k
    let e : Elzel := (e.onC (·.inc EZ.HLT_OWL_W1_MIS k)).onPair k (fun p => { p with since := e.c.now })
    let e : Elzel := match e.subjPort k with
      | some p => (e.onC (fun c => c.wr EZ.HLT_DIE_W1_OWL_MIS (c.rd EZ.HLT_OWL_W1_MIS k) p)).charge p 2 job
          (((e.planOf job).map (·.ctx)).getD 0) (some step) subj owl
      | none => e
    if e.c.rd EZ.HLT_OWL_W1_MIS k ≥ e.c.rd EZ.HLT_LIM_OWL_CONFIRM then e.endPair k 1
    else if e.majority job step == some subj then e.endPair k 7
    else e

/-- Digests of one side of a pairing at the root: steps that both sides have are compared. -/
def Elzel.owlDigests (e : Elzel) (k : Nat) (isOwl : Bool) (first : Nat) (ds : List Word) : Elzel :=
  match e.mgr.hlt.pairs.find? (fun p => p.k == k) with
  | none => e
  | some p =>
    let new := (List.range ds.length).map (fun i => (first + i, ds.getD i 0))
    let mine := (if isOwl then p.owl else p.subj) ++ new
    let theirs := if isOwl then p.subj else p.owl
    let both := mine.filterMap (fun x => (theirs.find? (fun y => y.1 == x.1)).map (fun y => (x.1, x.2, y.2)))
    let left := fun (l : List (Nat × Word)) => l.filter (fun x => !both.any (fun y => y.1 == x.1))
    let e := e.onPair k (fun p =>
      if isOwl then { p with begun := true, owl := left mine, subj := left theirs } else { p with subj := left mine, owl := left theirs })
    let e := both.foldl (fun e x => if isOwl then e.owlStep k x.1 x.2.2 x.2.1 else e.owlStep k x.1 x.2.1 x.2.2) e
    if isOwl && decide (e.c.relThru (e.c.rd EZ.HLT_OWL_W0_JOB k) > first + 1000000) then e.endPair k 4 else e

/-- A digest of a subject or an owl at its leaf: a record of 4 steps is sent when it is full (R366). -/
def Elzel.owlNote (e : Elzel) (k : Nat) (isOwl : Bool) (step : Nat) (d : Word) : Elzel :=
  let r := (e.mgr.hlt.recs.find? (fun r => r.k == k && r.isOwl == isOwl)).getD { k := k, isOwl := isOwl, first := step, digests := [] }
  let rest := e.mgr.hlt.recs.filter (fun r => !(r.k == k && r.isOwl == isOwl))
  let ds := r.digests ++ [d]
  let e := if isOwl then e.onPair k (fun p => { p with begun := true }) else e
  if ds.length < 4 then e.onHlt (fun h => { h with recs := rest ++ [{ r with digests := ds }] })
  else
    let e := e.onHlt (fun h => { h with recs := rest })
    let e := e.onC (fun c => c.raise EV.OWL_DIGESTS none (some r.first) (ds.map (fun d => i64 d.toNat) ++ [i8 k]))
    if e.c.isRootA then e.owlDigests k isOwl r.first ds else e

/-- The entry that pairs a chip as subject or as owl of a job. -/
def Elzel.owlEntry (e : Elzel) (isOwl : Bool) (chip : Nat) : Option Nat :=
  (List.range 64).find? (fun k => e.c.flag EZ.HLT_OWL_W0_VALID k
    && (if isOwl then e.c.rd EZ.HLT_OWL_W0_OWL k else e.c.rd EZ.HLT_OWL_W0_SUBJ k) == chip)

/-- OWL_NOSTART: no ARRIVE of S_o within 60 s of T (R367). -/
def Elzel.owlNostart (e : Elzel) (k : Nat) : Elzel :=
  match e.mgr.hlt.pairs.find? (fun p => p.k == k) with
  | none => e
  | some p => if !p.begun && decide (e.c.gtInt ≥ p.t + 60000000000) then e.endPair k 3 else e

/-- OWL_CLEARED: OWL_CLEAR seconds, or TRIAL seconds for a trial, with no mismatch (R367, R373). -/
def Elzel.owlCleared (e : Elzel) (k : Nat) : Elzel :=
  match e.mgr.hlt.pairs.find? (fun p => p.k == k) with
  | none => e
  | some p =>
    let lim := if e.c.flag EZ.HLT_OWL_W0_TRIAL k then e.c.rd EZ.HLT_LIM_TRIAL else e.c.rd EZ.HLT_LIM_OWL_CLEAR
    if decide (e.c.now - p.since ≥ lim * 1000000000) then e.endPair k 2 else e

/-! ### Trials (R373) -/

/-- The register that check n of a trial reads; check 0 is IDENTIFY. -/
def trialReg (n : Nat) : Nat :=
  match n with
  | 1 => GJ.SL_STATUS
  | 2 => GJ.SL_STATUS + 0x80
  | 3 => GJ.TB_STATUS
  | 4 => GJ.TDC_STATUS
  | 5 => GJ.TDC_STATUS + 0x40
  | 6 => GJ.TREE_A
  | _ => GJ.TREE_B

/-- A check passed, from the word read: a port UP with RANGE_VALID, the time base LOCKED, UNCAL = 0, a domain discovered and not held. -/
def trialOk (n : Nat) (w : Word) : Bool :=
  match n with
  | 1 | 2 => bits w 63 61 == 5 && bit w 60
  | 3 => bits w 63 62 == 2
  | 4 | 5 => !bit w 61
  | _ => bit w 63 && !bit w 60

/-- The destination of a chip in the subtree. -/
def Elzel.destOfChip (e : Elzel) (chip : Nat) : Option Dest :=
  match e.portToChip chip, e.coordOfChip chip with
  | some p, some k => some { port := p, routed := true, level := 0, dst := k }
  | _, _ => none

/-- A trial that fails clears VALID. -/
def Elzel.trialFail (e : Elzel) (k : Nat) : Elzel := e.onC (·.wr EZ.HLT_SPARE_VALID 0 k)

/-- The next check of a trial is sent. -/
def Elzel.trialNext (e : Elzel) (k n : Nat) (fp : Word) : Elzel :=
  match e.destOfChip (e.c.rd EZ.HLT_SPARE_CHIP k) with
  | none => e.trialFail k
  | some d =>
    if n = 0 then e.ownCmd d CM.IDENTIFY [] 0 (.trial k 0 fp)
    else e.ownCmd d CM.REG_READ [w64 (put 47 24 (trialReg n))] 0 (.trial k n fp)

/-- An expelled die whose chip is entered for a trial is in REPAIR (R365), where the root keeps its score. -/
def Elzel.toRepair (e : Elzel) (chip : Nat) : Elzel :=
  match (List.range 64).find? (fun p => e.c.flag EZ.HLT_DIE_W0_VALID p && e.c.rd EZ.HLT_DIE_W0_CHIP p == chip && e.c.dieState p == 5) with
  | some p => e.setDie p 0 (e.c.rd EZ.HLT_DIE_W1_LAST_STEP p) 6 0
  | none => e

/-- Entering a chip with TRIAL = 1 starts its trial. -/
def Elzel.trialStart (e : Elzel) (k : Nat) : Elzel :=
  let busy := e.mgr.pool.any (fun x => match x.why with | .trial i _ _ => i == k | _ => false)
  if e.c.isRootA && e.c.flag EZ.HLT_SPARE_VALID k && e.c.flag EZ.HLT_SPARE_TRIAL k && !e.c.flag EZ.HLT_SPARE_INUSE k && !busy then
    (e.toRepair (e.c.rd EZ.HLT_SPARE_CHIP k)).trialNext k 0 0
  else e

/-- The job whose fingerprint a die has, with a GOOD member of it on the root's own ports, or else the plan's first member. -/
def Elzel.trialSubject (e : Elzel) (fp : Word) : Option (Nat × Nat × Nat) :=
  match e.mgr.plans.find? (fun p => p.fp == fp) with
  | none => none
  | some p =>
    match (List.range 64).find? (fun q => e.c.flag EZ.HLT_DIE_W0_VALID q && e.c.dieState q == 0 && p.chips.contains (e.c.rd EZ.HLT_DIE_W0_CHIP q)) with
    | some q => some (p.job, e.c.rd EZ.HLT_DIE_W0_CHIP q, q)
    | none => if e.c.isLeaf then none else p.chips.head?.map (fun c => (p.job, c, 64))

/-- The answer to a check. -/
def Elzel.trialRead (e : Elzel) (k n : Nat) (fp : Word) (status : Nat) (ws : List Word) : Elzel :=
  if status != ST.OK then e.trialFail k
  else if n = 0 then
    (if (e.trialSubject (ws.getD 1 0)).isNone then e.trialFail k
     else e.trialNext k 1 (ws.getD 1 0))
  else if !trialOk n (ws.getD 0 0) then e.trialFail k
  else if n < 7 then e.trialNext k (n + 1) fp
  else
    match e.trialSubject fp, (List.range 64).find? (fun i => !e.c.flag EZ.HLT_OWL_W0_VALID i) with
    | some (job, chip, q), some i => e.startPair i k chip q job true
    | _, _ => e.trialFail k

/-! ### A die that leaves (R21) -/

/-- Both domains of a member are held: it is expelled with cause HELD, exempt from the limiter. -/
def Elzel.heldOut (e : Elzel) (p job : Nat) : Elzel :=
  if e.c.isRootA && e.c.flag EZ.HLT_DIE_W0_VALID p && e.c.dieState p != 5 && e.c.dieState p != 6 then
    (e.setDie p job (e.c.relNext job) 5 0).expel (e.c.rd EZ.HLT_DIE_W0_CHIP p) (e.c.childCoord p) job 3
  else e

end Sys2Proof.Machine
end

