-- ==== Sys2Proof/Machine/Setts.lean ====
section
/-!
DEFINITION. Sys2Proof/Machine/Setts.lean: the combining engine of Elzel (R209 to R229, R241 to R246): taking items, accounting them
in setts, bypassing and holding them, partials, the apex, and RELEASE.
-/
namespace Sys2Proof.Machine

variable {pt : Part}

/-! ### Counting and faults -/

/-- COMBINE_FAULT (R321): 1 FMT, 2 COUNT, 3 MIXED, 4 AHEAD, 5 DECODE. -/
def Elzel.cmbFault (e : Elzel) (f : Flit) (p reason : Nat) : Elzel :=
  e.onC (fun c => (c.inc EZ.CMB_CNT1_FAULT).raise EV.COMBINE_FAULT none (some (itemStep f)) [i16 (itJob f), i16 (itBar f), i8 p, i8 reason])

/-- A decode fault (R245). -/
def Elzel.decodeFault (e : Elzel) (f : Flit) (p : Nat) : Elzel := (e.onC (·.inc EZ.RED_CNT_DECODE)).cmbFault f p 5

/-- The combining engine accounts nothing: an apply or a reset of subsystem 11 is under way (R284, R376). -/
def Elzel.cmbStopped (e : Elzel) : Bool := e.c.applying || e.c.subHeld 11

/-- A set that holds the step of job j (R282). -/
def Chip.stepHeld (c : Chip pt) (j step : Nat) : Bool :=
  (List.range c.nSets).any (fun k => decide (c.setState k ≥ 2) && c.flag EZ.STG_S_W0_SCOPED k && c.rd EZ.STG_S_W0_SCOPE k == j
    && c.rd EZ.STG_S_W2_S_EFF k != 0 && decide (c.rd EZ.STG_S_W2_S_EFF k ≤ step))

/-- S_eff of a move of job j away from this domain (R139). -/
def Elzel.movedAt (e : Elzel) (j : Nat) : Option Nat := (e.cmb.moved.find? (fun x => x.1 == j)).map (·.2)
/-- A step of a job that has moved away from S_eff on. -/
def Elzel.gone (e : Elzel) (j step : Nat) : Bool := match e.movedAt j with | some s => decide (s ≤ step) | none => false

/-! ### Pools (R218, R219, R225) -/

def Elzel.inUse (e : Elzel) (j : Nat) : Nat := ((e.cmb.insts.filter (fun i => i.job == j)).map (·.setts)).sum
def Elzel.settsUsed (e : Elzel) : Nat := (e.cmb.insts.map (·.setts)).sum
def Elzel.mapsUsed (e : Elzel) : Nat := (e.cmb.insts.map (fun i => (i.ports.filter (·.byp)).length)).sum

/-- Setts that job j can take: its RESERVE first, then the shared pool (R218). -/
def Elzel.room (e : Elzel) (j : Nat) : Nat :=
  let res := fun k => e.c.rd EZ.CMB_JOB_W0_RESERVE k
  let jobs := e.c.jobs
  let excess := (jobs.map (fun k => e.inUse k - res k)).sum
  (res j - e.inUse j) + (16384 - (jobs.map res).sum - excess)

def Elzel.instOf (e : Elzel) (j step : Nat) : Option Inst := e.cmb.insts.find? (fun i => i.job == j && i.step == step)
def Elzel.setInst (e : Elzel) (i : Inst) : Elzel :=
  e.onCmb (fun m => { m with insts := m.insts.map (fun x => if x.job == i.job && x.step == i.step then i else x) })

/-! ### Partials (R218, R241 to R244) -/

/-- First flit of an ARRIVE_X (R211). -/
def arriveXHead (i : Inst) (len count : Nat) : Flit :=
  f128 (put 127 124 3 + put 123 118 len + put 117 106 i.job + put 105 98 i.ctx + put 97 88 i.bar + put 87 40 i.step + put 32 29 i.fmt + put 28 10 count)

/-- The packets of a partial. -/
def partialPkts (i : Inst) (op count : Nat) : List Pkt :=
  let d := f128 (i.digest * 2 ^ 64 + put 63 63 (b2n i.mis))
  let body := fun (b : List Flit) => arriveXHead i (1 + b.length) count :: d :: b
  match i.lanes with
  | none => [body []]
  | some l =>
    if op == RO.SUM then (segmentsOf (streamOf i.fmt l)).map (fun s => body (flitsOfBits s))
    else [body (flitsOfBytes 4 (payloadOf i.fmt op (l.finish i.fmt op)))]

/-- Packets sent up and kept until the RELEASE of their step (R136). -/
def Elzel.sendUpItems (e : Elzel) (job step : Nat) (pkts : List Pkt) : Elzel :=
  pkts.foldl (fun e k => (e.onCmb (fun m => { m with kept := m.kept ++ [{ job := job, step := step, pkt := k }] })).onC (·.send e.c.uplink .bar k)) e

/-- The kept packet of the lowest step, and the rest. -/
def insertKept (x : SentUp) : List SentUp → List SentUp
  | [] => [x]
  | a :: l => if x.step < a.step then x :: a :: l else a :: insertKept x l

/-- Everything kept resent in ascending step order on a return of the uplink to UP, or a discovery there (R136, R399). -/
def Elzel.resendKept (e : Elzel) : Elzel :=
  (e.cmb.kept.foldl (fun l x => insertKept x l) []).foldl (fun e x => e.onC (·.send e.c.uplink .bar x.pkt)) e

/-! ### What an item adds (R233, R238, R239, R241, R245) -/

/-- The contribution of an item: the outer none is a decode fault; the inner none is FMT NONE. -/
def itemLanes (op : Nat) (pkts : List Pkt) : Option (Option Lanes) :=
  let h := pkts.headD []
  let f := h.headD 0
  let fmt := itFmt f
  let bytes := bytesOfFlits ((h.drop 2).take 4)
  if fmt = 0 then (if pkts.length = 1 ∧ h.length = 2 then some none else none)
  else if flitType f == 2 || op != RO.SUM then
    (if pkts.length = 1 ∧ h.length = 6 then some (some (Lanes.ofPayload fmt op bytes)) else none)
  else
    let s := pkts.foldl (fun (s : BitStr) k =>
      let b := bitsOfFlits (k.drop 2)
      s.app ⟨b.v % 2 ^ (b.n - 8), b.n - 8⟩) ⟨0, 0⟩
    (decodeStream fmt s).map some

/-! ### Accounting (R219, R220) -/

def Inst.port (i : Inst) (p : Nat) : Option PortAcc := i.ports.find? (fun a => a.port == p)

/-- Port p of the instance is complete. -/
def Inst.portDone (i : Inst) (dies p : Nat) : Bool :=
  match i.port p with
  | some a => !a.byp || a.sum == dies
  | none => false

/-- What becomes of an item for its port. -/
inductive Verdict where
  | accept
  | repeat_
  | late
  | fault (reason : Nat)
  | hold
deriving DecidableEq, Repr

/-- R219 for an item on port p. A bypassed sum beyond DIES is a COUNT fault (DEDUCED). -/
def Elzel.verdict (e : Elzel) (i : Inst) (p dies : Nat) (f : Flit) : Verdict :=
  if i.st == .timedOut then .late
  else match i.port p, itByp f with
  | some a, true =>
    if !a.byp then .fault 3 else if a.map.testBit (itOrigin f) then .repeat_ else if a.sum + itCount f > dies then .fault 2 else .accept
  | none, true => if e.mapsUsed ≥ 4096 then .hold else if itCount f > dies then .fault 2 else .accept
  | some a, false => if a.byp then .fault 3 else .repeat_
  | none, false => if itCount f != dies then .fault 2 else .accept

/-- The item's port after it is accounted. -/
def Inst.withPort (i : Inst) (p : Nat) (f : Flit) : List PortAcc :=
  let a := (i.port p).getD { port := p, byp := itByp f }
  let a := { a with sum := a.sum + itCount f, map := if itByp f then a.map + 2 ^ itOrigin f else a.map }
  i.ports.filter (fun x => x.port != p) ++ [a]

/-- DIG of the descriptor: 1 FOLD, 2 EQUAL. -/
def Chip.digOf (c : Chip pt) (d : Nat) : Nat := c.rd EZ.CMB_BDESC_W0_DIG d

/-- DIGEST and MIS after an item (R220). DEDUCED: MIS carried by the first item sets MIS as well. -/
def Inst.withDigest (i : Inst) (dig : Nat) (pkt : Pkt) : Inst :=
  let d := (pktDigest pkt).toNat
  let mis := flitType (pkt.headD 0) == 3 && bit (pkt.getD 1 0) 63
  if dig == 1 then { i with digest := (i.digest + d) % 2 ^ 64 }
  else if dig == 2 then
    (if i.items = 0 then { i with digest := d, mis := mis } else { i with mis := i.mis || mis || d != i.digest })
  else i

/-- DIGEST_MISMATCH, once for the sett, at the item that sets MIS (R220). -/
def Elzel.mismatch (e : Elzel) (i : Inst) (p : Nat) : Elzel :=
  e.onC (fun c => (c.inc EZ.CMB_CNT1_DIG_MIS).raise EV.DIGEST_MISMATCH none (some i.step) [i16 i.job, i16 i.bar, i64 i.digest, i64 (2 ^ p)])

/-- A COMPLETE instance below the apex sends its partial (R218). -/
def Elzel.complete (e : Elzel) (i : Inst) (op : Nat) : Elzel :=
  let i := { i with st := .complete, done := e.c.gtInt }
  if e.c.isApex i.job then e.setInst i
  else
    let pkts := partialPkts i op (e.c.sumDies i.job i.step)
    (e.setInst { i with st := .sent }).sendUpItems i.job i.step pkts

/-- An item accounted in its sett. -/
def Elzel.account (e : Elzel) (i : Inst) (d p : Nat) (pkts : List Pkt) (ls : Option Lanes) : Elzel :=
  let pkt := pkts.headD []
  let f := pkt.headD 0
  let op := e.c.rd EZ.CMB_BDESC_W0_OP d
  let lanes := match i.lanes, ls with
    | some a, some b => some (a.merge i.fmt op b)
    | none, b => b
    | a, none => a
  let j := i.withDigest (e.c.digOf d) pkt
  let j := { j with lanes := lanes, ports := i.withPort p f, items := i.items + 1, count := i.count + itCount f }
  let e := if j.mis && !i.mis then e.mismatch j p else e
  if (e.c.members i.job i.step).all (fun q => j.portDone (e.c.dies i.job i.step q) q) then e.complete j op else e.setInst j

/-! ### One item (R210, R214, R218, R225, R226) -/

/-- The item's BAR buffer is freed. Segments of a chain were taken when they were staged. -/
def Elzel.freeItem (e : Elzel) (p : Nat) (h : HeldItem) : Elzel := if h.chain then e else e.onC (·.take p .bar h.raw)

/-- An item forwarded by a bypassing Elzel, with BYP and ORIGIN (R225). Kept for a resend like a partial (DEDUCED). -/
def Elzel.forwardItem (e : Elzel) (p : Nat) (h : HeldItem) : Elzel :=
  let f := (h.pkts.headD []).headD 0
  let pkts := h.pkts.map (fun k => setFlit (setFlit (k.headD 0) 39 39 1) 38 33 p :: k.tail)
  ((e.freeItem p h).onC (·.inc EZ.CMB_CNT0_BYPASS)).sendUpItems (itJob f) (itemStep f) pkts

/-- The item's fate in the instance it belongs to; none while it must wait. -/
def Elzel.inInst (e : Elzel) (i : Inst) (d p dies : Nat) (h : HeldItem) : Option Elzel :=
  let f := (h.pkts.headD []).headD 0
  match e.verdict i p dies f with
  | .hold => none
  | .repeat_ => some ((e.freeItem p h).onC (·.inc EZ.CMB_CNT0_DUP))
  | .late => some ((e.freeItem p h).onC (·.inc EZ.CMB_CNT0_LATE_ITEM))
  | .fault r => some ((e.freeItem p h).cmbFault f p r)
  | .accept =>
    match itemLanes (e.c.rd EZ.CMB_BDESC_W0_OP d) h.pkts with
    | none => some ((e.freeItem p h).decodeFault f p)
    | some ls => some ((e.freeItem p h).account i d p h.pkts ls)

/-- One item tried; none while it waits (R226). -/
def Elzel.tryItem (e : Elzel) (p : Nat) (h : HeldItem) : Option Elzel :=
  let f := (h.pkts.headD []).headD 0
  let j := itJob f
  let step := itemStep f
  let next := e.c.relNext j
  if e.cmbStopped then none
  else if !e.c.jobValid j then some ((e.freeItem p h).onC (·.countDir p))
  else if step < next || e.gone j step then some ((e.freeItem p h).onC (·.inc EZ.CMB_CNT0_LATE_ITEM))
  else if step ≥ next + 4 then some (((e.freeItem p h).onC (·.inc EZ.CMB_CNT0_AHEAD)).cmbFault f p 4)
  else if e.c.stepHeld j step then none
  else match e.c.desc j (itBar f) with
  | none => some ((e.freeItem p h).cmbFault f p 1)
  | some d =>
    if e.c.rd EZ.CMB_BDESC_W0_FMT d != itFmt f || !redSupported (itFmt f) (e.c.rd EZ.CMB_BDESC_W0_OP d) then some ((e.freeItem p h).cmbFault f p 1)
    else
      let dies := e.c.dies j step p
      if dies = 0 then some ((e.freeItem p h).onC (·.countDir p))
      else match e.instOf j step with
      | some i => e.inInst i d p dies h
      | none =>
        if e.cmb.recs.contains (j, step) then (if itByp f then none else some (e.forwardItem p h))
        else
          let n := settsOf (itFmt f)
          if e.room j ≥ n then
            let i : Inst := { job := j, step := step, bar := itBar f, ctx := itemCtx f, fmt := itFmt f, setts := n }
            (e.onCmb (fun m => { m with insts := m.insts ++ [i] })).inInst i d p dies h
          else if e.c.isApex j || itByp f || !e.c.flag EZ.CMB_CTL_BYP_EN || decide (e.cmb.recs.length ≥ 1024) then none
          else
            let e := e.onCmb (fun m => { m with recs := m.recs ++ [(j, step)] })
            some ((e.onC (fun c => c.raise EV.SETT_BYPASS none (some step) [i16 j, i16 (itBar f), i8 c.level])).forwardItem p h)

/-- The items that wait on port p, tried in order until one must wait; that one is counted in HELD once (R226). -/
def Elzel.runPort (e : Elzel) (p : Nat) : Nat → Elzel
  | 0 => e
  | n + 1 =>
    match (e.c.link p).barHeld with
    | [] => e
    | h :: rest =>
      match e.tryItem p h with
      | some e2 => (e2.onC (·.onLink p (fun l => { l with barHeld := l.barHeld.tail }))).runPort p n
      | none =>
        if h.counted || e.cmbStopped then e
        else (e.onC (·.inc EZ.CMB_CNT1_HELD)).onC (·.onLink p (fun l => { l with barHeld := { h with counted := true } :: rest }))

/-- Every item that waits tried again (R226). -/
def Elzel.runAll (e : Elzel) : Elzel :=
  (List.range 64).foldl (fun e p => e.runPort p (e.c.link p).barHeld.length) e

/-- An item enters the engine behind those that wait on its port. -/
def Elzel.pushItem (e : Elzel) (p : Nat) (h : HeldItem) : Elzel :=
  let e := e.onC (·.onLink p (fun l => { l with barHeld := l.barHeld ++ [h] }))
  e.runPort p (e.c.link p).barHeld.length

/-! ### Taking ARRIVE and ARRIVE_X (R214, R244, R245, R366) -/

/-- The item trace (R355). -/
def Elzel.traceItem (e : Elzel) (f : Flit) : Elzel :=
  if e.c.flag EZ.JRNL_CTL_TRACE_ITEMS then e.onC (·.jrnlAppend 3 (bytesBE 16 f.toNat)) else e

/-- A chain under way on a port is broken: a decode fault, unless the chain was dropped already (R245). -/
def Elzel.breakChain (e : Elzel) (p : Nat) : Elzel :=
  let l := e.c.link p
  match l.chain with
  | [] => e
  | k :: _ =>
    let e := e.onC (·.onLink p (fun l => { l with chain := [], chainDrop := false }))
    if l.chainDrop then e else e.decodeFault (k.headD 0) p

/-- The job of an ARRIVE from a Garja (R214). -/
def Elzel.entryJob (e : Elzel) (p ctx step : Nat) : Option Nat :=
  e.c.jobs.find? (fun j => e.c.rd EZ.CMB_JOB_W0_CTX j == ctx && e.c.dies j step p == 1)

/-- The job's RELEASE of a step sent to an owl from REPLAY, when it is there (R366). -/
def Elzel.owlRelease (e : Elzel) (p job step : Nat) : Elzel :=
  match e.c.replayEntry job step with
  | none => e.onCmb (fun m => { m with owlWait := m.owlWait ++ [(p, job, step)] })
  | some i =>
    let pkt := e.c.replayPkt i
    let tl := max (bits (pkt.getD 1 0) 127 64) ((e.c.gtInt + e.c.rd EZ.LNC_CTL_BCAST + e.c.rd EZ.LNC_CTL_MARGIN) % 2 ^ 64)
    e.onC (·.send p .rel (pkt.headD 0 :: setFlit (pkt.getD 1 0) 127 64 tl :: pkt.drop 2))

/-- Owls that wait for the RELEASE of a step that is in REPLAY now. -/
def Elzel.owlServe (e : Elzel) (job step : Nat) : Elzel :=
  let due := e.cmb.owlWait.filter (fun x => x.2.1 == job && x.2.2 == step)
  due.foldl (fun e x => e.owlRelease x.1 job step) (e.onCmb (fun m => { m with owlWait := m.owlWait.filter (fun x => !(x.2.1 == job && x.2.2 == step)) }))

/-- What the leaf notes of an ARRIVE it takes: the ledger, the digests of a pairing, and a replayed digest that differs (R214, R366,
R372). -/
def Elzel.noteArrive (e : Elzel) (p job : Nat) (pkt : Pkt) (owl : Bool) : Elzel :=
  let f := pkt.headD 0
  let step := itemStep f
  let chip := e.c.chipAt p
  let d := pktDigest pkt
  let orig := e.original job step
  let e := e.onC (·.ledgerArrival p job pkt owl orig.isSome)
  let e := match e.owlEntry owl chip with
    | some k => if e.c.rd EZ.HLT_OWL_W0_JOB k == job && decide (step ≥ e.c.rd EZ.HLT_OWL_W1_S_O k) then e.owlNote k owl step d else e
    | none => e
  match owl, orig with
  | false, some o =>
    match e.c.ledgerDigest job o chip with
    | some x => if x == d then e else e.charge p 3 job (itemCtx f) (some step) d x
    | none => e
  | _, _ => e

/-- An ARRIVE on port p. -/
def Elzel.arriveIn (e : Elzel) (p : Nat) (pkt : Pkt) : Elzel :=
  let f := pkt.headD 0
  if flitType f != 2 then e
  else if !e.c.typeAllowed p 2 then (e.onC (·.countDir p)).onC (·.take p .bar pkt)
  else
    let e := (e.traceItem f).breakChain p
    if e.c.farElzel p then e.pushItem p { pkts := [pkt], raw := pkt, chain := false }
    else match e.owlEntry true (e.c.chipAt p) with
    | some k =>
      let job := e.c.rd EZ.HLT_OWL_W0_JOB k
      if e.c.flag EZ.BIND_SEEN p && e.c.rd EZ.CMB_JOB_W0_CTX job == itemCtx f then
        ((e.onC (·.take p .bar pkt)).noteArrive p job pkt true).owlRelease p job (itemStep f)
      else (e.onC (·.countDir p)).onC (·.take p .bar pkt)
    | none =>
      match e.entryJob p (itemCtx f) (itemStep f) with
      | none => (e.onC (·.countDir p)).onC (·.take p .bar pkt)
      | some job =>
        let mine := setFlit f 117 106 job :: pkt.tail
        let fmtOk := match e.c.desc job (itBar f) with | some d => e.c.rd EZ.CMB_BDESC_W0_FMT d == itFmt f | none => false
        let taken := fmtOk && decide (itemStep f ≥ e.c.relNext job) && decide (itemStep f < e.c.relNext job + 4) && !e.gone job (itemStep f)
        let e := if taken then e.noteArrive p job mine false else e
        e.pushItem p { pkts := [mine], raw := pkt, chain := false }

/-- The checks of R210 and R214 on SEG 0: whether the chain is dropped. -/
def Elzel.checkSeg0 (e : Elzel) (p : Nat) (f : Flit) : Elzel × Bool :=
  let j := itJob f
  let step := itemStep f
  if !e.c.jobValid j then (e, false)
  else if step < e.c.relNext j || e.gone j step then (e.onC (·.inc EZ.CMB_CNT0_LATE_ITEM), true)
  else if step ≥ e.c.relNext j + 4 then ((e.onC (·.inc EZ.CMB_CNT0_AHEAD)).cmbFault f p 4, true)
  else match e.c.desc j (itBar f) with
  | some d => if e.c.rd EZ.CMB_BDESC_W0_FMT d == itFmt f then (e, false) else (e.cmbFault f p 1, true)
  | none => (e.cmbFault f p 1, true)

/-- Two segments belong to one chain: their first flits agree but for LEN, and their second flits agree (R244). -/
def sameChain (a b : Pkt) : Bool := setFlit (a.headD 0) 123 118 0 == setFlit (b.headD 0) 123 118 0 && a.getD 1 0 == b.getD 1 0

/-- One segment of a limb stream moved into the staging area. -/
def Elzel.segment (e : Elzel) (p : Nat) (pkt : Pkt) : Elzel :=
  let f := pkt.headD 0
  let e := e.onC (·.take p .bar pkt)
  if pkt.length < 3 then (e.breakChain p).decodeFault f p
  else
    let h := pkt.getD 2 0
    let last := bit h 127
    let seg := bits h 126 120
    let stage := fun (e : Elzel) =>
      let l := e.c.link p
      let all := l.chain
      if last then
        let e := e.onC (·.onLink p (fun l => { l with chain := [], chainDrop := false }))
        if l.chainDrop then e else e.pushItem p { pkts := all, raw := pkt, chain := true }
      else if flitLen f != 63 || decide (all.length ≥ 3) then e.breakChain p
      else e
    if seg = 0 then
      let (e, drop) := (e.breakChain p).checkSeg0 p f
      stage (e.onC (·.onLink p (fun l => { l with chain := [pkt], chainDrop := drop })))
    else
      let l := e.c.link p
      match l.chain with
      | [] => e.decodeFault f p
      | a :: _ =>
        if seg != l.chain.length || !sameChain a pkt then e.breakChain p
        else stage (e.onC (·.onLink p (fun l => { l with chain := l.chain ++ [pkt] })))

/-- An ARRIVE_X on port p. -/
def Elzel.arriveXIn (e : Elzel) (p : Nat) (pkt : Pkt) : Elzel :=
  let f := pkt.headD 0
  if flitType f != 3 then e
  else if !e.c.typeAllowed p 3 then (e.onC (·.countDir p)).onC (·.take p .bar pkt)
  else
    let e := e.traceItem f
    let stream := itFmt f != 0 && (match e.c.desc (itJob f) (itBar f) with | some d => e.c.rd EZ.CMB_BDESC_W0_OP d == RO.SUM | none => false)
    if stream then e.segment p pkt
    else (e.breakChain p).pushItem p { pkts := [pkt], raw := pkt, chain := false }

/-- A packet sent on a downstream port, which drops it while it is held (R20). -/
def Chip.sendTree (c : Chip pt) (p : Nat) (k : Cls) (pkt : Pkt) : Chip pt := if c.portHeld p then c.countDir p else c.send p k pkt

/-! ### RELEASE (R210, R215, R216, R218, R235 to R238, R256, R372) -/

/-- A RELEASE packet. -/
def releasePkt (job ctx bar fmt step status : Nat) (p mis : Bool) (count tl digest : Nat) (vals : List (BitVec 8)) : Pkt :=
  f128 (put 127 124 4 + put 123 118 (if fmt = 0 then 1 else 5) + put 117 106 job + put 105 98 ctx + put 97 88 bar + put 87 40 step
    + put 39 32 status + put 31 31 (b2n p) + put 30 30 (b2n mis) + put 29 11 count)
    :: f128 (tl % 2 ^ 64 * 2 ^ 64 + digest % 2 ^ 64) :: (if fmt = 0 then [] else flitsOfBytes 4 vals)

/-- Setts, bypass records and kept packets of a job up to a step freed. -/
def Elzel.freeStep (e : Elzel) (job step : Nat) : Elzel :=
  e.onCmb (fun m =>
    { m with insts := m.insts.filter (fun i => !(i.job == job && decide (i.step ≤ step))),
             recs := m.recs.filter (fun r => !(r.1 == job && decide (r.2 ≤ step))),
             kept := m.kept.filter (fun k => !(k.job == job && decide (k.step ≤ step))),
             tls := m.tls.filter (fun t => !(t.1 == job && decide (t.2.1 ≤ step))) })

/-- A RELEASE sent on every member port of the step's bank: REL_THRU raised, setts freed, journalled, tallied, and the items that wait
tried again. -/
def Elzel.passDown (e : Elzel) (job step done : Nat) (pkt : Pkt) : Elzel :=
  let f := pkt.headD 0
  let e := (e.c.members job step).foldl (fun e p => e.onC (·.sendTree p .rel pkt)) e
  let e := (e.journalRelease job step done pkt).freeStep job step
  let equal := match e.c.desc job (itBar f) with | some d => e.c.digOf d == 2 | none => false
  let e := if bit f 30 && equal && e.c.isLeaf then e.tally job step else e
  let e := e.onC (fun c => if step ≥ c.relNext job then { c.wr EZ.CMB_JOB_W2_REL_THRU step job with fresh := c.fresh.filter (· != job) } else c)
  (e.owlServe job step).runAll

/-- The RELEASE of an instance with a status that carries no values. -/
def emptyRelease (i : Inst) (status : Nat) : Pkt :=
  releasePkt i.job i.ctx i.bar i.fmt i.step status false false i.count 0 0 []

/-- Where a replayed RELEASE differs from the original one: 1 P, 2 COUNT, 3 values, 4 DIGEST. -/
def replayDiff (dig : Nat) (old new : Pkt) : Option Nat :=
  let a := old.headD 0
  let b := new.headD 0
  if bit a 31 != bit b 31 then some 1
  else if bits a 29 11 != bits b 29 11 then some 2
  else if old.drop 2 != new.drop 2 then some 3
  else if dig != 0 && bits (old.getD 1 0) 63 0 != bits (new.getD 1 0) 63 0 then some 4
  else none

/-- The RELEASE of a COMPLETE instance at the apex: the rounding with its counters, the predicate, the status and T_L. -/
def Elzel.apexResult (e : Elzel) (i : Inst) (d : Nat) : Elzel × Pkt :=
  let op := e.c.rd EZ.CMB_BDESC_W0_OP d
  let dig := e.c.digOf d
  let l := i.lanes.getD ⟨[], []⟩
  let res := l.finish i.fmt op
  let clamps := l.clamped i.fmt op
  let e := e.onC (fun c => ((c.inc EZ.RED_CNT_FP_OVF 0 (l.overflows i.fmt op)).inc EZ.RED_CNT_NAN_OUT 0 (l.nans i.fmt op)).inc EZ.RED_CNT_INT_SAT 0 clamps.length)
  let e := if clamps.isEmpty then e
    else e.onC (fun c => c.raise EV.RED_SAT none (some i.step) [i16 i.job, i16 i.bar, i64 ((clamps.map (fun k => 2 ^ k)).sum)])
  let p := predicate i.fmt op (e.c.flag EZ.CMB_BDESC_W0_FIN d) (e.c.rd EZ.CMB_BDESC_W0_CMP d) (e.c.rd EZ.CMB_BDESC_W0_LANE d)
    (e.c.rd EZ.CMB_BDESC_W1_CONST d) res
  let mis := dig == 2 && i.mis
  let ok := !mis && (p || e.c.flag EZ.CMB_BDESC_W0_ACT d)
  let digest := if dig == 0 then 0 else i.digest
  let tl := max ((i.done + e.c.rd EZ.LNC_CTL_BCAST + e.c.rd EZ.LNC_CTL_MARGIN) % 2 ^ 64) (e.c.gOf i.job (i.step + 1))
  let mk := fun (st tl : Nat) => releasePkt i.job i.ctx i.bar i.fmt i.step st p mis i.count tl digest (payloadOf i.fmt op res)
  let plain := if ok then mk ST.OK tl else mk ST.DENIED 0
  match e.original i.job i.step with
  | none => (e, plain)
  | some o =>
    match e.c.replayEntry i.job o with
    | none => (e, plain)
    | some k =>
      match replayDiff dig (e.c.replayPkt k) plain with
      | none => (e, plain)
      | some fld =>
        let e := e.onC (fun c => c.raise EV.REPLAY_DIVERGE (some i.ctx) (some i.step) [i16 i.job, i64 o, i8 fld])
        (e.onCmb (fun m => { m with replays := m.replays.map (fun r => if r.job == i.job then { r with ended := true } else r) }), mk ST.DENIED 0)

/-- REPLAY_DONE at the RELEASE of original step S_req − 1 (R372). -/
def Elzel.replayDone (e : Elzel) (job step : Nat) : Elzel :=
  match e.cmb.replays.find? (fun r => r.job == job && !r.ended) with
  | some r =>
    match r.n with
    | some n =>
      if step ≥ n ∧ r.sk + (step - n) + 1 = r.sReq then
        (e.onC (fun c => c.raise EV.REPLAY_DONE none none [i16 job, i64 n, i64 r.sReq])).onCmb
          (fun m => { m with replays := m.replays.filter (fun x => x.job != job) })
      else e
    | none => e
  | none => e

/-- The apex releases step REL_THRU + 1 of a job, when its instance is COMPLETE or timed out and no set holds it (R210, R218, R282). -/
def Elzel.apexRelease (e : Elzel) (job : Nat) : Elzel :=
  let step := e.c.relNext job
  if !e.c.jobValid job || !e.c.isApex job || e.cmbStopped || e.c.stepHeld job step then e
  else match e.instOf job step with
  | none => e
  | some i =>
    match i.st, e.c.desc job i.bar with
    | .timedOut, _ => e.passDown job step e.c.gtInt (emptyRelease i ST.TIMEOUT)
    | .complete, some d =>
      let (e, pkt) := e.apexResult i d
      let f := pkt.headD 0
      let e := e.passDown job step i.done pkt
      let e := if bits f 39 32 == ST.OK then e.onCmb (fun m => { m with tls := (job, step + 1, bits (pkt.getD 1 0) 127 64) :: m.tls }) else e
      e.replayDone job step
    | _, _ => e

/-- T_L of a step, as the apex chose it, or G(s) (R227). -/
def Elzel.launchOf (e : Elzel) (job step : Nat) : Nat :=
  match e.cmb.tls.find? (fun t => t.1 == job && t.2.1 == step) with
  | some t => t.2.2
  | none => e.c.gOf job step

/-- The deadline of the lowest OPEN instance of a job at the apex (R227). -/
def Elzel.barDeadline (e : Elzel) (job : Nat) : Elzel :=
  if !e.c.jobValid job || !e.c.isApex job || e.cmbStopped then e
  else
    let due := e.cmb.insts.filter (fun i => i.job == job && i.st == .open_ &&
      (match e.c.desc job i.bar with
        | some d => decide (e.c.gtInt ≥ e.launchOf job i.step + e.c.rd EZ.CMB_BDESC_W0_DEADLINE d)
        | none => false))
    match minOf (due.map (·.step)) with
    | none => e
    | some step =>
      match e.instOf job step with
      | none => e
      | some i =>
        let left := (e.c.members job step).filter (fun q => !i.portDone (e.c.dies job step q) q)
        let e := e.onC (fun c => (c.inc EZ.CMB_CNT1_DEADLINE).raise EV.BAR_DEADLINE none (some step)
          [i16 job, i32 i.items, i64 ((left.map (fun q => 2 ^ q)).sum), i64 c.gtInt])
        let e := e.setInst { i with st := .timedOut }
        if step == e.c.relNext job then e.apexRelease job else e

/-- A RELEASE that comes from above (R218): with or without a sett here it goes to every member port of the step's bank. -/
def Elzel.releaseDown (e : Elzel) (p : Nat) (pkt : Pkt) : Elzel :=
  let f := pkt.headD 0
  if flitType f != 4 then e
  else if !e.c.typeAllowed p 4 then (e.onC (·.countDir p)).onC (·.take p .rel pkt)
  else if e.cmbStopped then e
  else
    let e := (e.traceItem f).onC (·.take p .rel pkt)
    if e.c.jobValid (itJob f) then e.passDown (itJob f) (itemStep f) e.c.gtInt pkt else e

/-! ### Removal, moves and reset (R139, R216, R229, R372) -/

/-- The instances of a job in ascending step order. -/
def insertInst (x : Inst) : List Inst → List Inst
  | [] => [x]
  | a :: l => if x.step < a.step then x :: a :: l else a :: insertInst x l
def Elzel.instsOf (e : Elzel) (job : Nat) : List Inst :=
  (e.cmb.insts.filter (fun i => i.job == job)).foldl (fun l i => insertInst i l) []

/-- Every open instance of a job at its apex is released with ABANDONED, in ascending step order (R216); below the apex its setts are
freed. -/
def Elzel.abandonJob (e : Elzel) (job : Nat) : Elzel :=
  let e := if e.c.isApex job then
      (e.instsOf job).foldl (fun e i => e.passDown job i.step e.c.gtInt (emptyRelease i ST.ABANDONED)) e
    else e
  e.onCmb (fun m => { m with insts := m.insts.filter (fun i => i.job != job), recs := m.recs.filter (fun r => r.1 != job) })

/-- The job record is removed (R216): what is kept for it goes too. -/
def Elzel.removeJob (e : Elzel) (job : Nat) : Elzel :=
  (e.abandonJob job).onCmb (fun m =>
    { m with kept := m.kept.filter (fun k => k.job != job), tls := m.tls.filter (fun t => t.1 != job), moved := m.moved.filter (fun x => x.1 != job),
             owlWait := m.owlWait.filter (fun x => x.2.1 != job), changes := m.changes.filter (fun x => x.1 != job) })

/-- A barrier move away from this domain (R139): setts, records and kept packets for S_eff and later are released. -/
def Elzel.moveAway (e : Elzel) (job sEff : Nat) : Elzel :=
  (e.onCmb (fun m =>
    { m with insts := m.insts.filter (fun i => !(i.job == job && decide (sEff ≤ i.step))),
             recs := m.recs.filter (fun r => !(r.1 == job && decide (sEff ≤ r.2))),
             kept := m.kept.filter (fun k => !(k.job == job && decide (sEff ≤ k.step))),
             moved := (job, sEff) :: m.moved.filter (fun x => x.1 != job) })).runAll

/-- The apex releases S_eff of a rollback with ABANDONED (R372). -/
def Elzel.abandonStep (e : Elzel) (job step : Nat) : Elzel :=
  if !e.c.jobValid job || !e.c.isApex job then e
  else
    let i := (e.instOf job step).getD { job := job, step := step, bar := 0, ctx := e.c.rd EZ.CMB_JOB_W0_CTX job, fmt := 0, setts := 0 }
    e.passDown job step e.c.gtInt (emptyRelease i ST.ABANDONED)

/-- ENGINE reset of subsystem 11 (R229, R248): BAR receive buffers emptied with their credits, staging discarded, every sett, record and
map freed, open instances at the apex released with ABANDONED. -/
def Elzel.cmbEngineReset (e : Elzel) : Elzel :=
  let e := (List.range 64).foldl (fun e p => e.onC (fun c =>
    let n := (((c.link p).rx.bar).map (·.length)).sum
    (c.freeCredit p .bar n).onLink p (fun l => { l with rx := l.rx.mod .bar (fun _ => []), barHeld := [], chain := [], chainDrop := false }))) e
  let e := e.c.jobs.foldl (fun e j => e.abandonJob j) e
  e.onCmb (fun m => { m with insts := [], recs := [] })

/-! ### SIG (R80) -/

/-- The job of a SIG from a Garja: one of which the die is a member, with ADDR.CTX (R80). -/
def Elzel.sigJob (e : Elzel) (p ctx : Nat) : Option Nat :=
  e.c.jobs.find? (fun j => e.c.rd EZ.CMB_JOB_W0_CTX j == ctx && e.c.dies j (e.c.relNext j) p != 0)

/-- A SIG delivered at its leaf, or sent on its way. -/
def Elzel.sigOn (e : Elzel) (p : Nat) (f : Flit) : Elzel :=
  let job := bits f 109 98
  let drop := e.onC (·.countDir p)
  match e.portToChip (bits f 42 25) with
  | some q =>
    if e.c.isLeaf && e.c.dies job (e.c.relNext job) q == 0 then drop
    else if e.c.isLeaf && !e.c.jobValid job then drop
    else e.onC (·.sendTree q .sig [f])
  | none => if e.c.isRoot || p == e.c.uplink then drop else e.onC (·.send e.c.uplink .sig [f])

/-- A SIG received on port p. -/
def Elzel.sigIn (e : Elzel) (p : Nat) (f : Flit) : Elzel :=
  if flitType f != 5 then e
  else
    let e := e.onC (·.take p .sig [f])
    if !e.c.typeAllowed p 5 then e.onC (·.countDir p)
    else if p < 64 && !e.c.farElzel p then
      match e.sigJob p (bits f 24 17) with
      | some j => e.sigOn p (setFlit f 109 98 j)
      | none => e.onC (·.countDir p)
    else e.sigOn p f

/-! ### The registers that mirror the engine (R218, R219, R225, R226) -/

/-- EZ_CMB_STATUS as it reads. -/
def Elzel.cmbStatus (e : Elzel) : Word :=
  w64 (put 63 49 (16384 - e.settsUsed) + put 48 38 (1024 - e.cmb.recs.length) + put 37 25 (4096 - e.mapsUsed)
    + put 24 18 (((List.range 64).filter (fun p => !(e.c.link p).barHeld.isEmpty)).length) + put 15 0 (e.c.rd EZ.CMB_STATUS_WR_IGN))

end Sys2Proof.Machine
end

