-- ==== Sys2Proof/Machine/Boot.lean ====
section
/-!
DEFINITION. Sys2Proof/Machine/Boot.lean: how the parts start (R389 orders 5 to 7, R452 to R458), the exit from DEN_ONLY (R316), and
firmware operations (R461 to R464).
-/
namespace Sys2Proof.Machine

variable {pt : Part}

/-! ### Garja (R389, R391) -/

/-- Orders 5 to 7 of R389: the GPLL locks on GJ_REFCLK, the port channels are enabled with their RX_LAT (R96) and calibrate, and the
ports train. -/
def Garja.startup (g : Garja) : Garja :=
  g.onC (fun c =>
    let c := c.wr GJ.CLK_STATUS_GPLL_LOCK 1
    let c := [0, 1].foldl (fun c p => (c.wr GJ.TDC_CTL_DELAY (c.rd GJ.SL_LAT_RX_LAT p) p).tdcEnable p) c
    [0, 1].foldl (fun c p => if c.flag GJ.SL_CTL_EN p then c.enter p 1 else c) c)

/-- GJ_PORST_N (R389, R391, R416): the Den is cleared as well, no capsule is taken, and orders 5 to 10 run. -/
def execGjPorstN (s : State) : Out := .next { s with gj := (Garja.init s.gj.c.prm).startup }

/-! ### What a check finds (R454, R455) -/

def imageOk (i : FwImage) : Bool := i.digestOk && i.sigOk

/-- An entry of a configuration block passes: a WRITE of which FORMAT and RANGE hold against the registers so far. -/
def Chip.cfgEntryOk (c : Chip pt) (e : StgEntry) : Bool :=
  stgKind e == 0 && formatOk pt (stgOff e) e.w1 && rangeOk pt (stgOff e) e.w1 (mergeBits (c.get (stgOff e)) e.w2 e.w1)

/-- The entries checked and stored in list order; none at the first that fails. -/
def Chip.cfgApply (c : Chip pt) : List StgEntry → Option (Chip pt)
  | [] => some c
  | e :: l => if c.cfgEntryOk e then (c.storeRw (stgOff e) e.w1 e.w2).cfgApply l else none

/-- The part with the block applied, if its signature, its SEQ, its count and every entry pass (R455). -/
def Chip.cfgBlock (c : Chip pt) (seqMax : BitVec 32) (b : FwConfig) : Option (Chip pt) :=
  if b.sigOk && decide (b.seq.toNat ≥ seqMax.toNat) && decide (1 ≤ b.entries.length) && decide (b.entries.length ≤ 2048)
  then c.cfgApply b.entries else none

/-! ### Boot of Elzel (R452, R456 to R458) -/

/-- The boot ROM monitor with its REASON (R458): FREERUN, no port enabled. -/
def Elzel.monitor (e : Elzel) (reason : Nat) : Elzel :=
  e.onC (fun c => ((c.wr EZ.BOOT_STATUS_STAGE 5).wr EZ.BOOT_STATUS_REASON reason).wr EZ.TS_STATUS_STATE 0)

/-- The ports that EZ_ROLE uses and their channels, and those of the reference and the loopbacks, start (R456). DELAY of a port's channel
is its RX_LAT (R96). -/
def Chip.ezStart (c : Chip pt) : Chip pt :=
  let c := (List.range 68).foldl (fun c p => c.wr EZ.TDC_CTL_DELAY (c.rd EZ.SL_LAT_RX_LAT p) p) c
  let c := (List.range 68).foldl (fun c p =>
    if c.portUsed p && c.flag EZ.SL_CTL_EN p then (c.tdcEnable p).enter p 1 else c) c
  let c := (List.range 8).foldl (fun c n => c.tdcEnable (68 + n)) c
  (List.range 64).foldl (fun c r => if c.ringOn r then c.onRing r (fun s => { s with markFirst := true }) else c) c

/-- The stages of R456 with the straps sampled: `ms` is BOOT_MS of this boot. The whole boot is one step (log entry 61). -/
def Elzel.boot (e : Elzel) (straps : Nat) (uartBreak hbmOk : Bool) (ms : Nat) : Elzel :=
  let e := e.onC (fun c => c.set EZ.BOOT_STATUS (w64 (put 55 48 straps)))
  if straps % 4 == 1 || straps % 4 == 2 then e.monitor 1
  else if uartBreak then e.monitor 2
  else if !e.flash.headerOk then e.monitor 3
  else match e.flash.image with
    | none => e.monitor 4
    | some img =>
      if !imageOk img then e.monitor 4
      else match e.flash.config with
        | none => e.monitor 6
        | some blk =>
          match e.c.cfgBlock e.flash.seqMax blk with
          | none => e.monitor 6
          | some c =>
            let e : Elzel := { e with c := c, flash := { e.flash with seqMax := blk.seq } }
            if !hbmOk then e.monitor 8
            else e.onC (fun c =>
              let c := (c.wr EZ.CMD_CAP_LVL_MIN img.lvlMin.toNat).wr EZ.CMD_CAP_LVL_MAX img.lvlMax.toNat
              let c := (c.wr EZ.BOOT_STATUS_STAGE 4).wr EZ.BOOT_STATUS_FW_LEVEL img.level.toNat
              (c.wr EZ.BOOT_STATUS_BOOT_MS ms).ezStart)

/-- The straps of the last boot. A boot that the Den starts itself samples the same straps (DEDUCED, log entry 61). -/
def Elzel.straps (e : Elzel) : Nat := e.c.rd EZ.BOOT_STATUS_STRAPS

/-- EZ_PORST_N (R456): everything is cleared, the Den too, and the boot runs. -/
def execEzPorstN (straps : BitVec 8) (uartBreak hbmOk : Bool) (s : State) : Out :=
  .next { s with ez := (Elzel.init s.ez.c.prm s.ez.flash).boot straps.toNat uartBreak hbmOk 231 }

/-! ### Exit from DEN_ONLY (R316, R452) -/

/-- Registers that the Den or HBM4 keeps while the main domain is off (R316, R317, R375, R379, R469): the clean-up loop's and the
servo's state, the journal and health registers, the power-state registers, the interrupt registers and the Den's, and those of the
firmware. What the cycle of the main rails (R438) does to the others is DEDUCED (log entry 62). -/
def denKeeps (off : Nat) : Bool :=
  (decide (0x40000 ≤ off) && decide (off < 0x50000)) || (decide (0x50100 ≤ off) && decide (off < 0x50300))
    || (decide (0xD80000 ≤ off) && decide (off < 0xE00000)) || (decide (0xE30000 ≤ off) && decide (off < 0xE40000))
    || (decide (0xE60000 ≤ off) && decide (off < 0xF00000))

/-- The main domain off and on again with the Den running. -/
def Elzel.denCycle (e : Elzel) : Elzel :=
  let f := Elzel.init e.c.prm e.flash
  { f with
    c := { f.c with
      regs := e.c.regs.filter (fun r => denKeeps r.1), now := e.c.now, free := e.c.free, gt := e.c.gt, htSec := e.c.htSec,
      htNs := e.c.htNs, htFrac := e.c.htFrac, steps := e.c.steps, tb := e.c.tb, ref := e.c.ref, jrnl := e.c.jrnl,
      traceStopped := e.c.traceStopped, den := e.c.den, pw := e.c.pw }
    mgr := { f.mgr with hlt := e.mgr.hlt }
    console := e.console }

/-- A source of R316 that wakes Elzel: 1 PERST_N, 2 a UART0 break, 3 WAKE_AT, 4 T_j below 95 °C after a trip. After a trip no source
acts until T_j is below 95 °C (R447). The numbers are the model's, in the order of R316. -/
def Elzel.denWakeAllowed (e : Elzel) (cause : Nat) : Bool :=
  e.c.pw.st == .denOnly && (!e.th.tripped || decide (e.th.tj < 9500)) && (match cause with
    | 1 | 2 => true
    | 3 => e.c.rd EZ.PST_WAKE_AT_WAKE_AT != 0 && decide (e.c.gtInt ≥ e.c.rd EZ.PST_WAKE_AT_WAKE_AT)
    | 4 => e.th.tripped && e.c.flag EZ.PST_CTL_AUTO_RESUME
    | _ => false)

/-- The exit from DEN_ONLY: the boot with HBM4 kept, DEN_TIME, and HALF after a trip (R316, R447, R456). -/
def Elzel.leaveDenOnly (e : Elzel) : Elzel :=
  let trip := e.th.tripped
  let e := e.denCycle
  let e := e.onC (fun c =>
    { c.wr EZ.PST_STATUS_DEN_TIME (satU 32 ((c.now - c.pw.entryAt) / 1000000000)) with
      pw := { c.pw with st := .run, idleSince := none } })
  let e : Elzel := { e with th := { half := trip, want := trip } }
  e.boot e.straps false true 192

/-- DEN_ONLY_WAKE (R316). -/
def execDenOnlyWake (cause : BitVec 4) (s : State) : Out :=
  .next { s with ez := if s.ez.denWakeAllowed cause.toNat then s.ez.leaveDenOnly else s.ez }

/-! ### Firmware operations (R461 to R464) -/

/-- The status a check of an image gives (R454, R462); of a refused image that speaks no common level VERSION. -/
def Elzel.imageStatus (e : Elzel) (op : Nat) (i : FwImage) : Nat :=
  if !imageOk i then ST.BADPARAM
  else if op == 2 && (List.range 68).any (fun p => e.c.up p &&
      (decide (e.c.rd EZ.SL_STATUS_LVL_RUN p < i.lvlMin.toNat) || decide (e.c.rd EZ.SL_STATUS_LVL_RUN p > i.lvlMax.toNat)))
    then ST.VERSION else ST.OK

/-- The status a check of a configuration block gives (R455). -/
def Elzel.configStatus (e : Elzel) (b : FwConfig) : Nat :=
  if ((Elzel.init e.c.prm e.flash).c.cfgBlock e.flash.seqMax b).isSome then ST.OK else ST.BADPARAM

/-- An operation begins: STATE = BUSY until FW_OP_DONE. Refused with BUSY while one runs. -/
def Elzel.fwStart (e : Elzel) (r : FwRun) : Elzel × Nat :=
  if e.fw.isSome then (e, ST.BUSY)
  else ({ e with fw := some r } |>.onC (·.wr EZ.FW_CTL_STATE 1), ST.OK)

/-- An operation on the bytes at EZ_FW_ADDR (R461). VERIFY takes an image or a block. A failed check, or a length beyond the bound of
the register, is BADPARAM (DEDUCED, log entry 63). -/
def Elzel.fwOp (e : Elzel) (host : Mem) (op : Nat) : Elzel × Nat :=
  let len := e.c.rd EZ.FW_CTL_LEN
  let bytes := memReadBytes host (e.c.rd EZ.FW_ADDR_ADDR * 64) (min len 8388608)
  let img := Config.readImage bytes
  let blk := Config.readConfig bytes
  let tooLong := decide (len > (if op == 3 then 65536 else 8388608)) || len == 0
  let st := if tooLong then ST.BADPARAM
    else if op == 3 then e.configStatus blk
    else if op == 1 then (if e.imageStatus 1 img == ST.OK || e.configStatus blk == ST.OK then ST.OK else ST.BADPARAM)
    else e.imageStatus 2 img
  if op == 1 then e.fwStart { op := 1, status := st }
  else if op == 2 then e.fwStart { op := 2, img := some img, status := st }
  else if op == 3 then e.fwStart { op := 3, blk := some blk, status := st }
  else (e, ST.OK)

/-- The operation ends: STATE = DONE and STATUS. -/
def Elzel.fwEnd (e : Elzel) (st : Nat) : Elzel :=
  { e with fw := none } |>.onC (fun c => (c.wr EZ.FW_CTL_STATE 2).wr EZ.FW_CTL_STATUS st)

/-- The region that an operation was writing is left undefined: the next boot finds nothing valid there (R463). -/
def Elzel.regionLost (e : Elzel) (op : Nat) : Elzel :=
  if op == 2 then { e with flash := { e.flash with image := none } }
  else if op == 3 then { e with flash := { e.flash with config := none } } else e

/-- An operation cut off (R463): it reports ABANDONED. -/
def Elzel.fwCut (e : Elzel) : Elzel :=
  match e.fw with
  | none => e
  | some r => (if r.status == ST.OK then e.regionLost r.op else e).fwEnd ST.ABANDONED

/-- FW_OP_DONE (R461): `ok` tells that the data was read and the region compared. The manual gives no status for a comparison that
fails: a free value (log entry 63). After a PROGRAM of the image the monitor boots from flash, unless the straps select it (R464). -/
def Elzel.fwDone (e : Elzel) (ok : Bool) : Elzel :=
  match e.fw with
  | none => e
  | some r =>
    if r.status != ST.OK then e.fwEnd r.status
    else if !ok then
      let v := bits (Config.freeWord e.c.free) 7 0
      ((e.regionLost r.op).fwEnd v).onC (fun c => { c with free := c.free + 1 })
    else
      let e : Elzel := match r.op, r.img, r.blk with
        | 2, some i, _ => { e with flash := { e.flash with image := some i } }
        | 3, _, some b => { e with flash := { e.flash with config := some b } }
        | _, _, _ => e
      let e := e.fwEnd ST.OK
      if r.op == 2 && e.c.rd EZ.BOOT_STATUS_STAGE == 5 && e.straps % 4 != 1 && e.straps % 4 != 2 then
        e.boot e.straps false true 231
      else e

/-- The boot ROM monitor serves UART0 (R464). -/
def Elzel.uartMonitor (e : Elzel) : Bool := e.c.rd EZ.BOOT_STATUS_STAGE == 5 && e.straps % 4 == 2

/-- What is printed on UART0. -/
def Elzel.print (e : Elzel) (l : MonLine) : Elzel := { e with console := l :: e.console }

/-! ### Meanings -/

/-- FW_VERIFY (R461): OP = VERIFY written with the EZ_FW_ADDR and LEN that stand. -/
def execFwVerify (s : State) : Out := .next (s.onEz (fun e => (e.fwOp s.hostMem 1).1))

/-- FW_PROGRAM (R461, R462). -/
def execFwProgram (s : State) : Out := .next (s.onEz (fun e => (e.fwOp s.hostMem 2).1))

/-- FW_CONFIG (R461, R455). -/
def execFwConfig (s : State) : Out := .next (s.onEz (fun e => (e.fwOp s.hostMem 3).1))

/-- FW_OP_DONE (R461). -/
def execFwOpDone (ok : Bool) (s : State) : Out := .next (s.onEz (·.fwDone ok))

/-- MONITOR_VERIFY (R464): the image comes by YMODEM-1K. -/
def execMonitorVerify (img : FwImage) (s : State) : Out :=
  .next (s.onEz (fun e => if e.uartMonitor then (e.fwStart { op := 1, status := e.imageStatus 1 img }).1 else e))

/-- MONITOR_PROGRAM (R464). -/
def execMonitorProgram (img : FwImage) (s : State) : Out :=
  .next (s.onEz (fun e => if e.uartMonitor then (e.fwStart { op := 2, img := some img, status := e.imageStatus 2 img }).1 else e))

/-- MONITOR_CONFIG (R464). -/
def execMonitorConfig (blk : FwConfig) (s : State) : Out :=
  .next (s.onEz (fun e => if e.uartMonitor then (e.fwStart { op := 3, blk := some blk, status := e.configStatus blk }).1 else e))

/-- MONITOR_STATUS (R464): EZ_BOOT_STATUS and EZ_FW_CTL. -/
def execMonitorStatus (s : State) : Out :=
  .next (s.onEz (fun e => if e.uartMonitor then e.print (.words [e.c.get EZ.BOOT_STATUS, e.c.get EZ.FW_CTL]) else e))

end Sys2Proof.Machine
end

