-- ==== Sys2Proof/Machine/Discovery.lean ====
section
/-!
DEFINITION. Sys2Proof/Machine/Discovery.lean: discovery of 01 (R15, R17 to R20), the resends that follow it (R399), summaries and
TREE_READY (R460), and the end of training at both parts.
-/
namespace Sys2Proof.Machine

variable {pt : Part}

/-! ### Layouts. The manual gives the items of the discovery messages and no layout (DESIGN CHOICE, log entry 20): DISC_DOWN as in
Link; DISC_DOWN bit 95 set only tells the child of its hold; DISC_UP: bit 127 the kind, 126 GJ_CHIP.VALID, 125:108 GJ_CHIP.CHIP;
DISC_SUM: words, the first with bit 63 ready, 62 the first packet of the summary, 61 complete, 15:0 the entries that follow; an
entry: 63:46 the chip, 45:28 the coordinate, 27 held. -/

/-- Where the port number goes in a child's coordinate, for a parent of a role and depth. -/
def shiftOf (role depth : Nat) : Nat :=
  if role == 2 then 6 else if role == 3 && depth == 3 then 12 else if role == 3 && depth == 2 then 6 else 0

/-- The child's coordinate that a DISC_DOWN body gives. -/
def discCoord (b : Flit) : Nat :=
  (bits b 122 105 + bits b 104 97 * 2 ^ shiftOf (bits b 127 126) (bits b 124 123)) % 2 ^ 18

/-- DISC_DOWN that only tells the child whether it is held (R18). -/
def Chip.discTellPkt (c : Chip pt) (p : Nat) : Pkt :=
  match c.discDownPkt p with
  | h :: b :: l => h :: setFlit b 95 95 1 :: l
  | l => l

def Chip.discUpPkt (c : Chip pt) (p : Nat) : Pkt :=
  match c.part with
  | .garja => c.mgmtNear p 2 0 [f128 (put 126 126 (c.rd GJ.CHIP_VALID) + put 125 108 (c.rd GJ.CHIP_CHIP))]
  | .elzel => c.mgmtNear p 2 0 [f128 (2 ^ 127)]

/-! ### The child (R17 orders 2 and 3) -/

/-- DISC_DOWN at a Garja: the coordinate, VALID and HELD of its port, and the answer; on the barrier port of a context what is stored
is sent again (R399). -/
def Garja.discDown (g : Garja) (p : Nat) (b : Flit) : Garja :=
  let reg := if p == 0 then GJ.TREE_A else GJ.TREE_B
  let was := bit (g.c.get reg) 60
  let held := bit b 96
  let g := g.onC (fun c => c.set reg (w64 (2 ^ 63 + put 62 61 (bits b 124 123) + put 60 60 (b2n held) + discCoord b)))
  if bit b 95 then (if was && !held then g.resendStore p else g)
  else (g.onC (fun c => c.send p .mgmt (c.discUpPkt p))).resendStore p

/-- Discovery on every downstream port that is UP. -/
def Chip.discoverAll (c : Chip pt) : Chip pt := (List.range 64).foldl (fun c p => c.discover p) c

/-- DISC_DOWN at an Elzel, on its own-domain uplink: its PREFIX, the discovery that a change of it starts, the answer, and what it
keeps sent again (R399). -/
def Elzel.discDown (e : Elzel) (p : Nat) (b : Flit) : Elzel :=
  if p != e.c.uplink || e.c.isRoot then e
  else if bit b 95 then (if bit b 96 then e else e.resendKept)
  else
    let k := discCoord b
    let e := if e.c.rd EZ.ROLE_PREFIX == k then e else e.onC (fun c => (c.wr EZ.ROLE_PREFIX k).discoverAll)
    (e.onC (fun c => c.send p .mgmt (c.discUpPkt p))).resendKept

/-! ### Holds (R18 to R21) -/

/-- Chips bound in this Elzel's subtree, and in its sibling's as its summary says. -/
def Elzel.ownEnts (e : Elzel) : List SumEnt :=
  if e.c.isLeaf then
    ((List.range 64).filter (fun p => e.c.flag EZ.BIND_SEEN p && !e.c.flag EZ.BIND_KIND p && !e.c.farElzel p)).map
      (fun p => ⟨e.c.chipAt p, e.c.childCoord p, e.c.flag EZ.BIND_HELD p⟩)
  else (e.mgr.sums.filter (fun s => decide (s.1 < 64))).flatMap (·.2)
def Elzel.peerEnts (e : Elzel) : List SumEnt := (e.mgr.sums.filter (fun s => decide (s.1 ≥ 66))).flatMap (·.2)

def entHeld (l : List SumEnt) (chip : Nat) : Bool := l.any (fun x => x.chip == chip && x.held)

/-- Members of planned jobs of which both domains are held leave (R21), as the root of domain A sees it. -/
def Elzel.heldCheck (e : Elzel) : Elzel :=
  if !e.c.isRootA then e
  else
    let lost := e.mgr.plans.flatMap (fun p => (p.chips.filter (fun c => entHeld e.ownEnts c && entHeld e.peerEnts c
      && !e.mgr.hlt.out.contains (p.job, c))).map (fun c => (p.job, c)))
    lost.foldl (fun e x =>
      let e := e.onHlt (fun h => { h with out := x :: h.out })
      if e.c.isLeaf then
        match e.c.portOfChip x.2 with
        | some p => e.heldOut p x.1
        | none => (List.range 64).foldl (fun e p => if e.c.chipAt p == x.2 && e.c.flag EZ.BIND_HELD p then e.heldOut p x.1 else e) e
      else e.expel x.2 ((e.coordOfChip x.2).getD 0) x.1 3) e

/-- A hold set or cleared on a downstream port: the child is told, and a barrier port out of use is timed (R20, R137). -/
def Chip.setHeld (c : Chip pt) (p : Nat) (v : Bool) : Chip pt :=
  if c.flag EZ.BIND_HELD p == v then c
  else
    let c := (c.wr EZ.BIND_HELD (b2n v) p).onLink p (fun l =>
      { l with outSince := if v then some (l.outSince.getD c.now) else if c.up p then none else l.outSince })
    if c.up p then c.send p .mgmt (c.discTellPkt p) else c

/-- POSITION_MISMATCH (R18): coordinate, expected number, reported number, reason; source 11. -/
def Chip.mismatchPos (c : Chip pt) (coord expected reported code : Nat) : Chip pt :=
  (c.raise EV.POSITION_MISMATCH none none [i32 coord, i32 expected, i32 reported, i8 code]).latchIrq 11

/-- A failure on a downstream port: it is held and reported. -/
def Elzel.failPos (e : Elzel) (p code : Nat) : Elzel :=
  e.onC (fun c => (c.setHeld p true).mismatchPos (c.childCoord p) (if c.flag EZ.BIND_KIND p then 0 else c.rd EZ.BIND_EXPECTED p)
    (c.rd EZ.BIND_REPORTED p) code)

/-- The downstream port under which an entry lies. -/
def Elzel.portOfEnt (e : Elzel) (x : SumEnt) : Nat := e.c.portField x.coord

/-- Chip numbers missing from the sibling's set, once both sets are complete (R15). -/
def Elzel.pairingCheck (e : Elzel) : Elzel :=
  let full := fun (p : Nat) => e.mgr.oks.any (fun o => o.1 == p && o.2.2)
  if !(full 66 || full 67) then e
  else
    let peer := e.peerEnts
    let bad := e.ownEnts.filter (fun x => !peer.any (fun y => y.chip == x.chip))
    let fresh := bad.filter (fun x => !e.mgr.found.contains (x.chip, x.coord, 7))
    let e := e.onMgr (fun m => { m with found := m.found.filter (fun f => f.2.2 != 7 || bad.any (fun x => x.chip == f.1 && x.coord == f.2.1)) })
    fresh.foldl (fun e x =>
      let p := e.portOfEnt x
      let e := e.onMgr (fun m => { m with found := (x.chip, x.coord, 7) :: m.found })
      if e.c.isLeaf then e.failPos p 7
      else e.onC (fun c => (c.setHeld p true).mismatchPos x.coord 0 x.chip 7)) e

/-- DUPLICATE over the summaries (R18, R19): when one of the two ports serves a member of a running job, only the other is held. -/
def Elzel.duplicateCheck (e : Elzel) : Elzel :=
  let l := e.ownEnts
  let pairs := l.flatMap (fun x => (l.filter (fun y => y.chip == x.chip && decide (x.coord < y.coord))).map (fun y => (x, y)))
  let bad := pairs.flatMap (fun q => [q.1, q.2])
  let fresh := pairs.filter (fun q => !e.mgr.found.contains (q.1.chip, q.1.coord, 4) || !e.mgr.found.contains (q.2.chip, q.2.coord, 4))
  let e := e.onMgr (fun m => { m with found := m.found.filter (fun f => f.2.2 != 4 || bad.any (fun x => x.chip == f.1 && x.coord == f.2.1)) })
  fresh.foldl (fun e q =>
    let a := e.portOfEnt q.1
    let b := e.portOfEnt q.2
    let serveA := e.c.portServes a
    let serveB := e.c.portServes b
    let hold := if a == b then (if serveA then [] else [a])
      else if serveA && !serveB then [b] else if serveB && !serveA then [a] else [a, b]
    let e := hold.foldl (fun e p => e.onC (·.setHeld p true)) e
    [q.1, q.2].foldl (fun e x =>
      if e.mgr.found.contains (x.chip, x.coord, 4) then e
      else (e.onMgr (fun m => { m with found := (x.chip, x.coord, 4) :: m.found })).onC (fun c => c.mismatchPos x.coord 0 x.chip 4)) e) e

/-! ### The parent (R17 order 4, R18) -/

/-- The reasons of R18 that a DISC_UP alone decides. An unbound port has no kind and no number to compare with, and a die without a
number reports none (DEDUCED, log entry 21). -/
def Chip.discFails (c : Chip pt) (p : Nat) (elz valid : Bool) (chip : Nat) : List Nat :=
  let role := c.rd EZ.ROLE_ROLE
  let roleBad := if elz then role == 1 else role == 2 || (role == 3 && decide (c.rd EZ.ROLE_DEPTH ≥ 2))
  (if !c.flag EZ.BIND_VALID p then [6]
   else (if elz != c.flag EZ.BIND_KIND p then [1] else []) ++ (if !elz && !valid then [2] else [])
     ++ (if !elz && valid && chip != c.rd EZ.BIND_EXPECTED p then [3] else []))
  ++ (if roleBad then [5] else [])

/-- DISC_UP received on a downstream port. -/
def Elzel.discUp (e : Elzel) (p : Nat) (b : Flit) : Elzel :=
  let elz := bit b 127
  let chip := bits b 125 108
  let e := e.onC (fun c =>
    let c := c.wr EZ.BIND_SEEN 1 p
    let c := if elz then c else c.wr EZ.BIND_REPORTED chip p
    c.onLink p (fun l => { l with discAt := none, discLate := false }))
  let fails := e.c.discFails p elz (bit b 126) chip
  let e := if !elz && bit b 126 && e.c.isLeaf then e.onC (·.dieBound p chip) else e
  let e := e.onMgr (fun m => { m with found := m.found.filter (fun f => e.c.portField f.2.1 != p) })
  if fails.isEmpty then
    let e := e.onC (·.setHeld p false)
    (if e.mgr.oks.any (fun o => o.1 == p) then e.duplicateCheck else e).pairingCheck.heldCheck
  else (fails.foldl (fun e r => e.failPos p r) e).heldCheck

/-- DISC_TIMEOUT (R18): after 10 µs it is raised once, and then DISC_DOWN is repeated every 1 ms. -/
def Chip.discTimeout (c : Chip pt) (p : Nat) : Chip pt :=
  match (c.link p).discAt with
  | none => c
  | some t =>
    if !c.up p then c
    else if !(c.link p).discLate then
      if c.now < t + 10000 then c
      else (c.onLink p (fun l => { l with discLate := true })).raise EV.DISC_TIMEOUT none none
        [i8 p, i8 (c.rd EZ.BIND_KIND p), i32 (if c.flag EZ.BIND_KIND p then 0 else c.rd EZ.BIND_EXPECTED p)]
    else if c.now < t + 1000000 then c
    else (c.send p .mgmt (c.discDownPkt p)).onLink p (fun l => { l with discAt := some c.now })

/-! ### Summaries and TREE_READY (R15, R17, R460) -/

/-- What a port's subtree reported: a port that is not bound needs no report. -/
def Elzel.portOk (e : Elzel) (ready : Bool) (p : Nat) : Bool :=
  let c := e.c
  !c.flag EZ.BIND_VALID p || (c.flag EZ.BIND_SEEN p && (!ready || !c.flag EZ.BIND_HELD p)
    && (!c.flag EZ.BIND_KIND p || e.mgr.oks.any (fun o => o.1 == p && (if ready then o.2.1 else o.2.2))))
def Elzel.treeOk (e : Elzel) : Bool := e.c.calLock == 2 && (List.range 64).all (fun p => e.portOk true p)
def Elzel.treeComplete (e : Elzel) : Bool := (List.range 64).all (fun p => e.portOk false p)

def entWord (x : SumEnt) : Word := w64 (put 63 46 x.chip + put 45 28 x.coord + put 27 27 (b2n x.held))
def wordEnt (w : Word) : SumEnt := ⟨bits w 63 46, bits w 45 28, bit w 27⟩

/-- A summary cut into packets of at most 124 entries: their words. -/
def sumPkts (head : Nat) : Nat → Bool → List Word → List (List Word)
  | 0, _, _ => []
  | n + 1, first, l =>
    let now := l.take 124
    let ws := w64 (head + (if first then 2 ^ 62 else 0) + now.length) :: now
    ws :: (if (l.drop 124).isEmpty then [] else sumPkts head n false (l.drop 124))

/-- A port that leaves UP reports nothing any more. -/
def Elzel.dropReports (e : Elzel) : Elzel :=
  let gone := fun (p : Nat) => !e.c.up p
  if e.mgr.oks.any (fun o => gone o.1) then
    e.onMgr (fun m => { m with oks := m.oks.filter (fun o => !gone o.1), sums := m.sums.filter (fun s => decide (s.1 < 64) || !gone s.1) })
  else e

/-- The summary sent to the parent and to the sibling when it has changed since it was last sent there, and TREE_READY. -/
def Elzel.sumSync (e0 : Elzel) : Elzel :=
  let e := e0.dropReports
  if e.c.rd EZ.ROLE_ROLE == 0 then e
  else
    let up := !e.c.isRoot && e.c.up e.c.uplink
    let peer := e.c.up e.c.peerPort
    let ents := e.ownEnts.map entWord
    let head := put 63 63 (b2n e.treeOk) + put 61 61 (b2n e.treeComplete)
    let key := w64 (head + 2 * b2n up + b2n peer) :: ents
    let e := e.onC (fun c => if c.isRoot then c.wr EZ.BOOT_STATUS_TREE_READY
        (b2n (e.treeOk && e.mgr.oks.any (fun o => decide (o.1 ≥ 66) && o.2.1))) else c)
    if key == e.mgr.sentSum then e
    else
      let pkts := sumPkts head (ents.length / 124 + 1) true ents
      let lvl := if e.c.rd EZ.ROLE_ROLE == 1 && e.c.rd EZ.ROLE_DEPTH == 3 then 2 else 3
      let mk := fun (p : Nat) (routed : Bool) (ws : List Word) =>
        let body := flitsOf ws
        Mgmt.flit { len := body.length, cls := 3, routed := routed, up := true, level := if routed then lvl else 0, dst := 0,
                    src := e.c.srcCoord p, tag := 0, lvl := e.c.rd EZ.SL_STATUS_LVL_RUN p } :: body
      let e := pkts.foldl (fun e ws => e.onC (fun c =>
        let c := if up then c.send c.uplink .mgmt (mk c.uplink true ws) else c
        if peer then c.send c.peerPort .mgmt (mk c.peerPort false ws) else c)) e
      e.onMgr (fun m => { m with sentSum := key })

/-- A summary received (R17 order 5): the first packet of it replaces what the port reported before. -/
def Elzel.sumIn (e : Elzel) (p : Nat) (ws : List Word) : Elzel :=
  let h := ws.headD 0
  let ents := ((ws.drop 1).take (bits h 15 0)).map wordEnt
  let old := if bit h 62 then [] else ((e.mgr.sums.find? (fun s => s.1 == p)).map (·.2)).getD []
  let e := e.onMgr (fun m =>
    { m with sums := (p, old ++ ents) :: m.sums.filter (fun s => s.1 != p),
             oks := (p, bit h 63, bit h 61) :: m.oks.filter (fun o => o.1 != p) })
  let e := if p < 64 then e.duplicateCheck else e
  e.pairingCheck.heldCheck

/-- A summary packet on its port (R91): routed and for this level from below, or not routed from the sibling. -/
def Elzel.discSum (e : Elzel) (p : Nat) (pkt : Pkt) : Elzel :=
  let m := mgmtOf (pkt.headD 0)
  if flitType (pkt.headD 0) != 6 || m.cls != 3 then e
  else
    let e := e.onC (·.take p .mgmt pkt)
    if p < 64 && m.routed && m.level == e.c.level || (decide (p ≥ 66) && !m.routed) then e.sumIn p (wordsOf (pkt.drop 1))
    else e.onC (·.countDir p)

/-! ### Meanings -/

/-- A discovery message of a class on its port, not routed. -/
def discIs (cls : Nat) (pkt : Pkt) : Bool :=
  flitType (pkt.headD 0) == 6 && (mgmtOf (pkt.headD 0)).cls == cls && !(mgmtOf (pkt.headD 0)).routed

/-- DISC_DOWN (R17). -/
def execDiscDown (u : Part) (p : BitVec 7) (pkt : Pkt) (s : State) : Out :=
  if !discIs 1 pkt then .next s
  else match u with
    | .garja => .next (s.onGj (fun g =>
        if p.toNat < 2 && g.c.up p.toNat then (g.onC (·.take p.toNat .mgmt pkt)).discDown p.toNat (pkt.getD 1 0) else g))
    | .elzel => .next (s.onEz (fun e =>
        if p.toNat < 68 && e.c.up p.toNat then ((e.onC (·.take p.toNat .mgmt pkt)).discDown p.toNat (pkt.getD 1 0)).sumSync else e))

/-- DISC_UP (R17, R18). -/
def execDiscUp (p : BitVec 7) (pkt : Pkt) (s : State) : Out :=
  .next (s.onEz (fun e =>
    if discIs 2 pkt && decide (p.toNat < 64) && e.c.up p.toNat then
      ((e.onC (·.take p.toNat .mgmt pkt)).discUp p.toNat (pkt.getD 1 0)).sumSync
    else e))

/-- DISC_SUM (R17, R15, R460). -/
def execDiscSum (p : BitVec 7) (pkt : Pkt) (s : State) : Out :=
  .next (s.onEz (fun e => if p.toNat < 68 && e.c.up p.toNat then (e.discSum p.toNat pkt).sumSync else e))

/-- DISC_TIMEOUT (R18). -/
def execDiscTimeout (p : BitVec 7) (s : State) : Out := .next (s.onEz (·.onC (fun c => if p.toNat < 64 then c.discTimeout p.toNat else c)))

/-- TRAIN (R89, R90): a port that enters UP resends what is kept for it (R136). -/
def execTrain (u : Part) (p : BitVec 7) (pkt : Pkt) (s : State) : Out :=
  match u with
  | .garja => .next (s.onGj (fun g =>
      if p.toNat < 2 && g.c.clocked then
        let was := g.c.up p.toNat
        let g := g.onC (·.trainRecv p.toNat pkt)
        if !was && g.c.up p.toNat then g.resendStore p.toNat else g
      else g))
  | .elzel => .next (s.onEz (fun e =>
      if p.toNat < 68 then
        let was := e.c.up p.toNat
        let e := e.onC (·.trainRecv p.toNat pkt)
        if !was && e.c.up p.toNat && p.toNat == e.c.uplink then e.resendKept.sumSync else e.sumSync
      else e))

end Sys2Proof.Machine
end

