-- ==== Sys2Proof/Machine/Envelope.lean ====
section
/-!
DEFINITION. Sys2Proof/Machine/Envelope.lean: the power envelope controller of Elzel (R289 to R294, R300 to R304): polling the shelf, and
planning the ramps of job starts and ends at the domain-A root.
-/
namespace Sys2Proof.Machine

variable {pt : Part}

/-! ### Telemetry (R291 to R294) -/

/-- A LINEAR11 word as num / den. -/
def linear11 (w : BitVec 16) : Int × Nat :=
  let e := sx 5 (bits w 15 11)
  (sx 11 (bits w 10 0) * ((2 ^ e.toNat : Nat) : Int), 2 ^ (-e).toNat)

/-- READ_VOUT with the exponent of VOUT_MODE, in mV as num / den. -/
def linear16 (w : BitVec 16) (mode : BitVec 8) : Int × Nat :=
  let e := sx 5 (bits mode 4 0)
  ((w.toNat : Int) * 1000 * ((2 ^ e.toNat : Nat) : Int), 2 ^ (-e).toNat)

/-- A value num / den in whole units of `unit`; where it is not whole, the rounding is a free value. -/
def inUnits (v : Int × Nat) (unit : Nat) : Int :=
  let d := v.2 * unit
  if v.1 % (d : Int) = 0 then v.1 / (d : Int) else Config.telemetryRound v.1 d

/-- The number of a rack: the leaf coordinate 64 T + L. -/
def Chip.ownRack (c : Chip pt) : Nat := c.rd EZ.ROLE_PREFIX / 64

/-- Cause of LOW (R294): 3 FAULT, 1 SOC, 0 none. Of two causes that hold FAULT is shown (DESIGN CHOICE, log entry 30). -/
def Chip.lowCause (c : Chip pt) (r : ShelfPoll) : Nat :=
  if bits r.status 15 11 != 0 then 3
  else if c.rd EZ.PWR_SHELF1_CMD_SOC != 0
      && decide ((linear11 r.soc).1 < (c.rd EZ.PWR_CTL_SOC_MIN : Int) * ((linear11 r.soc).2 : Int)) then 1
  else 0

/-- A rack's report at the domain-A root. -/
def Chip.rackReport (c : Chip pt) (k cause pl pmax : Nat) : Chip pt :=
  ((((c.wr EZ.PWR_RACK_VALID 1 k).wr EZ.PWR_RACK_LOW (b2n (cause != 0)) k).wr EZ.PWR_RACK_CAUSE cause k).wr EZ.PWR_RACK_P_L pl k).wr
    EZ.PWR_RACK_P_MAX pmax k

/-- A rack marked LOW with cause TELEM. -/
def Chip.rackTelem (c : Chip pt) (k : Nat) : Chip pt := (c.wr EZ.PWR_RACK_LOW 1 k).wr EZ.PWR_RACK_CAUSE 2 k

/-- The leaf polls its rack's shelf: it is the master, or polls for a silent one (R291, R293). -/
def Elzel.polls (e : Elzel) : Bool :=
  e.c.isLeaf && e.c.flag EZ.PWR_CTL_EN && (e.c.flag EZ.PWR_CTL_MASTER || e.c.flag EZ.PWR_CTL_TAKEOVER) && !e.c.subHeld 14

/-- The smaller of a parameter of the configuration block and what the shelf gives, where a command code is set (R292). -/
def Chip.shelfParam (c : Chip pt) (f code : Fld) (v : Int) : Chip pt :=
  if c.rd code = 0 then c else c.wr f (min (c.rd f) v.toNat)

/-- PWR_ENVELOPE: the limit, the value and HT. -/
def Chip.envelope (c : Chip pt) (limit : Nat) (value : Int) : Chip pt :=
  (c.inc EZ.PWR_CNT_ENVELOPE).raise EV.PWR_ENVELOPE none none [i16 limit, s16 value, i64 c.gtInt]

/-- A completed poll of the own shelf. -/
def Elzel.pollDone (e : Elzel) (r : ShelfPoll) : Elzel :=
  let c := e.c
  let pl := linear11 r.pout
  let ps := let v := linear11 r.pStore; if r.charging then (-v.1, v.2) else v
  let dt := (c.now - e.shelf.polledAt) / 1000
  let en := (Config.storageEnergy (c.rd EZ.PWR_TEL1_E) ps.1 ps.2 dt).toNat
  let tau := linear11 r.tau
  let c := ((c.shelfParam EZ.PWR_SHELF0_TAU EZ.PWR_SHELF1_CMD_TAU (inUnits (tau.1 * 1000, tau.2) 1)).shelfParam EZ.PWR_SHELF0_P_BUF
    EZ.PWR_SHELF1_CMD_PBUF (inUnits (linear11 r.pBuf) 1)).shelfParam EZ.PWR_SHELF0_E_BUF EZ.PWR_SHELF1_CMD_EBUF (inUnits (linear11 r.eBuf) 1)
  let c := ((c.wrS EZ.PWR_TEL0_P_L (inUnits pl 10)).wrS EZ.PWR_TEL0_P_S (inUnits ps 10)).wr EZ.PWR_TEL0_STATUS r.status.toNat
  let c := if c.rd EZ.PWR_SHELF1_CMD_SOC = 0 then c else c.wrS EZ.PWR_TEL0_SOC (inUnits (linear11 r.soc) 1)
  let c := (c.wr EZ.PWR_TEL1_E en).wrS EZ.PWR_TEL1_VOUT (inUnits (linear16 r.vout r.voutMode) 1)
  let pmax := c.rd EZ.PWR_SHELF1_P_MAX
  let pbuf := c.rd EZ.PWR_SHELF0_P_BUF
  let c := if pl.1 > (pmax : Int) * 10 * (pl.2 : Int) then c.envelope pmax (c.rd EZ.PWR_TEL0_P_L) else c
  let c := if (ps.1.natAbs : Int) > (pbuf : Int) * (ps.2 : Int) then c.envelope pbuf (c.rdS EZ.PWR_TEL0_P_S) else c
  let c := if en > c.rd EZ.PWR_SHELF0_E_BUF then c.envelope (c.rd EZ.PWR_SHELF0_E_BUF) en else c
  let c := if c.isRootA then c.rackReport c.ownRack (c.lowCause r) (c.rd EZ.PWR_TEL0_P_L) pmax else c
  let c := if e.shelf.resume then c.wr EZ.PWR_CTL_TAKEOVER 0 else c
  { e with c := c, shelf := { polledAt := c.now } }

/-- A poll of the own shelf, or at a root that is no leaf the report of another rack's leaf, which comes in MGMT (R292; the manual gives
it no class and no layout: DESIGN CHOICE, log entry 30). -/
def Elzel.shelfPoll (e : Elzel) (r : ShelfPoll) : Elzel :=
  if e.c.isLeaf then
    if !e.polls then e
    else
      let e := e.onC (·.inc EZ.PWR_CNT_PMBUS_ERR 0 r.failed.toNat)
      if r.ok then e.pollDone r else e
  else if e.c.isRootA && r.ok then
    e.onC (·.rackReport r.rack.toNat (e.c.lowCause r) (unsx 16 (inUnits (linear11 r.pout) 10)) r.pMax.toNat)
  else e

/-- No poll has completed for 1 s (R294), once until one does. -/
def Elzel.telemLost (e : Elzel) : Elzel :=
  if e.polls && decide (e.c.now - e.shelf.polledAt ≥ 1000000000) && e.shelf.lostAt.isNone then
    let e : Elzel := { e with shelf := { e.shelf with lostAt := some e.c.now } }
    e.onC (fun c =>
      let c := c.raise EV.PWR_TELEM_LOST none none []
      if c.isRootA then c.rackTelem c.ownRack else c)
  else e

/-! ### Planned ramps (R297, R304) -/

/-- A word that counts: 64 members of a rack by port. -/
def Ramp.levels (r : Ramp) : Nat := if r.to_ > r.from_ then r.to_ - r.from_ else r.from_ - r.to_
def Ramp.dwellNs (r : Ramp) : Nat := r.dwell * 1000
/-- The GT after the last step of every member. -/
def Ramp.ends (r : Ramp) : Nat := r.start + r.levels * r.dwellNs
/-- The instant of the (k + 1)-th step of the member on port p. -/
def Ramp.stepAt (r : Ramp) (p k : Nat) : Nat := r.start + k * r.dwellNs + (p + 1) * r.dwellNs / 64
/-- Steps that the member on port p has made by t. -/
def Ramp.made (r : Ramp) (t p : Nat) : Nat := ((List.range r.levels).filter (fun k => decide (r.stepAt p k ≤ t))).length
/-- Watts that a step adds. -/
def Ramp.unit (r : Ramp) : Int := if r.to_ > r.from_ then (r.stepW : Int) else -(r.stepW : Int)
/-- The change that rack k has seen from the ramp by t, in W. -/
def Ramp.change (r : Ramp) (k t : Nat) : Int :=
  (r.racks.map (fun x => if x.1 == k then r.unit * ((((onesOf x.2 64).map (r.made t)).sum : Nat) : Int) else 0)).sum
def Ramp.membersIn (r : Ramp) (k : Nat) : Nat := (r.racks.map (fun x => if x.1 == k then popCount x.2 64 else 0)).sum
def Ramp.members (r : Ramp) : Nat := (r.racks.map (fun x => popCount x.2 64)).sum
/-- The step instants of a ramp in racks that a predicate picks. -/
def Ramp.instants (r : Ramp) (p : Nat → Bool) : List Nat :=
  r.racks.flatMap (fun x => if p x.1 then (onesOf x.2 64).flatMap (fun q => (List.range r.levels).map (r.stepAt q)) else [])
/-- The ramp's slope on its linear model at t, for n of its members: W over µs. -/
def Ramp.slope (r : Ramp) (n t : Nat) : Int × Nat :=
  if r.start ≤ t ∧ t < r.ends then (r.unit * (n : Int), r.dwell) else (0, 1)

/-- |Σ num / den| × m ≤ limit. -/
def sumWithin (l : List (Int × Nat)) (m limit : Nat) : Bool :=
  let d := l.foldl (fun a x => a * x.2) 1
  decide ((l.map (fun x => x.1 * ((d / x.2 : Nat) : Int))).sum.natAbs * m ≤ limit * d)

/-- The load of rack k at t (R304): its last report and what the planned ramps change from now to t. -/
def Chip.rackLevel (c : Chip pt) (rs : List Ramp) (k t : Nat) : Int :=
  (c.rd EZ.PWR_RACK_P_L k : Int) * 10 + (rs.map (fun r => r.change k t - r.change k c.gtInt)).sum

/-- Racks that have reported and lie in group g. -/
def Chip.groupRacks (c : Chip pt) (g : Nat) : List Nat :=
  c.regs.filterMap (fun e => if rowHas 0xE20000 8 4096 e.1 && bit e.2 63 && bits e.2 59 54 == g then some ((e.1 - 0xE20000) / 8) else none)

/-- The starts of ramps from a on, and a. -/
def slopeTimes (rs : List Ramp) (a : Nat) : List Nat := a :: (rs.map (·.start)).filter (fun t => decide (a ≤ t))

/-- Rack k stays inside R290 from a on: P_MAX and SLEW at every step instant, P_BUF on the linear model. A rack that has not reported is
not limited. τ, P_BUF and SLEW are the root's own (DESIGN CHOICE, log entry 30). -/
def Chip.rackOk (c : Chip pt) (rs : List Ramp) (k a : Nat) : Bool :=
  !c.flag EZ.PWR_RACK_VALID k ||
    ((rs.flatMap (·.instants (· == k))).all (fun t => decide (t < a) ||
        (decide (c.rackLevel rs k t ≤ (c.rd EZ.PWR_RACK_P_MAX k : Int) * 10)
          && decide ((c.rackLevel rs k (t + 999) - c.rackLevel rs k (t - 1)).natAbs ≤ c.rd EZ.PWR_SHELF0_SLEW)))
      && (slopeTimes rs a).all (fun t => sumWithin (rs.map (fun r => r.slope (r.membersIn k) t)) (c.rd EZ.PWR_SHELF0_TAU) (c.rd EZ.PWR_SHELF0_P_BUF)))

/-- Groups with limits that hold a rack of a ramp. -/
def Chip.groupsOf (c : Chip pt) (r : Ramp) : List Nat :=
  ((r.racks.map (fun x => c.rd EZ.PWR_RACK_GROUP x.1)).filter (fun g => c.flag EZ.PWR_GRP_VALID g)).eraseDups

/-- G_MAX at every step instant from a on, in W. -/
def Chip.groupMaxOk (c : Chip pt) (rs : List Ramp) (g a : Nat) : Bool :=
  let ks := c.groupRacks g
  (rs.flatMap (·.instants (ks.contains ·))).all (fun t => decide (t < a) ||
    decide ((ks.map (fun k => c.rackLevel rs k t)).sum ≤ (c.rd EZ.PWR_GRP_G_MAX g : Int) * 1000))

/-- G_SLOPE on the linear model; 1 kW/ms is 1 W/µs. -/
def Chip.groupSlopeOk (c : Chip pt) (rs : List Ramp) (g a : Nat) : Bool :=
  let ks := (rs.flatMap (fun r => r.racks.map (·.1))).eraseDups.filter (fun k => c.rd EZ.PWR_RACK_GROUP k == g)
  (slopeTimes rs a).all (fun t => sumWithin (rs.map (fun r => r.slope ((ks.map r.membersIn).sum) t)) 1 (c.rd EZ.PWR_GRP_G_SLOPE g))

/-- Why a candidate is rejected (R302): 1 LEAD, 2 RACK, 3 GROUP_MAX, 4 GROUP_SLOPE, 5 LOW; 0 where it passes. -/
def Elzel.rejects (e : Elzel) (r : Ramp) (t : Nat) : Nat :=
  let c := e.c
  let rs := r :: e.mgr.ramps
  if r.start < t then 1
  else if r.racks.any (fun x => !c.rackOk rs x.1 r.start) then 2
  else if (c.groupsOf r).any (fun g => !c.groupMaxOk rs g r.start) then 3
  else if (c.groupsOf r).any (fun g => !c.groupSlopeOk rs g r.start) then 4
  else if r.racks.any (fun x => c.flag EZ.PWR_RACK_LOW x.1) then 5
  else 0

/-! ### Starts (R301, R302) -/

/-- R301 for a level and one rack of m members. -/
def Chip.fitsLevel (c : Chip pt) (dp stepW l m : Nat) : Bool :=
  decide (m * (20 * ((dp : Int) - ((l * stepW : Nat) : Int)).natAbs + l * stepW) ≤ 20 * c.rd EZ.PWR_SHELF0_SLEW)
    && decide (c.rd EZ.PWR_SHELF0_TAU * m * l * stepW ≤ c.rd EZ.PWR_SHELF0_E_BUF * 1000000)

/-- WAIT_LVL of a job, or the rack that R301 leaves without one (the lowest that level 15 does not fit). -/
def Chip.waitLevel (c : Chip pt) (dp stepW : Nat) (racks : List (Nat × Nat)) : Except Nat Nat :=
  match (List.range 16).find? (fun l => racks.all (fun x => c.fitsLevel dp stepW l (popCount x.2 64))) with
  | some l => .ok l
  | none => .error ((minOf ((racks.filter (fun x => !c.fitsLevel dp stepW 15 (popCount x.2 64))).map (·.1))).getD 0)

/-- a / b rounded up; 0 where b is 0. -/
def divUp (a b : Nat) : Nat := (a + b - 1) / b

/-- The rack bound of DWELL, in µs. A ramp acts on no DWELL below 64. -/
def Chip.rackDwell (c : Chip pt) (stepW : Nat) (racks : List (Nat × Nat)) : Nat :=
  (racks.map (fun x => divUp (c.rd EZ.PWR_SHELF0_TAU * popCount x.2 64 * stepW) (c.rd EZ.PWR_SHELF0_P_BUF))).foldl max 64

/-- The bound of the job's own slope. -/
def Chip.slopeDwell (c : Chip pt) (r : Ramp) : Nat :=
  ((c.groupsOf r).map (fun g => divUp (r.members * r.stepW) (c.rd EZ.PWR_GRP_G_SLOPE g))).foldl max 0

/-- The first value from a, a + step, ... for which f is 0, and the last value of f before it. -/
def firstZero (f : Nat → Nat) (step : Nat) : Nat → Nat → Nat → Option Nat × Nat
  | 0, _, cause => (none, cause)
  | n + 1, a, cause =>
    let k := f a
    if k = 0 then (some a, cause) else firstZero f step n (a + step) k

/-- The ramp of a job start (R302) with the cause of the last candidate rejected; none while no candidate passes. Past the end of every
planned ramp the checks no longer change. -/
def Elzel.planStart (e : Elzel) (r : Ramp) (tReq t : Nat) : Option Ramp × Nat :=
  let us := fun (n : Nat) => divUp n 1000 * 1000
  let a0 := us (tReq - r.levels * r.dwellNs)
  let a := max a0 (us t)
  let last := (e.mgr.ramps.map (·.ends)).foldl max a
  match firstZero (fun a => e.rejects { r with start := a } t) 1000 ((last - a) / 1000 + 2) a (if a0 < t then 1 else 0) with
  | (some s, cause) => (some { r with start := s }, cause)
  | (none, cause) => (none, cause)

/-- The ramp of a job end (R303): START is given and DWELL grows until every check passes. -/
def Elzel.planEnd (e : Elzel) (r : Ramp) : Ramp :=
  let f := fun (d : Nat) => let k := e.rejects { r with dwell := d } 0; if k = 5 then 0 else k
  { r with dwell := ((firstZero f 1 16777216 r.dwell 0).1).getD 16777215 }

/-! ### The entries that the root adds (R300 to R303) -/

/-- Racks of chips with the mask of their ports, by domain-A coordinate. -/
def Elzel.racksOf (e : Elzel) (chips : List Nat) : List (Nat × Nat) :=
  chips.foldl (fun l x =>
    match e.coordOfChip x with
    | none => l
    | some k =>
      let old := ((l.find? (fun y => y.1 == k / 64)).map (·.2)).getD 0
      (k / 64, Nat.lor old (2 ^ (k % 64))) :: l.filter (fun y => y.1 != k / 64)) []

/-- Writes of GJ_PWR_RAMP1 and, last, GJ_PWR_RAMP0, which arms the ramp. -/
def rampEntries (start from_ to_ dwell : Nat) (trig handover : Bool) : List StgEntry :=
  [stgWrite GJ.PWR_RAMP1 (w64 (2 ^ 64 - 1)) (w64 start),
   stgWrite GJ.PWR_RAMP0 (w64 (put 63 61 7 + put 59 52 255 + put 23 0 (2 ^ 24 - 1)))
     (w64 (2 ^ 63 + put 62 62 (b2n trig) + put 61 61 (b2n handover) + put 59 56 from_ + put 55 52 to_ + put 23 0 dwell))]

/-- The fill that a plan sets: FILL_EN, WAIT_LVL and CTX. -/
def fillEntry (ctx lvl : Nat) : StgEntry :=
  stgWrite GJ.PWR_CFG (w64 (put 63 51 (2 ^ 13 - 1))) (w64 (2 ^ 63 + put 62 59 lvl + put 58 51 ctx))

/-- The value that a list of entries writes to a whole register, if any. -/
def writtenWord (es : List StgEntry) (off : Nat) : Option Word :=
  (es.reverse.find? (fun x => bits x.w0 63 62 == 0 && bits x.w0 47 24 == off)).map (fun x => x.w1 &&& x.w2)

/-- S1 of the START of a list of entries. -/
def startStep (es : List StgEntry) : Option Nat :=
  (es.find? (fun x => bits x.w0 63 62 == 1 && bits x.w0 55 48 == 2)).map (fun x => bits x.w2 47 0)

/-- ANCHOR of a Garja block, set so that G(S1) is the first launch (R302). -/
def anchorOf (ctx tFirst : Nat) (es : List StgEntry) : Nat :=
  let per := ((writtenWord es (GJ.SQ_CTX_CFG_PERIOD.off + GJ.SQ_CTX_CFG_PERIOD.stride * ctx)).map
    (fun w => bits w GJ.SQ_CTX_CFG_PERIOD.hi GJ.SQ_CTX_CFG_PERIOD.lo)).getD 0
  (tFirst + (2 ^ 64 - (startStep es).getD 0 * per % 2 ^ 64)) % 2 ^ 64

/-- A block with the root's power entries and ANCHOR. -/
def StagePart.powered (b : StagePart) (job ctx anchor lvl : Nat) (r : Ramp) : StagePart :=
  if bit b.hdr 63 then
    { b with entries := b.entries.map (fun x =>
        if bits x.w0 63 62 == 0 && bits x.w0 47 24 == EZ.LNC_JOB_W1_ANCHOR.off + EZ.LNC_JOB_W1_ANCHOR.stride * job then { x with w2 := w64 anchor } else x) }
  else
    { b with entries := b.entries ++ [stgWrite (GJ.SQ_CTX_ANCHOR_ANCHOR.off + GJ.SQ_CTX_ANCHOR_ANCHOR.stride * ctx) (w64 (2 ^ 64 - 1)) (w64 anchor),
        fillEntry ctx lvl] ++ (if r.levels = 0 then [] else rampEntries r.start r.from_ r.to_ r.dwell false true) }

/-! ### Meanings -/

/-- PWR_TELEM_LOST (R294). -/
def execPwrTelemLost (s : State) : Out := .next (s.onEz Elzel.telemLost)

/-- POLL_TAKEOVER (R293). -/
def execPollTakeover (s : State) : Out :=
  .next (s.onEz (fun e =>
    if e.c.isLeaf && e.c.flag EZ.PWR_CTL_EN && !e.c.flag EZ.PWR_CTL_MASTER && !e.c.subHeld 14 then
      (Elzel.onC { e with shelf := { polledAt := e.c.now } } (·.wr EZ.PWR_CTL_TAKEOVER 1)) else e))

/-- POLL_RESUME_REQUEST (R293). -/
def execPollResumeRequest (s : State) : Out :=
  .next (s.onEz (fun e => if e.c.flag EZ.PWR_CTL_TAKEOVER then { e with shelf := { e.shelf with resume := true } } else e))

end Sys2Proof.Machine
end

