-- ==== Sys2Proof/Machine/SeqRows.lean ====
section
/-!
DEFINITION. Sys2Proof/Machine/SeqRows.lean: the instructions of the step programme (R251 to R254), one meaning each.
-/
namespace Sys2Proof.Machine

/-! ### Fetching (R249 to R251, R254) -/

/-- The instruction is one that R251 defines, with its reserved bits zero, an OP that its row allows and no undefined value. -/
def seqValid (w : Word) : Bool :=
  let op := bits w 57 50
  match bits w 63 58 with
  | 1 => bits w 23 0 == 0 && bits w 51 50 != 3
  | 2 => bits w 45 24 == 0
  | 3 => !bit w 32 && (isSignal op || op == OP.SEM_TRY || op == OP.FLAG_MODE || op == OP.FLAG_TRY)
  | 4 => bits w 51 49 == 0
  | 5 => bits w 41 32 == 0 && isSignal op
  | 6 => bits w 22 0 == 0
  | 7 => bits w 54 12 == 0 && decide (bits w 57 55 ≤ 5)
  | 8 => bits w 57 32 == 0
  | 9 => bits w 57 32 == 0
  | 10 => bits w 57 0 == 0
  | 11 => bits w 57 0 == 0
  | _ => false

/-- Context x may issue an instruction (R250, R263, R270, R273, R284). -/
def Garja.mayIssue (g : Garja) (x : Nat) : Bool :=
  let s := g.seq x
  g.ctxState x == 1 && g.sqState x == 1 && !s.busy && s.ended.isNone && !s.waiting && !g.c.applying && !g.c.subHeld 5
    && (match g.fox.squash with | some q => q.ctx != x | none => true)
    && ((g.run x).park.isNone || s.inStep)

/-- The PC lies in the code range of context x (R249). -/
def Garja.pcInRange (g : Garja) (x : Nat) : Bool :=
  !(g.seq x).pcOver && decide (g.c.rd GJ.SQ_CTX_CFG_CODE_LO x ≤ g.pc x) && decide (g.pc x ≤ g.c.rd GJ.SQ_CTX_CFG_CODE_HI x)

/-- The instruction at PC issues when its opcode is `code`: a PC out of range and an instruction that R251 does not define are
faults. -/
def Garja.issue (g : Garja) (x code : Nat) (act : Garja → Word → Garja) : Garja :=
  if !g.mayIssue x then g
  else
    let pc := g.pc x
    let at_ := g.onSeq x (fun s => { s with ipc := pc })
    let w := sparseGet g.prog pc
    if !g.pcInRange x then at_.seqFault x 8
    else if !seqValid w then at_.seqFault x 7
    else if bits w 63 58 != code then g
    else act at_ w

/-- A meaning on Garja alone whose effect may let a waiting context go on. -/
def State.onSeqGj (s : State) (f : Garja → Garja) : State := s.onGj (fun g => (f g).settle)

/-! ### Meanings -/

/-- STEP (R250, R251, R253, R255). -/
def Garja.doStep (g : Garja) (x : Nat) (w : Word) : Garja :=
  let s := g.seq x
  if s.begun && !s.arrived then g.seqFault x 7
  else
    let t := s.nxt
    let m := g.c.rd GJ.SQ_LMASK_GROUPS (bits w 57 52)
    let g := g.onSeq x (fun s =>
      { s with nxt := (t + 1) % 2 ^ 48, begun := true, arrived := false, cls := bits w 51 50, nospec := bit w 49, dl := bits w 48 24,
               mask := m, await_ := true, stepPc := g.pc x, workAt := g.c.now, dlDone := false })
    (((g.onC (·.wr GJ.SQ_CTX_STATE_STEP t x)).nextPc x).setSq x 3).waitState x

def execStep (ctx : BitVec 8) (s : State) : Out :=
  .next (s.onSeqGj (fun g => g.issue ctx.toNat 1 (fun g w => g.doStep ctx.toNat w)))

/-- SLACK (R45). -/
def execSlack (ctx : BitVec 8) (s : State) : Out :=
  .next (s.onSeqGj (fun g => g.issue ctx.toNat 2 (fun g w =>
    let a := bits w 57 52
    let b := bits w 51 46
    ((List.range 64).foldl (fun g n => if a ≤ n && n ≤ b then g.onC (·.wr GJ.RGN_SLACK_SLACK (bits w 23 0) n) else g) g).nextPc ctx.toNat)))

/-- SOP (R252). -/
def execSop (ctx : BitVec 8) (s : State) : Out :=
  .next (s.onSeqGj (fun g => g.issue ctx.toNat 3 (fun g w =>
    (g.nextPc ctx.toNat).seqOp ctx.toNat (bits w 57 50) (bits w 49 33) (bits w 31 0) 0)))

/-- OP of a wait by COND of SWAIT. -/
def waitOp (cond : Nat) : Nat :=
  if cond = 0 then OP.WAIT_GE else if cond = 1 then OP.WAIT_GE_C else if cond = 2 then OP.WAIT_EQ else OP.WAIT_FLAG

/-- SWAIT (R252). -/
def execSwait (ctx : BitVec 8) (s : State) : Out :=
  .next (s.onSeqGj (fun g => g.issue ctx.toNat 4 (fun g w =>
    ((g.nextPc ctx.toNat).onSeq ctx.toNat (fun s => { s with waiting := true })).seqOp ctx.toNat (waitOp (bits w 57 56)) (bits w 48 32)
      (bits w 31 0) (bits w 55 52))))

/-- The SIG of a SIGOUT (R79, R252): JOB is zero from Garja. -/
def sigFlit (op val : Nat) (addr : Word) : Flit := f128 (put 127 124 5 + put 117 110 op + put 95 64 val + addr.toNat)

/-- The current step is speculative. -/
def Garja.inSpec (g : Garja) (x : Nat) : Bool := g.c.foxCtx == some x && g.fox.spec.contains (g.stepOf x)

/-- SIGOUT (R252, R267): it holds at the instruction while the hold buffer, or the port's queue, is full. -/
def Garja.doSig (g : Garja) (x : Nat) (w : Word) : Garja :=
  let f := sigFlit (bits w 57 50) (bits w 31 0) (g.c.get (GJ.SQ_ADDR + 8 * bits w 49 42))
  if g.inSpec x then
    (if g.fox.hold.length < 1024 then (g.onFox (fun v => { v with hold := v.hold ++ [(g.stepOf x, .sig f)] })).nextPc x else g)
  else if (g.seq x).sigs.isEmpty && g.sigRoom (g.c.barPort x) then (g.sendSig x f).nextPc x
  else g

def execSigout (ctx : BitVec 8) (s : State) : Out :=
  .next (s.onSeqGj (fun g => g.issue ctx.toNat 5 (fun g w => g.doSig ctx.toNat w)))

/-- The step snapshot of an ARRIVE (R361), from GJ_HLT_TELEM as last written and the windows of the step; the age in µs saturates,
and is all ones before the first write (DEDUCED). -/
def Garja.snapshot (g : Garja) (x t : Nat) : Garja :=
  let i := t % 64
  let own := (List.range 64).filter (fun n => g.c.rgnEnabled n && (g.region n).ctx == x && (g.region n).step == t && g.c.rgnOpen n)
  let age := match g.telemAt with
    | some a => satU 32 ((g.c.now - a) / 1000)
    | none => 2 ^ 32 - 1
  g.onC (fun c =>
    let c := ((c.wr GJ.HLT_SNAP_W0_CTX x i).wr GJ.HLT_SNAP_W0_VALID 1 i).wr GJ.HLT_SNAP_W0_STEP t i
    let c := ((c.wr GJ.HLT_SNAP_W1_TJ (c.rd GJ.HLT_TELEM_TJ) i).wr GJ.HLT_SNAP_W1_VDD (c.rd GJ.HLT_TELEM_VDD) i).wr
      GJ.HLT_SNAP_W1_STRETCH (satU 32 ((own.map (fun n => (g.region n).stretched)).sum)) i
    ((c.wr GJ.HLT_SNAP_W2_REMAPS (c.rd GJ.HLT_STATUS_REMAPS) i).wr GJ.HLT_SNAP_W2_DLREG
      (own.filter (fun n => c.flag GJ.RGN_LOST_FAULT n)).length i).wr GJ.HLT_SNAP_W2_TELEM_AGE age i)

/-- A context between a LAUNCH and its ARRIVE switches when it issues the ARRIVE, if the set of a barrier move is COMMITTED and its T
has come (R139, R283). -/
def Garja.moveAtArrive (g : Garja) (x : Nat) : Garja :=
  let c := g.c
  match (List.range 4).find? (fun k => c.setState k == 3 && c.flag GJ.STG_S_W0_SCOPED k && c.rd GJ.STG_S_W0_SCOPE k == x
      && decide (c.rd GJ.STG_S_W1_T k ≤ c.gtInt)) with
  | none => g
  | some k =>
    match (c.stageAt k).entries.find? (fun e => stgKind e == 0 && stgOff e == GJ.BDOM + 8 * x && bit e.w1 63) with
    | none => g
    | some e => g.barSwitch x (bits e.w2 63 63) (c.rd GJ.STG_S_W2_S_EFF k)

/-- ARRIVE (R213, R253, R261, R273). -/
def Garja.doArrive (g : Garja) (x : Nat) (w : Word) : Garja :=
  let s := g.seq x
  if !s.begun || s.arrived then g.seqFault x 7
  else
    let t := g.stepOf x
    let again := s.rels.any (fun r => r.step == t) || s.unrel.any (fun e => e.1 == t)
    let g := g.onSeq x (fun s =>
      { s with arrived := true, inStep := false, last := some t, workAt := g.c.now,
               unrel := if again then s.unrel else s.unrel ++ [(t, g.c.now)] })
    let g := (((g.snapshot x t).windowClose x).balArrive x).nextPc x
    if again then g
    else (g.moveAtArrive x).laneStart x t (bits w 57 48) (bits w 47 44) (bit w 43) (bits w 42 23)

def execArriveInstruction (ctx : BitVec 8) (s : State) : Out :=
  .next (s.onSeqGj (fun g => g.issue ctx.toNat 6 (fun g w => g.doArrive ctx.toNat w)))

/-- BR (R254). -/
def Garja.doBr (g : Garja) (x : Nat) (w : Word) : Garja :=
  let s := g.seq x
  let target := bits w 11 0
  let jump := fun (g : Garja) (b : Bool) => if b then g.jumpPc x target else g.nextPc x
  let onP := fun (want : Bool) =>
    match s.last with
    | none => (g.nextPc x).moveSq x 4 |>.onSeq x (fun s => { s with br := some (want, target) })
    | some t =>
      match s.rels.find? (fun r => r.step == t) with
      | some r => jump g (r.p == want)
      | none => ((g.nextPc x).moveSq x 4).onSeq x (fun s => { s with br := some (want, target) })
  match bits w 57 55 with
  | 0 => jump g true
  | 1 => onP true
  | 2 => onP false
  | 3 => jump g s.try_
  | 4 => jump g (!s.try_)
  | _ => jump (g.onSeq x (fun s => { s with lc := s.lc - 1 })) (s.lc - 1 != 0)

def execBr (ctx : BitVec 8) (s : State) : Out :=
  .next (s.onSeqGj (fun g => g.issue ctx.toNat 7 (fun g w => g.doBr ctx.toNat w)))

/-- SETLC. -/
def execSetlc (ctx : BitVec 8) (s : State) : Out :=
  .next (s.onSeqGj (fun g => g.issue ctx.toNat 8 (fun g w =>
    (g.onSeq ctx.toNat (fun s => { s with lc := bits w 31 0 })).nextPc ctx.toNat)))

/-- MARK (R251, R267). -/
def Garja.doMark (g : Garja) (x : Nat) (w : Word) : Garja :=
  let code := bits w 31 0
  let pc := g.pc x
  if g.inSpec x then
    (if g.fox.hold.length < 1024 then (g.onFox (fun v => { v with hold := v.hold ++ [(g.stepOf x, .mark code pc)] })).nextPc x else g)
  else (g.raiseMark x (g.stepOf x) code pc).nextPc x

def execMark (ctx : BitVec 8) (s : State) : Out :=
  .next (s.onSeqGj (fun g => g.issue ctx.toNat 9 (fun g w => g.doMark ctx.toNat w)))

/-- HALT (R251, R298). -/
def execHalt (ctx : BitVec 8) (s : State) : Out :=
  .next (s.onSeqGj (fun g => g.issue ctx.toNat 10 (fun g _ =>
    let x := ctx.toNat
    (((g.nextPc x).setSq x 7).onC (·.raise EV.SQ_HALT (some x) (some (g.stepOf x)) [])).powerEnd x)))

/-- NOP. -/
def execNop (ctx : BitVec 8) (s : State) : Out :=
  .next (s.onSeqGj (fun g => g.issue ctx.toNat 11 (fun g _ => g.nextPc ctx.toNat)))

/-- PROGRAM_DATA_ACCESS (R249): a write of an instruction inside the code range of a context that is not FREE is ignored and
counted; every access advances GJ_SQ_PIDX. -/
def Garja.progAccess (g : Garja) (staged write : Bool) (data : Word) : Garja :=
  let a := g.c.rd GJ.SQ_PIDX_ADDR
  let used := (List.range 256).any (fun x => g.ctxState x != 0
    && decide (g.c.rd GJ.SQ_CTX_CFG_CODE_LO x ≤ a) && decide (a ≤ g.c.rd GJ.SQ_CTX_CFG_CODE_HI x))
  let g := if !write then g
    else if used && !staged then g.onC (·.inc GJ.SQ_STATUS_WR_IGN)
    else { g with prog := sparseSet g.prog a data }
  g.onC (·.wr GJ.SQ_PIDX_ADDR ((a + 1) % 4096))

def execProgramDataAccess (write : Bool) (data : Word) (s : State) : Out := .next (s.onGj (fun g => g.portWake.progAccess false write data))

end Sys2Proof.Machine
end

