-- ==== Sys2Proof/Machine/Contexts.lean ====
section
/-!
DEFINITION. Sys2Proof/Machine/Contexts.lean: contexts of Garja (R192 to R208): commands, drains, clearing, park and resume, and
the functions that can be disabled.
-/
namespace Sys2Proof.Machine

variable {pt : Part}

/-! ### State and events (R196) -/

/-- A change of state, with CTX_STATE: the old and new states, CUR and the requester. -/
def Garja.moveCtx (g : Garja) (x new by_ : Nat) : Garja :=
  let old := g.ctxState x
  let g := g.onC (·.wr GJ.CTX_STATE_STATE new x)
  g.onC (·.raise EV.CTX_STATE (some x) none [i8 old, i8 new, i8 (g.c.rd GJ.CTX_STATE_CUR x), i8 by_])

/-- Opcode of GJ_CTX_CMD. -/
def CtxKind.code : CtxKind → Nat
  | .activate => 1
  | .park => 2
  | .resume => 3
  | .teardown => 4
  | .abandon => 5

/-- A command has completed or been refused (R196): GJ_CTX_CMDSTAT reports the last one written to GJ_CTX_CMD, a packet is
replied to, and a command in a staged entry or a reset reports elsewhere. -/
def Garja.ctxDone (g : Garja) (x : Nat) (k : CtxKind) (via : CtxVia) (status : Nat) : Garja :=
  match via with
  | .reg =>
    if g.c.rd GJ.CTX_CMDSTAT_OP == k.code && g.c.rd GJ.CTX_CMDSTAT_CTX == x then
      g.onC (fun c => (c.wr GJ.CTX_CMDSTAT_STATUS status).wr GJ.CTX_CMDSTAT_DONE 1)
    else g
  | .packet o =>
    if status == ST.OK && (k == .teardown || k == .abandon) then g.onRun x (fun r => { r with freeing := r.freeing ++ [o] })
    else g.onC (·.reply o CM.CTX_CMD status)
  | _ => g

/-- The window of a context, [BASE, BASE + SIZE). -/
def Garja.inWindow (g : Garja) (x phys : Nat) : Bool :=
  decide (g.c.rd GJ.CTX_XLAT_BASE x ≤ phys) && decide (phys < g.c.rd GJ.CTX_XLAT_BASE x + g.c.rd GJ.CTX_XLAT_SIZE x)

/-! ### In-flight work (R198) -/

/-- Taps whose signal for x was presented before the DRAINING edge and is not yet applied. -/
def Garja.inflTaps (g : Garja) (x : Nat) : List Nat :=
  (List.range 16).filter (fun n =>
    match (g.tap n).sig with
    | some s => bits s.addr 24 17 == x && s.old && !s.cut && !(g.tap n).done && !g.so.intake.any (fun o => o.path == .tap n)
    | none => false)

/-- Operations of x queued in the engine. -/
def Garja.inflOps (g : Garja) (x : Nat) : List SoOp :=
  g.so.intake.filter (fun o => o.ctx == x && (match o.path with | .timeout _ => false | _ => true))

/-- Outbound SIG and EVENT packets of x. -/
def Garja.inflOut (g : Garja) (x : Nat) : Nat :=
  (g.c.links.map (fun l => ((l.txq.sig ++ l.txq.evt).filter (fun p => p.ctx == some x)).length)).sum + (g.seq x).sigs.length

/-! ### Draining (R194, R197, R199, R200) -/

/-- Bits of the numbers in a list. -/
def maskOf (l : List Nat) : Nat := (l.map (fun n => 2 ^ n)).sum

/-- A tap's signal for x that has been presented carries a generation retired now (R199). -/
def Tap.retire (t : Tap) (x : Nat) : Tap :=
  { t with sig := t.sig.map (fun s => if bits s.addr 24 17 == x then { s with old := true } else s) }

/-- Context x enters DRAINING (R194, R197). A PARK that is pending ends (R196). -/
def Garja.enterDraining (g : Garja) (x by_ : Nat) : Garja :=
  let wasActive := g.ctxState x == 1
  let cur := g.c.rd GJ.CTX_STATE_CUR x
  let g := g.onC (fun c => ((c.wr GJ.CTX_STATE_HIST (cur * 2 ^ 24 + c.rd GJ.CTX_STATE_HIST x / 256) x).wr GJ.CTX_STATE_CUR
    ((cur + 1) % 256) x).wr GJ.CTX_STATE_FROZEN 0 x)
  let g : Garja := { g with taps := g.taps.map (·.retire x) }
  let g := g.onSo (fun e => { e with intake := e.intake.map (fun o => if o.ctx == x then { o with old := true } else o) })
  let g := g.finishAll (fun w => w.ctx == x) ST.DENIED
  let g := (g.foxDiscard x).windowClose x
  let g := g.onLane (fun l => { l with reads := l.reads.filter (fun r => r.ctx != x) })
  let g := g.onSeq x (fun s => { s with await_ := false, inStep := false, waiting := false, br := none })
  let g := g.onC (·.wr GJ.BDOM_PEND 0 x)
  let park := (g.run x).park
  let g := g.onRun x (fun r => { r with park := none, by_ := by_, drainAt := g.c.now })
  let g : Garja := match park with
    | some k => g.ctxDone x .park k.via ST.ABANDONED
    | none => g
  let g := g.moveCtx x 3 by_
  if wasActive then g.powerEnd x else g

/-- The packets of x leave a transmit queue. -/
def dropCtx (x : Nat) (q : List TxPkt) : List TxPkt := q.filter (fun p => p.ctx != some x)

/-- The drain of x is forced (R200): CTX_FORCED carries the old generation, the three counts and the taps cut off. -/
def Garja.forceDrain (g : Garja) (x by_ : Nat) : Garja :=
  let taps := g.inflTaps x
  let ops := g.inflOps x
  let out := g.inflOut x
  let g : Garja := { g with taps := g.taps.map (fun t =>
    { t with sig := t.sig.map (fun s => if bits s.addr 24 17 == x && !t.done then { s with cut := true } else s) }) }
  let g := ops.foldl (fun g o =>
    match o.path with
    | .door r => g.answer r ST.DENIED
    | .window r => g.answer r ST.DENIED
    | .tap n => g.onTap n (fun t => { t with done := true })
    | _ => g) g
  let g := g.onSo (fun e => { e with intake := e.intake.filter (fun o => o.ctx != x) })
  let g := g.onC (fun c => { c with links := c.links.map (fun l =>
    { l with txq := { l.txq with sig := dropCtx x l.txq.sig, evt := dropCtx x l.txq.evt } }) })
  let g := g.onSeq x (fun s => { s with sigs := [] })
  let g := g.onC (fun c => ((c.inc GJ.SO_STATUS_LOST 0 (ops.length + out)).wr GJ.CTX_STATE_FORCED 1 x).inc GJ.CTX_CNT_FORCED)
  let g := g.onC (fun c => (c.raise EV.CTX_FORCED (some x) none
    [i8 (c.rd GJ.CTX_STATE_HIST x / 2 ^ 24), i16 taps.length, i16 ops.length, i16 out, i16 (maskOf taps)]).latchIrq 5)
  g.moveCtx x 4 by_

/-- DRAIN_COMPLETE: every in-flight count of R198 is zero. -/
def Garja.drainComplete (g : Garja) (x : Nat) : Garja :=
  if g.ctxState x == 3 && (g.inflTaps x).isEmpty && (g.inflOps x).isEmpty && g.inflOut x == 0 then
    (g.onC (·.wr GJ.CTX_STATE_FORCED 0 x)).moveCtx x 4 (g.run x).by_
  else g

/-- DRAIN_FORCED: DRAIN_NS has passed since entry with work still counted. -/
def Garja.drainForced (g : Garja) (x : Nat) : Garja :=
  if g.ctxState x == 3 && decide ((g.run x).drainAt + g.c.rd GJ.CTX_CFG_DRAIN_NS ≤ g.c.now)
      && !((g.inflTaps x).isEmpty && (g.inflOps x).isEmpty && g.inflOut x == 0) then g.forceDrain x (g.run x).by_
  else g

/-- Rows of a context that return to their reset values (R206, R324). -/
def Chip.ctxRowsReset (c : Chip pt) (x : Nat) : Chip pt :=
  [GJ.BDOM + 8 * x, GJ.SO_RLN_CTX + 8 * x, GJ.HOLD_BUDGET + 8 * x, GJ.EVT_CTXRING + 8 * x].foldl
    (fun c o => c.set o (chipReset pt c.prm o)) c

/-- CLEARING_DONE (R206): the context enters FREE. -/
def Garja.clearDone (g : Garja) (x : Nat) : Garja :=
  if g.ctxState x != 4 then g
  else
    let by_ := (g.run x).by_
    let freeing := (g.run x).freeing
    let g := g.onSo (fun e => { e with objs := e.objs.filter (fun o => !g.inWindow x o.1), waiters := e.waiters.filter (fun w => w.ctx != x) })
    let g := g.onLane (fun l => { l with store := l.store.filter (fun e => e.ctx != x) })
    let g := g.onC (fun c => (c.ctxRowsReset x).inc GJ.CTX_CNT_TEAR)
    let g := g.onSeq x (fun _ => {})
    let g := (g.setSq x 0).onRun x (fun _ => { freeAt := some g.c.now })
    let g := g.moveCtx x 0 by_
    let g : Garja := if g.c.anyCtx then g else g.onC (·.wr GJ.CHIP_LOCK 0)
    freeing.foldl (fun g o => g.onC (·.reply o CM.CTX_CMD ST.OK)) g

/-! ### Park and resume (R201 to R203, R273) -/

/-- A PARK that squashed sends the sequencer back to the first squashed step (R273). -/
def Garja.parkBack (g : Garja) (x first : Nat) : Garja :=
  match g.fox.saves.find? (fun v => v.step == first) with
  | none => g
  | some v =>
    let g := g.onSo (fun e => { e with intake := e.intake.map (fun o => if o.ctx == x && o.path == .seq then { o with path := .void } else o) })
    let g := g.onSeq x (fun s =>
      { s with nxt := first, begun := true, arrived := true, last := if first = 0 then none else some (first - 1), lc := v.lc, try_ := v.try_,
               await_ := false, waiting := false, busy := false, br := none, ended := none, inStep := false })
    (g.jumpPc x v.pc).setSq x 1

/-- PARK at its edge (R201, R273). -/
def Garja.applyPark (g : Garja) (x : Nat) (k : CtxCmd) : Garja :=
  let first := if g.c.foxCtx == some x then g.fox.spec.head? else none
  let g := g.squash x
  let g : Garja := match first with
    | some t => g.parkBack x t
    | none => g
  g.onRun x (fun r => { r with park := some k })

/-- The sequencer of x has stopped at a step boundary (R273), and a squash has been restored. -/
def Garja.stopped (g : Garja) (x : Nat) : Bool :=
  let s := g.seq x
  !s.inStep && !s.busy && (match g.fox.squash with | some q => q.ctx != x | none => true)

/-- PARK_COMPLETE (R201, R263, R273). -/
def Garja.parkComplete (g : Garja) (x : Nat) : Garja :=
  match (g.run x).park with
  | none => g
  | some k =>
    if !g.stopped x then g
    else
      let g := g.onSo (fun e => { e with waiters := e.waiters.map (fun w => if w.ctx == x then { w with parked := true } else w) })
      let sq := g.sqState x
      let g : Garja := if sq == 0 then g else (g.onSeq x (fun s => { s with saved := sq })).setSq x 5
      let g := (g.onRun x (fun r => { r with park := none })).onC (·.wr GJ.CTX_STATE_FROZEN (b2n k.flag) x)
      let g := (g.windowClose x).moveCtx x 2 k.by_
      (g.ctxDone x .park k.via ST.OK).powerEnd x

/-- RESUME (R203, R263, R273). -/
def Garja.applyResume (g : Garja) (x : Nat) (k : CtxCmd) : Garja :=
  let mine := g.so.waiters.filter (fun w => w.ctx == x && w.parked)
  let g : Garja := if k.flag then
      let g := g.onSo (fun e => { e with waiters := e.waiters.map (fun w => if w.ctx == x then { w with parked := false } else w) })
      (sortNat (mine.map (·.phys))).foldl (fun g p => g.endPass { phys := p }) g
    else g.finishAll (fun w => w.ctx == x && w.parked) ST.ABANDONED
  let g := g.onC (·.wr GJ.CTX_STATE_FROZEN 0 x)
  let g : Garja := if g.sqState x == 5 then g.setSq x (g.seq x).saved else g
  let g := g.moveCtx x 1 k.by_
  let g : Garja := match (g.seq x).last with
    | some t => match (g.seq x).rels.find? (fun r => r.step == t) with
      | some r => g.takeBr x r.p
      | none => g
    | none => g
  let g : Garja := if k.flag then mine.foldl (fun g w => g.timeoutDue w.slot) g else g
  g.ctxDone x .resume k.via ST.OK

/-! ### Commands (R193, R195, R196, R204) -/

/-- Windows of two contexts overlap. -/
def Garja.overlaps (g : Garja) (x y : Nat) : Bool :=
  let b := fun z => g.c.rd GJ.CTX_XLAT_BASE z
  let n := fun z => g.c.rd GJ.CTX_XLAT_SIZE z
  decide (b x < b y + n y) && decide (b y < b x + n x)

/-- The translation entry of x admits ACTIVATE (R193). -/
def Garja.windowOk (g : Garja) (x : Nat) : Bool :=
  let n := g.c.rd GJ.CTX_XLAT_SIZE x
  n != 0 && decide (g.c.rd GJ.CTX_XLAT_BASE x + n ≤ g.objCount)
    && !(List.range 256).any (fun y => y != x && g.ctxState y != 0 && g.overlaps x y)

/-- A generation is in the history of x (R195). -/
def Garja.inHist (g : Garja) (x gen : Nat) : Bool :=
  let h := g.c.rd GJ.CTX_STATE_HIST x
  (List.range 4).any (fun i => natBits h (8 * i + 7) (8 * i) == gen)

/-- The status of ACTIVATE in FREE (R193, R195, R196). -/
def Garja.activateStatus (g : Garja) (x gen : Nat) (useGen : Bool) : Nat :=
  if !g.windowOk x || (useGen && g.inHist x gen) then ST.BADPARAM
  else match (g.run x).freeAt with
    | some t => if g.c.now < t + g.c.rd GJ.CTX_CFG_REUSE_NS then ST.BUSY else ST.OK
    | none => ST.OK

/-- ACTIVATE applied (R195, R196). -/
def Garja.applyActivate (g : Garja) (x by_ gen : Nat) (useGen : Bool) (via : CtxVia) : Garja :=
  let g := g.onC (fun c => (c.wr GJ.CTX_STATE_OWNER by_ x).wr GJ.CHIP_LOCK 1)
  let g : Garja := if useGen then g.onC (·.wr GJ.CTX_STATE_CUR gen x) else g
  (g.moveCtx x 1 by_).ctxDone x .activate via ST.OK

/-- Status of a command other than ACTIVATE at its receipt (R196, R204). -/
def Garja.ctxStatus (g : Garja) (x by_ : Nat) (k : CtxKind) : Nat :=
  let st := g.ctxState x
  let r := g.run x
  if by_ != g.c.rd GJ.CTX_STATE_OWNER x && by_ != 8 && by_ != 9 then ST.DENIED
  else if r.due.isSome || (r.park.isSome && k != .teardown && k != .abandon) then ST.BUSY
  else match k with
    | .activate => if st == 0 then ST.OK else ST.DENIED
    | .park => if st == 1 then ST.OK else ST.DENIED
    | .resume => if st == 2 then ST.OK else ST.DENIED
    | .teardown => if st == 1 || st == 2 then ST.OK else ST.DENIED
    | .abandon => if st == 1 || st == 2 || st == 3 then ST.OK else ST.DENIED

/-- A grant pass runs on an object of the context (R196). -/
def Garja.passOn (g : Garja) (x : Nat) : Bool := g.so.passes.any (fun p => g.inWindow x p.phys)

/-- A command applied at its edge (R196). -/
def Garja.applyCtx (g : Garja) (x : Nat) (k : CtxCmd) : Garja :=
  match k.kind with
  | .activate => g
  | .park => g.applyPark x k
  | .resume => g.applyResume x k
  | .teardown => (g.enterDraining x k.by_).ctxDone x .teardown k.via ST.OK
  | .abandon =>
    let g := g.onC (·.inc GJ.CTX_CNT_ABANDON)
    let g : Garja := if g.ctxState x == 3 then g.forceDrain x k.by_
      else (g.finishAll (fun w => w.ctx == x) ST.ABANDONED).enterDraining x k.by_
    g.ctxDone x .abandon k.via ST.OK

/-- A command accepted: it waits while a grant pass runs on an object of its context. -/
def Garja.acceptCtx (g : Garja) (x : Nat) (k : CtxCmd) : Garja :=
  if g.passOn x then g.onRun x (fun r => { r with due := some k }) else (g.applyCtx x k).intake

/-- Commands whose grant passes have ended are applied. -/
def Garja.applyDue (g : Garja) : Garja :=
  (List.range g.ctxs.length).foldl (fun g x =>
    match (g.run x).due with
    | none => g
    | some k => if g.passOn x then g else ((g.onRun x (fun r => { r with due := none })).applyCtx x k).intake) g

/-- A context command from any path: the status of a refusal, or OK. `staged`: it comes from a stage set, and locks do not
apply to it (R282). -/
def Garja.ctxCommand (g : Garja) (x by_ : Nat) (k : CtxKind) (via : CtxVia) (flag : Bool) (gen : Nat := 0) : Garja :=
  let staged := via == .stage
  let locked := !staged && g.c.ctxLocked x
  let st := if locked then ST.DENIED
    else if k == .activate then (if g.ctxState x != 0 then (if (g.run x).due.isSome || (g.run x).park.isSome then ST.BUSY else ST.DENIED)
      else g.activateStatus x gen flag)
    else g.ctxStatus x by_ k
  let g : Garja := if locked then g.onC Chip.stgIgn else g
  if st != ST.OK then g.ctxDone x k via st
  else if k == .activate then g.applyActivate x by_ gen flag via
  else g.acceptCtx x { kind := k, by_ := by_, via := via, flag := flag }

/-- A word of GJ_CTX_CMD: the kind, whether it is well formed (its status otherwise), and its flag. -/
def ctxWord (w : Word) : Except Nat (CtxKind × Bool) :=
  let bad := bits w 40 0 != 0
  let mk := fun (k : CtxKind) (f : Bool) => if bad then .error ST.BADPARAM else .ok (k, f)
  match bits w 63 60 with
  | 1 => mk .activate (bit w 43)
  | 2 => mk .park (bit w 42)
  | 3 => mk .resume (bit w 41)
  | 4 => mk .teardown false
  | 5 => mk .abandon false
  | _ => .error ST.BADOP

/-- A write of GJ_CTX_CMD (R196): GJ_CTX_CMDSTAT reports it. -/
def Garja.ctxCmdWrite (g : Garja) (by_ : Nat) (w : Word) : Garja :=
  let x := bits w 59 52
  let g := g.onC (·.set GJ.CTX_CMDSTAT (w64 (put 47 44 (bits w 63 60) + put 43 36 x)))
  match ctxWord w with
  | .error st => g.onC (fun c => (c.wr GJ.CTX_CMDSTAT_STATUS st).wr GJ.CTX_CMDSTAT_DONE 1)
  | .ok (k, f) => g.ctxCommand x by_ k .reg f (bits w 51 44)

/-- A CTX_CMD packet (R196, R347). -/
def Garja.ctxCmdPacket (g : Garja) (by_ : Nat) (o : Order) (w : Word) : Garja :=
  match ctxWord w with
  | .error st => g.onC (·.reply o CM.CTX_CMD st)
  | .ok (k, f) => g.ctxCommand (bits w 59 52) by_ k (.packet o) f (bits w 51 44)

/-- A context command of a staged entry: its status (R278). -/
def Garja.ctxCmdStage (g : Garja) (by_ : Nat) (w : Word) : Garja :=
  match ctxWord w with
  | .error _ => g
  | .ok (k, f) => g.ctxCommand (bits w 59 52) by_ k .stage f (bits w 51 44)

/-- A CONTEXT reset of x (R205, R378): in FREE and FENCED there is nothing to end. -/
def Garja.ctxReset (g : Garja) (x by_ : Nat) : Garja :=
  let st := g.ctxState x
  if st == 1 || st == 2 || st == 3 then
    let k : CtxCmd := { kind := .abandon, by_ := by_, via := .reset }
    match (g.run x).due with
    | some old => (g.onRun x (fun r => { r with due := some k })).ctxDone x old.kind old.via ST.ABANDONED
    | none => g.acceptCtx x k
  else g

/-- A command of GJ_CTX_CMD by its fields, from a requester of the target port (R196, R422). -/
def Garja.ctxRow (g : Garja) (r : Requester) (w : Nat) : Garja :=
  let g := g.portWake
  match r with
  | .tile _ => g.answer r ST.DENIED
  | .host => g.answer r ST.DENIED
  | .proc p => if p.toNat ≥ g.c.prm.nProc then g.answer r ST.DENIED else (g.ctxCmdWrite p.toNat (w64 w)).settle
  | .elzel => (g.ctxCmdWrite 8 (w64 w)).settle
  | .debug => (g.ctxCmdWrite 9 (w64 w)).settle

/-! ### Functions (R208) -/

/-- Index of function fn in `fnAt`: 0 to 3, or 4 + n for tap n; none for a number left for further functions. -/
def fnIndex (fn : Nat) : Option Nat := if fn < 4 then some fn else if fn ≥ 16 ∧ fn < 32 then some (fn - 12) else none

/-- The code of a function in GJ_FN_STATUS: 0 ON or OFF, 1 DRAINING, 2 forced OFF. -/
def fnShift (i : Nat) : Nat := if i < 4 then 62 - 2 * i else 24 + 2 * (i - 4)
def Garja.fnCode (g : Garja) (i : Nat) : Nat := bits (g.c.get GJ.FN_STATUS) (fnShift i + 1) (fnShift i)
def Garja.setFn (g : Garja) (i v : Nat) : Garja :=
  g.onC (fun c => c.set GJ.FN_STATUS (setBits (c.get GJ.FN_STATUS) (fnShift i + 1) (fnShift i) v))

/-- The enable of a function. -/
def Garja.fnEnabled (g : Garja) (i : Nat) : Bool :=
  if i < 4 then bit (g.c.get GJ.FN_CTL) (63 - i) else (g.c.rd GJ.SO_TAP_EN).testBit (i - 4)
def Garja.setEnable (g : Garja) (i : Nat) (v : Bool) : Garja :=
  if i < 4 then g.onC (fun c => c.set GJ.FN_CTL (setBits (c.get GJ.FN_CTL) (63 - i) (63 - i) (b2n v)))
  else g.onC (fun c => c.set GJ.SO_TAP (setBits (c.get GJ.SO_TAP) (i - 4) (i - 4) (b2n v)))

/-- Work taken from a function and not yet done: operations queued from its path, and a tap's signal: (CTX, OBJ). -/
def Garja.fnWork (g : Garja) (i : Nat) : List (Nat × Nat) :=
  let ops := g.so.intake.filter (fun o =>
    match o.path with
    | .door _ => i == 0
    | .window _ => i == 1
    | .sig p => i == 2 + p
    | .tap n => i == 4 + n
    | _ => false)
  let tap := if i < 4 then [] else
    match (g.tap (i - 4)).sig with
    | some s => if (g.tap (i - 4)).done || !ops.isEmpty then [] else [(bits s.addr 24 17, bits s.addr 16 0)]
    | none => []
  ops.map (fun o => (o.ctx, o.obj)) ++ tap

/-- The enable of function i cleared: it drains; nothing happens to one that is off or draining already. -/
def Garja.fnDisable (g : Garja) (i : Nat) : Garja :=
  if g.fnCode i == 1 then g.setEnable i false
  else if g.fnEnabled i then
    { ((g.setEnable i false).setFn i 1) with fnAt := upd g.fnAt i (fun _ => g.c.now) }
  else g

/-- The enable of function i set: while it drains, it takes effect only once the function is OFF. -/
def Garja.fnEnable (g : Garja) (i : Nat) : Garja :=
  if g.fnCode i == 1 then g.setEnable i true else (g.setEnable i true).setFn i 0

/-- The work of a draining function is done. -/
def Garja.fnDrained (g : Garja) (i : Nat) : Garja := if g.fnCode i == 1 && (g.fnWork i).isEmpty then g.setFn i 0 else g

/-- DRAIN_NS has passed: the function is forced OFF and its work discarded. -/
def Garja.fnForced (g : Garja) (fn i : Nat) : Garja :=
  let work := g.fnWork i
  if g.fnCode i == 1 && decide ((g.fnAt.getD i 0) + g.c.rd GJ.FN_CTL_DRAIN_NS ≤ g.c.now) && !work.isEmpty then
    let mine := fun (o : SoOp) => match o.path with
      | .door _ => i == 0
      | .window _ => i == 1
      | .sig p => i == 2 + p
      | .tap n => i == 4 + n
      | _ => false
    let ops := g.so.intake.filter mine
    let g := ops.foldl (fun g o =>
      match o.path with
      | .door r => g.answer r ST.DENIED
      | .window r => g.answer r ST.DENIED
      | .tap n => g.onTap n (fun t => { t with done := true })
      | _ => g) g
    let g := g.onSo (fun e => { e with intake := e.intake.filter (fun o => !mine o) })
    let g : Garja := if i < 4 || !ops.isEmpty then g else g.onTap (i - 4) (fun t => { t with sig := t.sig.map (fun s => { s with cut := true }) })
    let g := g.setFn i (if g.fnEnabled i then 0 else 2)
    g.onC (fun c => ((((c.inc GJ.SO_STATUS_LOST 0 ops.length).inc GJ.FN_STATUS_FORCED).raise EV.FN_FORCED none none
      ([i8 fn, i16 work.length] ++ (work.take 8).map (fun e => i32 (put 31 24 e.1 + put 16 0 e.2)))).latchIrq 5))
  else g

end Sys2Proof.Machine
end

