-- ==== Sys2Proof/Machine/SyncRows.lean ====
section
/-!
DEFINITION. Sys2Proof/Machine/SyncRows.lean: the commands on sync objects, taps and contexts (R167 to R208, R430, R431): each is
one operation of Objects.lean or Contexts.lean, after which what waits for it goes on.
-/
namespace Sys2Proof.Machine

variable {pt : Part}

/-- After a command on objects or contexts: commands whose passes have ended are applied, and every sequencer goes on. -/
def State.onSync (s : State) (f : Garja → Garja) : State := s.onGj (fun g => ((f g).applyDue).settle)

/-! ### Doorbells (R167, R168) -/

def execSemAdd (r : Requester) (ctx : BitVec 8) (data : Word) (s : State) : Out :=
  .next (s.onSync (·.doorbell r ctx.toNat OP.SEM_ADD data))
def execSemSub (r : Requester) (ctx : BitVec 8) (data : Word) (s : State) : Out :=
  .next (s.onSync (·.doorbell r ctx.toNat OP.SEM_SUB data))
def execSemSet (r : Requester) (ctx : BitVec 8) (data : Word) (s : State) : Out :=
  .next (s.onSync (·.doorbell r ctx.toNat OP.SEM_SET data))
def execSemTry (r : Requester) (ctx : BitVec 8) (data : Word) (s : State) : Out :=
  .next (s.onSync (·.doorbell r ctx.toNat OP.SEM_TRY data))
def execFlagSet (r : Requester) (ctx : BitVec 8) (data : Word) (s : State) : Out :=
  .next (s.onSync (·.doorbell r ctx.toNat OP.FLAG_SET data))
def execFlagClr (r : Requester) (ctx : BitVec 8) (data : Word) (s : State) : Out :=
  .next (s.onSync (·.doorbell r ctx.toNat OP.FLAG_CLR data))
def execFlagMode (r : Requester) (ctx : BitVec 8) (data : Word) (s : State) : Out :=
  .next (s.onSync (·.doorbell r ctx.toNat OP.FLAG_MODE data))
def execFlagTry (r : Requester) (ctx : BitVec 8) (data : Word) (s : State) : Out :=
  .next (s.onSync (·.doorbell r ctx.toNat OP.FLAG_TRY data))
def execWaitGe (r : Requester) (ctx : BitVec 8) (data : Word) (s : State) : Out :=
  .next (s.onSync (·.doorbell r ctx.toNat OP.WAIT_GE data))
def execWaitGeC (r : Requester) (ctx : BitVec 8) (data : Word) (s : State) : Out :=
  .next (s.onSync (·.doorbell r ctx.toNat OP.WAIT_GE_C data))
def execWaitEq (r : Requester) (ctx : BitVec 8) (data : Word) (s : State) : Out :=
  .next (s.onSync (·.doorbell r ctx.toNat OP.WAIT_EQ data))
def execWaitFlag (r : Requester) (ctx : BitVec 8) (data : Word) (s : State) : Out :=
  .next (s.onSync (·.doorbell r ctx.toNat OP.WAIT_FLAG data))

/-! ### The engine -/

/-- Undo-log entries that the grants of a pass need (R268). -/
def Garja.passNeed (g : Garja) (phys : Nat) : Nat :=
  ((g.passPlan phys).1.map (fun x => g.undoNeed phys x.1.step x.2)).sum

/-- GRANT_PASS (R173): the pass on a physical object ends; while the undo log has no room for its entries it goes on (R268). -/
def Garja.grantPass (g : Garja) (phys : Nat) : Garja :=
  match g.so.passes.find? (fun p => p.phys == phys) with
  | none => g
  | some p => if g.fox.undo.length + g.passNeed phys > 4096 then g else (g.endPass p).intake

def execGrantPass (obj : BitVec 17) (s : State) : Out := .next (s.onSync (·.grantPass obj.toNat))

/-- RESULT_WORD_READ (R176): a tile reads the doorbell window at OP 0. -/
def execResultWordRead (tile : BitVec 12) (_ctx : BitVec 8) (s : State) : Out := .next (s.onGj (fun g => (g.portWake).resultRead tile.toNat))

/-- SO_TIMEOUT (R181, R182): the deadline of a slot comes due. -/
def execSoTimeout (slot : BitVec 13) (s : State) : Out := .next (s.onSync (·.timeoutDue slot.toNat))

/-- OBJECT_WINDOW_WRITE (R189). -/
def execObjectWindowWrite (r : Requester) (ctx : BitVec 8) (obj : BitVec 17) (data : Word) (s : State) : Out :=
  .next (s.onSync (·.windowWrite r ctx.toNat obj.toNat data))

/-- WAITER_SLOT_CAPTURE (R190): a write of GJ_SO_WIDX. -/
def execWaiterSlotCapture (slot : BitVec 13) (s : State) : Out := .next (s.onGj (·.capture slot.toNat))

/-! ### Taps and SIG (R184, R185, R430, R431) -/

/-- TAP_PRESENT (R430). -/
def execTapPresent (tap : BitVec 4) (addr : Word) (op : BitVec 8) (val : BitVec 32) (s : State) : Out :=
  .next (s.onGj (·.tapPresent tap.toNat addr op.toNat val.toNat))

/-- TAP_WACK (R50, R431). -/
def execTapWack (tap : BitVec 4) (err : Bool) (s : State) : Out := .next (s.onSync (·.tapWack tap.toNat err))

/-- TAP_VALID_LOW (R430). -/
def execTapValidLow (tap : BitVec 4) (s : State) : Out := .next (s.onGj (·.tapLow tap.toNat))

/-- TAP_VALID_EARLY_FALL (R431). -/
def execTapValidEarlyFall (tap : BitVec 4) (s : State) : Out := .next (s.onGj (·.tapEarly tap.toNat))

/-- SIG (R24, R79, R185, R208): a signal by link, committed at once (R266). -/
def Garja.sigIn (g : Garja) (p : Nat) (f : Flit) : Garja :=
  let g := g.onC (·.take p .sig [f])
  let addr := w64 (bits f 63 0)
  let op := bits f 117 110
  let g := if g.ctxState (bits addr 24 17) == 2 then g.onC (·.wake 2) else g
  if !g.c.fnOn (2 + p) then g.soDrop ST.NOCTX
  else
    let st := g.signalCheck addr op
    if st == ST.OK then g.submit (g.signalOp (.sig p) addr op (bits f 95 64)) else g.soDrop st

def execSig (p : BitVec 7) (flit : Flit) (s : State) : Out := .next (s.onSync (fun g => if p.toNat < 2 then g.sigIn p.toNat flit else g))

/-! ### Contexts -/

/-- ACTIVATE (R193, R195, R196). -/
def execActivate (r : Requester) (ctx gen : BitVec 8) (useGen : Bool) (s : State) : Out :=
  .next (s.onSync (·.ctxRow r (put 63 60 1 + put 59 52 ctx.toNat + put 51 44 gen.toNat + put 43 43 (b2n useGen))))

/-- PARK (R201). -/
def execPark (r : Requester) (ctx : BitVec 8) (freeze : Bool) (s : State) : Out :=
  .next (s.onSync (·.ctxRow r (put 63 60 2 + put 59 52 ctx.toNat + put 42 42 (b2n freeze))))

/-- PARK_COMPLETE (R201). -/
def execParkComplete (ctx : BitVec 8) (s : State) : Out := .next (s.onSync (·.parkComplete ctx.toNat))

/-- RESUME (R203). -/
def execResume (r : Requester) (ctx : BitVec 8) (keep : Bool) (s : State) : Out :=
  .next (s.onSync (·.ctxRow r (put 63 60 3 + put 59 52 ctx.toNat + put 41 41 (b2n keep))))

/-- TEARDOWN (R197). -/
def execTeardown (r : Requester) (ctx : BitVec 8) (s : State) : Out :=
  .next (s.onSync (·.ctxRow r (put 63 60 4 + put 59 52 ctx.toNat)))

/-- ABANDON (R205). -/
def execAbandon (r : Requester) (ctx : BitVec 8) (s : State) : Out :=
  .next (s.onSync (·.ctxRow r (put 63 60 5 + put 59 52 ctx.toNat)))

/-- DRAIN_COMPLETE (R198). -/
def execDrainComplete (ctx : BitVec 8) (s : State) : Out := .next (s.onSync (·.drainComplete ctx.toNat))

/-- DRAIN_FORCED (R200). -/
def execDrainForced (ctx : BitVec 8) (s : State) : Out := .next (s.onSync (·.drainForced ctx.toNat))

/-- CLEARING_DONE (R206). -/
def execClearingDone (ctx : BitVec 8) (s : State) : Out := .next (s.onSync (·.clearDone ctx.toNat))

/-- A change of function fn, where that number names one. -/
def State.onFn (s : State) (fn : Nat) (f : Garja → Nat → Garja) : State :=
  s.onGj (fun g =>
    match fnIndex fn with
    | some i => f g i
    | none => g)

/-- FUNCTION_DISABLE (R208). -/
def execFunctionDisable (fn : BitVec 5) (s : State) : Out := .next (s.onFn fn.toNat Garja.fnDisable)

/-- FUNCTION_DRAINED (R208). -/
def execFunctionDrained (fn : BitVec 5) (s : State) : Out := .next (s.onFn fn.toNat Garja.fnDrained)

/-- FUNCTION_FORCED_OFF (R208). -/
def execFunctionForcedOff (fn : BitVec 5) (s : State) : Out := .next (s.onFn fn.toNat (fun g i => g.fnForced fn.toNat i))

/-- START (R250, R262): a command that names a locked context is refused (R282). -/
def Garja.startCmd (g : Garja) (o : Order) (x pc s1 : Nat) : Garja :=
  if g.c.ctxLocked x then (g.onC Chip.stgIgn).onC (·.reply o CM.START ST.DENIED)
  else
    let (g, st) := g.startCtx x pc s1
    g.onC (·.reply o CM.START st)

/-! ### Sending a block -/

/-- A block sent on port p, unless its transmitter is held in electrical idle (R313). -/
def Chip.sendBlock (c : Chip pt) (p : Nat) : Chip pt :=
  if c.rd (PT.SL_STATUS_STATE pt) p == 0 || decide (c.now < (c.link p).idleUntil) then c
  else
    let (l, resent) := (c.link p).transmit (c.up p) c.now (c.calFlit p) (if pt == .garja then some c.gtInt else none)
    let c := c.onLink p (fun _ => l)
    if resent then c.inc (PT.SL_ERR_RESENT pt) p else c

/-- BLOCK_TRANSMIT (R82, R84, R87): one block of a port that is enabled; SIG of the sequencer that wait take the places freed
(R252). -/
def execBlockTransmit (u : Part) (p : BitVec 7) (s : State) : Out :=
  .next ((s.onPort u p.toNat (·.sendBlock p.toNat)).onGj Garja.drainSigs)

end Sys2Proof.Machine
end

