-- ==== Sys2Proof/Machine/RegWrite.lean ====
section
/-!
DEFINITION. Sys2Proof/Machine/RegWrite.lean: what a write of a register does, direct or by a staged entry (R6, R278), over the whole
register maps of R407 and R408. `staged` carries S_EFF of the set that writes; a direct write has none.
-/
namespace Sys2Proof.Machine

variable {pt : Part}

/-- The index of the register at an offset within a row. -/
def rowIdx (base stride count off : Nat) : Option Nat :=
  if rowHas base stride count off then some (if stride = 0 then 0 else (off - base) / stride) else none

/-- The index of the register at an offset in the row of field f. -/
def Fld.idx (f : Fld) (count off : Nat) : Option Nat := rowIdx f.off f.stride count off

/-- A write leaves a field hi..lo as it is unless it changes it: then it is not taken, and counted by f. The rest of the mask is
left. -/
def Chip.keepField (c : Chip pt) (off hi lo : Nat) (mask data : Word) (count : Chip pt → Chip pt) : Chip pt × Word :=
  let new := mergeBits (c.get off) data mask
  let c := if bits new hi lo == bits (c.get off) hi lo then c else count c
  (c, setBits mask hi lo 0)

/-! ### Registers that both parts have -/

/-- TB_CTL (R32, R35, R47). -/
def Chip.tbCtlPut (c : Chip pt) (staged : Bool) (mask new : Word) : Chip pt :=
  let c := (c.wr (PT.TB_CTL_SERVO_EN pt) (bits new 63 63)).wr (PT.TB_CTL_NO_STEP pt) (bits new 62 62)
  let c := match c.part with
    | .garja => if bit mask 61 then (if staged then c.setClkfix (bit new 61) else c.writeClkfix (bit new 61)) else c
    | .elzel => c
  if bit new 60 == c.flag (PT.TB_CTL_FORCE_HOLD pt) then c else c.writeForceHold (bit new 60)

/-- SL_CTL of port p (R89, R90). -/
def Chip.slCtlPut (c : Chip pt) (p off : Nat) (mask data : Word) : Chip pt :=
  let c := c.storeRw off (mask &&& w64 (2 ^ 63 - 1)) data
  let c := if bit mask 63 && (bit data 63 != c.flag (PT.SL_CTL_EN pt) p || bit data 63) then c.portEn p (bit data 63) else c
  let c := if bit (data &&& mask) 62 then c.linkRetrain p else c
  c.refreshLevel p

/-- SL_LAT of port p: RX_LAT is the DELAY of the port's channel (R96). -/
def Chip.slLatPut (c : Chip pt) (p off : Nat) (mask data : Word) : Chip pt :=
  let c := c.storeRw off mask data
  c.wr (PT.TDC_CTL_DELAY pt) (c.rd (PT.SL_LAT_RX_LAT pt) p) p

/-- A ring's CFG word (R323, R334): LOG2N is kept while the ring is enabled. -/
def Chip.ringCfgPut (c : Chip pt) (r off : Nat) (mask data : Word) : Chip pt :=
  let was := c.ringOn r
  let (c, m) := if was then c.keepField off 61 57 mask data (·.inc (PT.EVT_STATUS_NOROUTE pt)) else (c, mask)
  let c := c.storeRw off (m &&& w64 (2 ^ 63 - 1)) data
  let c := if !bit m 63 then c else if bit data 63 then c.ringEnable r else c.wr (PT.EVT_RING_CFG_EN pt) 0 r
  c.armCheck r

/-- BASE or PSHADOW of a ring: kept while the ring is enabled, and a write that would change it is counted. -/
def Chip.ringWordPut (c : Chip pt) (r off : Nat) (mask data : Word) : Chip pt :=
  if c.ringOn r then (c.keepField off 63 0 mask data (·.inc (PT.EVT_STATUS_NOROUTE pt))).1 else c.storeRw off mask data

/-- Queue writes ignored under R342 are counted by Garja; Elzel has no counter for them. -/
def Chip.queueIgn (c : Chip pt) : Chip pt := match c.part with | .garja => c.inc GJ.CMD_STATUS_WR_IGN | .elzel => c

/-- An armed completion queue that is enabled and not empty sends its vector once (R343). -/
def Chip.cqArm (c : Chip pt) (q : Nat) : Chip pt :=
  match c.part with
  | .garja => c
  | .elzel =>
    if c.flag EZ.QP_CFG_ARM q && c.flag EZ.QP_CFG_EN q && c.rd EZ.QP_CQ_IDX_PROD q != c.rd EZ.QP_CQ_IDX_CONS q then
      (c.wr EZ.QP_CFG_ARM 0 q).msixSend q
    else c

/-- EN of a queue pair from 0 to 1: HEAD, TAIL, PROD and CONS are set to 0 (R342). -/
def Chip.queueEnable (c : Chip pt) (q : Nat) : Chip pt :=
  if c.flag (PT.QP_CFG_EN pt) q then c
  else
    let c := c.wr (PT.QP_CFG_EN pt) 1 q
    (((c.wr (PT.QP_SQ_IDX_HEAD pt) 0 q).wr (PT.QP_SQ_IDX_TAIL pt) 0 q).wr (PT.QP_CQ_IDX_PROD pt) 0 q).wr
      (PT.QP_CQ_IDX_CONS pt) 0 q

/-- CFG of a queue pair (R342). -/
def Chip.queueCfgPut (c : Chip pt) (q off : Nat) (mask data : Word) : Chip pt :=
  let (c, m) := if c.flag (PT.QP_CFG_EN pt) q then c.keepField off 61 54 mask data Chip.queueIgn else (c, mask)
  let c := c.storeRw off (m &&& w64 (2 ^ 63 - 1)) data
  let c := if !bit m 63 then c else if bit data 63 then c.queueEnable q else c.wr (PT.QP_CFG_EN pt) 0 q
  c.cqArm q

/-- A base or PSHADOW of a queue pair (R342). -/
def Chip.queueWordPut (c : Chip pt) (q off : Nat) (mask data : Word) : Chip pt :=
  if c.flag (PT.QP_CFG_EN pt) q then (c.keepField off 63 0 mask data Chip.queueIgn).1 else c.storeRw off mask data

def Chip.nQueues (c : Chip pt) : Nat := match c.part with | .garja => 8 | .elzel => 1024

/-- The registers that both parts have and whose write does more than store. -/
def Chip.putShared (c : Chip pt) (staged : Bool) (off : Nat) (mask data : Word) : Option (Chip pt) :=
  let u := pt
  let new := mergeBits (c.get off) data mask
  let act := data &&& mask
  if off == (PT.TB_CTL_SERVO_EN u).off then some (c.tbCtlPut staged mask new)
  else if off == (PT.TB_INCR_INT u).off then some (c.writeIncr new.toNat)
  else if off == (PT.TB_STEER_PEND u).off then some (if bits mask 63 48 == 0 then c.storeRw off mask data else c.writeSteer new)
  else if off == (PT.TB_ADJ_DELTA u).off then some (c.tbAdj act.toInt)
  else if off == (PT.TDC_CAL_LOG2N u).off then
    some (let c := c.storeRw off mask data; if bit act 63 then c.calForce else c)
  else if off == (PT.IRQ_PEND_PEND u).off then some (c.irqClear (bits act 15 0))
  else
    ((PT.TDC_CTL_EN u).idx c.nCh off).map (fun n => c.tdcCtlWrite n new)
    <|> ((PT.TDC_SS_ARM u).idx c.nCh off).map (fun n => c.ssWrite n new)
    <|> ((PT.TDC_FREQ_ARM u).idx c.nCh off).map (fun n => c.freqWrite n new)
    <|> ((PT.SL_CTL_EN u).idx c.nPorts off).map (fun p => c.slCtlPut p off mask data)
    <|> ((PT.SL_LAT_TX_LAT u).idx c.nPorts off).map (fun p => c.slLatPut p off mask data)
    <|> ((PT.EVT_RING_BASE_BASE u).idx c.nRings off).map (fun r => c.ringWordPut r off mask data)
    <|> ((PT.EVT_RING_PSHADOW_PSHADOW u).idx c.nRings off).map (fun r => c.ringWordPut r off mask data)
    <|> ((PT.EVT_RING_CFG_EN u).idx c.nRings off).map (fun r => c.ringCfgPut r off mask data)
    <|> ((PT.QP_SQ_BASE_BASE u).idx c.nQueues off).map (fun q => c.queueWordPut q off mask data)
    <|> ((PT.QP_CQ_BASE_BASE u).idx c.nQueues off).map (fun q => c.queueWordPut q off mask data)
    <|> ((PT.QP_PSHADOW_PSHADOW u).idx c.nQueues off).map (fun q => c.queueWordPut q off mask data)
    <|> ((PT.QP_CFG_EN u).idx c.nQueues off).map (fun q => c.queueCfgPut q off mask data)

/-! ### Garja -/

/-- A register write that is not taken, and counted by f. -/
def Garja.ign (g : Garja) (f : Fld) : Garja := g.onC (·.inc f)

/-- A realignment entry lies within BASE to BASE + COUNT − 1 of a context that is ACTIVE (R188). -/
def Garja.rlnInUse (g : Garja) (e : Nat) : Bool :=
  (List.range 256).any (fun x => g.ctxState x == 1
    && decide (g.c.rd GJ.SO_RLN_CTX_BASE x ≤ e) && decide (e < g.c.rd GJ.SO_RLN_CTX_BASE x + g.c.rd GJ.SO_RLN_CTX_COUNT x))

/-- Function enables written (R208). -/
def Garja.fnPut (g : Garja) (i : Nat) (m v : Bool) : Garja :=
  if !m || g.fnEnabled i == v then g else if v then g.fnEnable i else g.fnDisable i

/-- GJ_FN_CTL. -/
def Garja.fnCtlPut (g : Garja) (mask data : Word) : Garja :=
  let g := g.onC (·.storeRw GJ.FN_CTL (mask &&& w64 (2 ^ 60 - 1)) data)
  (List.range 4).foldl (fun g i => g.fnPut i (bit mask (63 - i)) (bit data (63 - i))) g

/-- GJ_SO_TAP.EN: a tap that is not built has no enable to set (R430). -/
def Garja.tapEnPut (g : Garja) (mask data : Word) : Garja :=
  (List.range 16).foldl (fun g n => if g.tapBuilt n then g.fnPut (4 + n) (bit mask n) (bit data n) else g) g

/-- A second context would have FOX above 0 (R265). -/
def Garja.secondFox (g : Garja) (x : Nat) (new : Word) : Bool :=
  bits new 63 62 != 0 && (match g.c.foxCtx with | some y => y != x | none => false)

/-- Words 0 to 2 of GJ_SQ_CTX_x (R265, R276). -/
def Garja.sqCtxPut (g : Garja) (staged : Bool) (x w off : Nat) (mask data : Word) : Garja :=
  if w == 3 then g
  else if (!staged && g.ctxState x != 0) || (w == 0 && g.secondFox x (mergeBits (g.c.get off) data mask)) then g.ign GJ.SQ_STATUS_WR_IGN
  else g.onC (·.storeRw off mask data)

/-- GJ_BDOM_x (R135, R139). -/
def Garja.bdomPut (g : Garja) (staged : Option Nat) (x off : Nat) (mask data : Word) : Garja :=
  if g.ctxState x == 0 then g.onC (·.storeRw off mask data)
  else match staged with
    | none => g.ign GJ.CTX_CNT_WR_IGN
    | some s => if bit mask 63 then g.barSwitch x (bits data 63 63) s else g

/-- GJ_PWR_CFG (R296): FILL_EN, WAIT_LVL and CTX are the plan's while CTX is ACTIVE. -/
def Garja.pwrCfgPut (g : Garja) (staged : Bool) (mask data : Word) : Garja :=
  let held := !staged && g.ctxState (g.c.rd GJ.PWR_CFG_CTX) == 1
  let (c, m) := if held then g.c.keepField GJ.PWR_CFG 63 51 mask data (·.inc GJ.PWR_STATUS_WR_IGN) else (g.c, mask)
  { g with c := c.storeRw GJ.PWR_CFG m data }

/-- GJ_PST_CTL: PIN changes only through a staged change while GJ_CHIP.LOCK = 1 (R309). -/
def Garja.pstCtlPut (g : Garja) (staged : Bool) (mask data : Word) : Garja :=
  let (c, m) := if !staged && g.c.flag GJ.CHIP_LOCK then g.c.keepField GJ.PST_CTL 63 63 mask data Chip.tbIgn else (g.c, mask)
  { g with c := c.storeRw GJ.PST_CTL m data }

/-- A write of a Garja register by a requester coded as OWNER. What is not RW, not assigned, or not named here only stores its RW
bits. -/
def Garja.regPut (g : Garja) (staged : Option Nat) (by_ off : Nat) (mask data : Word) : Garja :=
  let st := staged.isSome
  let new := mergeBits (g.c.get off) data mask
  let act := data &&& mask
  let store := g.onC (·.storeRw off mask data)
  if mask == 0 then g
  else match g.c.putShared st off mask data with
  | some c => { g with c := c }
  | none =>
    if off < 0x2000 then
      if off == GJ.CHIP then (if g.c.flag GJ.CHIP_LOCK then g.ign GJ.CTX_CNT_WR_IGN else store) else store
    else if off < 0x4000 then
      if rowHas GJ.RGN_CFG 8 64 off then
        (if bits new 23 0 != 0 && decide (bits new 23 0 < 0x4000) then g.onC Chip.tbIgn else store)
      else match rowIdx GJ.HOLD_BUDGET 8 256 off, rowIdx GJ.BDOM 8 256 off with
        | some x, _ => if !st && g.ctxState x == 1 then g.ign GJ.HOLD_STATUS_WR_IGN else store
        | _, some x => g.bdomPut staged x off mask data
        | _, _ => store
    else if off < 0x6000 then
      if off == GJ.SO_TAP then g.tapEnPut mask data
      else if off == GJ.SO_WIDX then g.capture (bits new 12 0)
      else match rowIdx GJ.SO_RLN_CTX 8 256 off, rowIdx GJ.SO_RLN 8 512 off with
        | some x, _ => if !st && g.ctxState x == 1 then g.ign GJ.SO_STATUS_WR_IGN else store
        | _, some e => if !st && g.rlnInUse e then g.ign GJ.SO_STATUS_WR_IGN else store
        | _, _ => store
    else if off < 0x9000 then
      if off == GJ.CTX_CMD then g.ctxCmdWrite by_ act
      else if off == GJ.FN_CTL then g.fnCtlPut mask data
      else match rowIdx GJ.CTX_XLAT 8 256 off, rowIdx GJ.CL_CTX 8 256 off with
        | some x, _ => if g.ctxState x != 0 then g.ign GJ.CTX_CNT_WR_IGN else store
        | _, some x => if !st && g.ctxState x == 1 then g.ign GJ.CL_STATUS_WR_IGN else store
        | _, _ => store
    else if off < 0xA000 then
      if off == GJ.SQ_PDATA then g.progAccess st true (mergeBits (sparseGet g.prog (g.c.rd GJ.SQ_PIDX_ADDR)) data mask)
      else if off == GJ.SQ_FOXGRP then (if !st && g.c.foxCtx.isSome then g.ign GJ.SQ_STATUS_WR_IGN else store)
      else store
    else if off < 0xC000 then
      if off == GJ.HLT_ARITH then (if !st && g.c.flag GJ.CHIP_LOCK then g.onC Chip.tbIgn else store)
      else if off == GJ.HLT_TELEM then { store with telemAt := some g.c.now }
      else if off == GJ.PWR_CFG then g.pwrCfgPut st mask data
      else if off == GJ.PWR_RAMP0 then g.rampWrite new
      else if off == GJ.PST_CTL then g.pstCtlPut st mask data
      else if off == GJ.PST_LTR then g.onC (·.ltrSet new)
      else store
    else if off < 0xE000 then g.sqCtxPut st ((off - 0xC000) / 0x20) ((off - 0xC000) % 0x20 / 8) off mask data
    else if off == GJ.MSG_RAISE then g.onC (·.msgRaise (bits act 7 0))
    else match rowIdx GJ.MSG_EOI 0x10 8 off with
      | some p => g.onC (·.msgEoi p (bits act 4 0))
      | none => store

/-! ### Elzel -/

/-- EZ_ROLE: the ports that it uses and that are enabled start, and the others stop (R10; DEDUCED, R456 gives the start at boot). -/
def Elzel.rolePut (e : Elzel) (mask data : Word) : Elzel :=
  e.onC (fun c =>
    let c := c.storeRw EZ.ROLE mask data
    (List.range 68).foldl (fun c p =>
      let st := c.rd EZ.SL_STATUS_STATE p
      if c.portUsed p then (if st == 0 && c.flag EZ.SL_CTL_EN p && c.rd EZ.BOOT_STATUS_STAGE == 4 then (c.tdcEnable p).enter p 1 else c)
      else if st == 0 then c else c.leave p 6 0) c)

/-- A descriptor of a job whose record is VALID. -/
def Chip.descInUse (c : Chip pt) (d : Nat) : Bool :=
  c.jobs.any (fun j => decide (c.rd EZ.CMB_JOB_W1_BAR_BASE j ≤ d) && decide (d < c.rd EZ.CMB_JOB_W1_BAR_BASE j + c.rd EZ.CMB_JOB_W1_BAR_CNT j))

/-- The register at an offset belongs to a job whose record is VALID: it changes only through staged changes (R217, R276). -/
def Chip.jobGuard (c : Chip pt) (off : Nat) : Bool :=
  match rowIdx 0x100000 8 16384 off, rowIdx 0x200000 8 32768 off, rowIdx 0x800000 8 524288 off, rowIdx 0xC00000 8 8192 off with
  | some i, _, _, _ => c.jobValid (i / 4)
  | _, some i, _, _ => c.descInUse (i / 2)
  | _, _, some i, _ => c.jobValid (i / 128)
  | _, _, _, some i => c.jobValid (i / 2)
  | _, _, _, _ => false

/-- EZ_CMB_JOB_j word 0. A record that becomes VALID starts with REL_THRU one below its S_EFF (DEDUCED, R210); one that ceases to be is
removed (R216), or has moved away when a set with S_EFF clears it (R139). -/
def Elzel.jobPut (e : Elzel) (staged : Option Nat) (j off : Nat) (mask data : Word) : Elzel :=
  let was := e.c.jobValid j
  let now := bit (mergeBits (e.c.get off) data mask) 63
  let e : Elzel := if was && !now then
      (match staged with
       | some s => if s = 0 then e.removeJob j else e.moveAway j s
       | none => e.removeJob j)
    else e
  let e := e.onC (·.storeRw off mask data)
  if was || !now then e
  else
    let s := e.c.rd EZ.CMB_JOB_W0_S_EFF j
    let e := e.onC (fun c => { c.wr EZ.CMB_JOB_W2_REL_THRU (s - 1) j with fresh := if s = 0 then j :: c.fresh else c.fresh.filter (· != j) })
    e.onCmb (fun m => { m with moved := m.moved.filter (fun x => x.1 != j) })

/-- An MSI-X vector control or mask written: what is pending and no longer masked is sent (R335). -/
def Chip.msixPut (c : Chip pt) (v off : Nat) (mask data : Word) : Chip pt :=
  let c := c.storeRw off mask data
  let w := c.rd EZ.MSIX_PBA_PEND (v / 64)
  if !c.flag EZ.MSIX_VEC_MASK v && w.testBit (v % 64) then (c.wr EZ.MSIX_PBA_PEND (w - 2 ^ (v % 64)) (v / 64)).msixSend v else c

/-- EZ_IRQ_MASK written: a source that is latched and becomes unmasked signals its vector (DEDUCED, R331 as R336 takes it over). -/
def Chip.irqMaskPut (c : Chip pt) (mask data : Word) : Chip pt :=
  let old := c.rd EZ.IRQ_MASK_MASK
  let c := c.storeRw EZ.IRQ_MASK mask data
  (List.range 16).foldl (fun c s =>
    if old.testBit s && !((c.rd EZ.IRQ_MASK_MASK).testBit s) && (c.rd EZ.IRQ_PEND_PEND).testBit s then c.msixSend (1088 + s) else c) c

/-- The handle of EZ_JRNL_CKPT written (R371): a snapshot record, of six words in SNAP (the manual gives its items and not their
layout: DESIGN CHOICE, log entry 70). -/
def Elzel.ckptWrite (e : Elzel) (handle : Word) : Elzel :=
  let w := e.c.get EZ.JRNL_CKPT_W0
  let job := bits w 63 52
  let step := bits w 47 0
  let per := ((e.planOf job).map Plan.period).getD 0
  if !e.c.isRootA || decide (step > e.c.relNext job) || (per != 0 && step % per != 0) then e.onC (·.inc EZ.HLT_CNT_WR_IGN)
  else
    let r : SnapRec := { job := job, step := step, handle := handle, ht := e.c.gtInt, change := e.changeOf job,
                         count := ((e.planOf job).map (fun p => p.chips.length)).getD 0 }
    (e.onHlt (fun h => { h with snaps := h.snaps ++ [r] })).onC (fun c =>
      c.jrnlWords 2 [w64 job, w64 step, handle, w64 r.ht, w64 r.change, w64 r.count])

/-- A field of EZ_PTP_CTL (R145): MODE by its own rule. -/
def Elzel.ptpCtlPut (e : Elzel) (p off : Nat) (mask data : Word) : Elzel :=
  let e := e.onC (·.storeRw off (mask &&& w64 (2 ^ 62 - 1)) data)
  if bits mask 63 62 == 0 then e else e.ptpModeWrite p (bits (mergeBits (e.c.get off) data mask) 63 62)

/-- EZ_CLN_CTL (R113). -/
def Elzel.clnCtlPut (e : Elzel) (mask data : Word) : Elzel :=
  e.onC (fun c =>
    let new := mergeBits (c.get EZ.CLN_CTL) data mask
    let c := c.storeRw EZ.CLN_CTL (mask &&& w64 (2 ^ 62 - 1)) data
    if bits new 63 62 == bits (c.get EZ.CLN_CTL) 63 62 then c else c.loopOpen (bit new 63) (bit new 62))

/-- Bytes of a frame buffer: the eight at byte A of BAR0, most significant first (R473). -/
def Elzel.framePut (e : Elzel) (off : Nat) (mask data : Word) : Elzel :=
  let old := memReadWord e.frames off
  { e with frames := memWriteWord e.frames off (mergeBits old data mask) }

/-- A write of an Elzel register. The answer is the status that a command which writes it gets: an ignored write is OK but for
EZ_BIND (R22) and a refused DEN_ONLY (R315). EZ_FW_CTL.OP and EZ_RST_CTL are the front end's. -/
def Elzel.regPut (e : Elzel) (staged : Option Nat) (off : Nat) (mask data : Word) : Elzel × Nat :=
  let st := staged.isSome
  let new := mergeBits (e.c.get off) data mask
  let act := data &&& mask
  let store := e.onC (·.storeRw off mask data)
  let ok := fun (e : Elzel) => (e, ST.OK)
  if mask == 0 then (e, ST.OK)
  else if !st && e.c.jobGuard off then ok (e.onC (·.inc EZ.CMB_STATUS_WR_IGN))
  else match e.c.putShared st off mask data with
  | some c => ok { e with c := c }
  | none =>
    if off < 0x40000 then
      if off == EZ.ROLE then ok (e.rolePut mask data)
      else match rowIdx EZ.BIND 8 64 off with
        | some p => if !st && e.c.portServes p then (e.onC (·.inc EZ.CMB_STATUS_WR_IGN), ST.DENIED) else ok store
        | none => ok store
    else if off < 0x60000 then
      if off == EZ.REF_CTL then ok (if bit act 61 then store.onC (·.refAccept (bits act 60 58)) else store)
      else if off == EZ.CLN_CTL then ok (e.clnCtlPut mask data)
      else if off == EZ.CLN_DCO then ok (e.onC (·.trimWrite (sx 32 (bits new 31 0))))
      else if off == EZ.TS_CTL then ok (if bit act 51 then store.onC Chip.realign else store)
      else ok store
    else if off < 0xC0000 then
      if off == EZ.SPULSE_CTL then ok (e.spulseWrite (setBits new 62 62 (bits act 62 62)))
      else if off == EZ.EPOCH_CTL then
        ok (let e := e.onC (·.storeRw off (mask &&& w64 (2 ^ 63 - 1)) data)
            if bit mask 63 then e.onC (·.epochMode (bit data 63)) else e)
      else if 0x70000 ≤ off ∧ off < 0xB0000 then ok (e.framePut off mask data)
      else match rowIdx EZ.PTP_CTL 0x100 2 off, rowIdx EZ.TXQ_D0 0x100 2 off, rowIdx EZ.TXQ_D1 0x100 2 off with
        | some p, _, _ => ok (e.ptpCtlPut p off mask data)
        | _, some p, _ => ok (e.onPtp p (fun x => { x with d0 := act }))
        | _, _, some p => ok (e.txqEnqueue p act)
        | _, _, _ => ok store
    else if off < 0xC80000 then
      match rowIdx EZ.CMB_JOB_W0 0x20 4096 off with
        | some j => ok (e.jobPut staged j off mask data)
        | none => ok store
    else if off < 0xE00000 then
      if off == EZ.JRNL_CKPT_W0 || off == EZ.HLT_REF_W0 then ok (e.onC (·.set off act))
      else if off == EZ.JRNL_CKPT_W1 then ok (e.ckptWrite act)
      else if off == EZ.HLT_REF_W1 then
        ok (e.refWrite (bits (e.c.get EZ.HLT_REF_W0) 63 52) (bits (e.c.get EZ.HLT_REF_W0) 47 0) act)
      else match rowIdx EZ.JRNL_REG_W0 0x10 5 off, rowIdx EZ.HLT_SPARE 8 64 off, rowIdx EZ.HLT_OWL_W0 8 128 off with
        | some _, _, _ => ok (if e.c.flag EZ.JRNL_CTL_EN then e.onC (·.inc EZ.HLT_CNT_WR_IGN) else store)
        | _, some k, _ => ok (store.trialStart k)
        | _, _, some _ => ok (if st then e.onC (·.set off new) else e)
        | _, _, _ => ok store
    else
      if off == EZ.PST_CTL then
        (let denied := bits act 61 60 == 2 && e.c.anyMember && !bit act 59
         (if bits act 61 60 == 2 then store.denOnlyReq (bit act 59) else store, if denied then ST.DENIED else ST.OK))
      else if off == EZ.IRQ_MASK then ok (e.onC (·.irqMaskPut mask data))
      else match rowIdx EZ.MSIX_VEC 0x10 2048 off with
        | some v => ok (e.onC (·.msixPut v off mask data))
        | none => ok store

end Sys2Proof.Machine
end

