-- ==== Sys2Proof/Machine/RegRead.lean ====
section
/-!
DEFINITION. Sys2Proof/Machine/RegRead.lean: what a read of a register returns over the whole register maps of R407 and R408 (R6): fields
that mirror state kept elsewhere, and the reads that change state.
-/
namespace Sys2Proof.Machine

variable {pt : Part}

/-! ### Capsules (R394 to R396) -/

/-- Words of a capsule: 16,384 or 262,144 bytes. -/
def Chip.capLen (c : Chip pt) : Nat := match c.part with | .garja => 2048 | .elzel => 32768

/-- A word of a capsule before its CRC is set: what R396 lays out, and free values elsewhere. -/
def CapSlot.raw (s : CapSlot) (u : Part) (i : Nat) : Word :=
  match s.words.find? (fun x => x.1 == i) with
  | some x => x.2
  | none => Config.capsuleWord u s.seq i

/-- CRC-32C (R85) of words, seed 0xFFFF_FFFF. -/
def crcWords (ws : List Word) : Nat := 2 ^ 32 - 1 - ws.foldl (fun r w => crcBits r w.toNat 64) (2 ^ 32 - 1)

/-- A word of a capsule slot; a slot that holds no capsule reads zero. -/
def Chip.capWord (c : Chip pt) (slot i : Nat) : Word :=
  match c.den.caps[slot]? with
  | none => 0
  | some s =>
    if s.words.isEmpty then 0
    else if i == 7 then setBits (s.raw pt 7) 31 0 (crcWords ((List.range c.capLen).map (s.raw pt)))
    else s.raw pt i

/-- A read of CAP_DATA: the word, INDEX advanced, and UNREAD of the slot cleared at the last word (R394). -/
def Chip.capRead (c : Chip pt) : Chip pt × Word :=
  let slot := c.rd (PT.CAP_CTL_SLOT pt)
  let i := c.rd (PT.CAP_CTL_INDEX pt)
  let w := c.capWord slot i
  let c := c.wr (PT.CAP_CTL_INDEX pt) (i + 1)
  (if i + 1 = c.capLen then (if slot = 0 then c.wr (PT.CAP_CTL_UNREAD0 pt) 0 else c.wr (PT.CAP_CTL_UNREAD1 pt) 0) else c, w)

/-! ### Fields that both parts have -/

/-- STALL of each subsystem (R383). -/
def Chip.stallWord (c : Chip pt) : Word :=
  let base := match c.part with | .garja => 1 | .elzel => 9
  w64 (c.den.stall.map (fun x => if x.2.1 = 0 then 0 else min 255 ((c.now - x.2.2) / 1000) * 2 ^ (8 * (x.1 - base)))).sum

/-- The servo's integrator in 2^-16 ns (R123): it is kept in 2^-76 ps. -/
def Chip.integ (c : Chip pt) : Nat := unsx 32 (divNear c.tb.sI (1000 * 2 ^ 60))

/-- TDC_TBL_DATA for the index that stands in TDC_TBL_IDX (R52, R60). -/
def Chip.tblData (c : Chip pt) : Word :=
  let n := c.rd (PT.TDC_TBL_IDX_CH pt)
  let f := c.rd (PT.TDC_TBL_IDX_CODE pt)
  let t := (c.tdcAt n).live (c.flag (PT.TDC_TBL_IDX_LINE pt))
  if f ≥ 96 || n ≥ c.nCh || !t.valid then 0
  else w64 (2 ^ 63 + put 55 32 (t.hits.getD f 0) + put 31 16 (t.width f) + put 15 0 (t.centre f))

/-- TS_TRACK of an input (R129). -/
def Chip.trackView (c : Chip pt) (i : Nat) (w : Word) : Word :=
  let t := c.track i
  setBits (setBits (setBits w 63 63 (b2n (c.tracked i))) 62 62 (b2n (c.input == i))) 47 0 (unsx 48 (divNear t.num (2 ^ t.exp)))

/-- Fields of registers that both parts have and that mirror state kept elsewhere, over the word as it is stored. -/
def Chip.viewShared (c : Chip pt) (off : Nat) (w : Word) : Word :=
  let u := pt
  if off == (PT.TS_STATUS_INTEG u).off then setBits w 31 0 c.integ
  else if off == (PT.TDC_TBL_DATA_VALID u).off then c.tblData
  else if off == (PT.EVT_STATUS_QFILL u).off then setBits w 63 51 c.ev.queue.length
  else if off == (PT.RST_STALL_STALL_1 u).off then c.stallWord
  else if off == (PT.CAP_DATA_DATA u).off then c.capWord (c.rd (PT.CAP_CTL_SLOT u)) (c.rd (PT.CAP_CTL_INDEX u))
  else
    (((PT.TS_TRACK_TRACKED u).idx c.tracks.length off).map (fun i => c.trackView i w)
    <|> ((PT.TDC_STATUS_FILL u).idx c.nCh off).map (fun n => setBits w 60 56 (c.tdcAt n).fifo.length)
    <|> ((PT.TDC_FIFO_VALID u).idx c.nCh off).map (fun n => ((c.tdcAt n).fifo.head?.map (·.1)).getD 0)
    <|> ((PT.STG_S_W0_ENTRIES u).idx c.nSets off).map (fun k => setBits w 44 32 (c.stageAt k).entries.length)).getD w

/-- A register as it is stored, its WO bits zero (R6). -/
def Chip.viewBase (c : Chip pt) (off : Nat) : Word :=
  match regRow pt off with
  | none => 0
  | some r => c.get off &&& ~~~(w64 r.wo)

/-- The bits that a read clears (R6). -/
def rcMask (u : Part) (off : Nat) : Word := w64 (((regRow u off).map (·.rc)).getD 0)

/-- RC bits cleared by a read. -/
def Chip.rcClear (c : Chip pt) (off : Nat) : Chip pt :=
  let m := rcMask pt off
  if c.get off &&& m == 0 then c else c.set off (c.get off &&& ~~~m)

/-! ### Garja -/

/-- SCLK is gated (R180, R263, R309). -/
def Garja.sclkGated (g : Garja) : Bool :=
  g.c.flag GJ.SO_CTL_GATE_EN && !g.c.flag GJ.PST_CTL_PIN && g.so.intake.isEmpty && g.so.passes.isEmpty && g.lane.records.isEmpty
    && !(List.range 256).any (fun x => g.sqState x == 1)

/-- The determinism fingerprint (R358). -/
def Garja.fprint (g : Garja) : Word :=
  w64 (put 63 48 g.c.prm.stepping.toNat + put 47 32 g.c.prm.hostStepping.toNat
    + put 31 24 (g.c.rd GJ.SL_STATUS_LVL_RUN g.c.input) + put 23 8 (g.c.rd GJ.HLT_ARITH_ARITH) + put 7 4 1
    + put 3 3 (g.c.rd GJ.TB_CTL_CLKFIX) + put 2 2 (g.c.rd GJ.PST_CTL_PIN))

/-- PEND and S_EFF of GJ_BDOM_x: a set from PREPARED on holds a write of PORT that has not switched the context (R137, R139). -/
def Garja.bdomView (g : Garja) (x : Nat) (w : Word) : Word :=
  let c := g.c
  let off := GJ.BDOM + 8 * x
  let holds := fun (k : Nat) => (c.stageAt k).entries.find? (fun e => stgKind e == 0 && stgOff e == off && bit e.w1 63)
  match (List.range 4).find? (fun k => decide (c.setState k ≥ 2) && (holds k).isSome && g.ctxState x != 0) with
  | none => setBits w 62 62 0
  | some k =>
    let sEff := c.rd GJ.STG_S_W2_S_EFF k
    let port := ((holds k).map (fun e => bits e.w2 63 63)).getD 0
    if port == bits w 63 63 && sEff == bits w 47 0 then setBits w 62 62 0 else setBits (setBits w 62 62 1) 47 0 sEff

/-- The command of each of Garja's sources that is executing (R350). -/
def Chip.running (c : Chip pt) : Nat := min 4 c.cmd.open_.length

/-- GJ_EVT_PROC_p (R328). -/
def Chip.procView (c : Chip pt) (p : Nat) (w : Word) : Word :=
  let st := c.stack p
  let top := st.headD (0, 0)
  setBits w 58 45 (put 13 9 st.length + put 8 4 top.1 + put 3 0 top.2)

/-- A register of Garja as a read returns it. -/
def Garja.view (g : Garja) (off : Nat) : Word :=
  let c := g.c
  let w := c.viewBase off
  let sh := c.viewShared off w
  if off < 0x4000 then
    if off == GJ.CLK_STATUS then setBits w 60 60 (b2n g.sclkGated)
    else if off == GJ.TB_STATUS then setBits w 31 0 c.holdTime
    else if off == GJ.TB_GT then w64 c.gtInt
    else if off == GJ.HOLD_STATUS then setBits (setBits w 63 63 (b2n (c.farLock c.input == 3))) 31 0 c.effTime
    else match rowIdx GJ.BDOM 8 256 off with
      | some x => g.bdomView x w
      | none => sh
  else if off < 0x9000 then
    if off == GJ.SO_STATUS then
      setBits w 63 35 (put 28 15 g.so.waiters.length + put 14 3 (g.so.waiters.filter (fun x => decide (x.slot ≥ 4352))).length
        + put 2 0 g.so.passes.length)
    else if off == GJ.CL_STATUS then setBits w 63 53 g.lane.store.length
    else match rowIdx GJ.CTX_INFL 8 256 off with
      | some x => w64 (put 63 48 (g.inflTaps x).length + put 47 32 (g.inflOps x).length + put 31 16 (g.inflOut x))
      | none => sh
  else if off < 0xC000 then
    if off == GJ.SQ_STATUS then
      setBits (setBits w 63 55 (match c.foxCtx with | some x => 256 + x | none => 0)) 52 26
        (put 26 24 g.fox.spec.length + put 23 13 g.fox.hold.length + put 12 0 g.fox.undo.length)
    else if off == GJ.SQ_PDATA then sparseGet g.prog (c.rd GJ.SQ_PIDX_ADDR)
    else if off == GJ.HLT_FPRINT then g.fprint
    else if off == GJ.PWR_STATUS then setBits (setBits w 63 60 g.level) 59 59 (c.rd GJ.PWR_RAMP0_RUN)
    else if off == GJ.PWR_ENERGY then w64 (g.bal.lvlNs / 1000)
    else if off == GJ.PST_STATUS then setBits w 31 0 c.exitBurrow
    else sh
  else if off < 0xE000 then
    match rowIdx 0xC018 0x20 256 off with
      | some x => setBits w 60 60 (b2n (g.repro x))
      | none => sh
  else if off == GJ.CMD_STATUS then setBits w 63 61 c.running
  else match rowIdx GJ.MSG_SRC 8 32 off, rowIdx GJ.EVT_PROC 0x10 8 off with
    | some s, _ => setBits w 47 46 (2 * b2n (c.msgPend s) + b2n (c.msgInSvc s))
    | _, some p => c.procView p w
    | _, _ => sh

/-- A read of a Garja register: the word, and what the read does (R6, R51, R57, R249, R394). -/
def Garja.regRead (g : Garja) (off : Nat) : Garja × Word :=
  let w := g.view off
  if off == GJ.TB_GT then (g.onC (·.wr GJ.TB_FRAC_FRAC (g.c.gt % 2 ^ 32)), w)
  else if off == GJ.SQ_PDATA then (g.progAccess false false 0, w)
  else if off == GJ.CAP_DATA then (let (c, w) := g.c.capRead; ({ g with c := c }, w))
  else match GJ.TDC_FIFO_VALID.idx 4 off with
    | some n => (let (c, w) := g.c.fifoRead n; ({ g with c := c }, w))
    | none => (g.onC (·.rcClear off), w)

/-! ### Elzel -/

/-- TXQ_STATUS fills (R150, R152). -/
def Elzel.txqView (e : Elzel) (p : Nat) (w : Word) : Word :=
  let x := e.port p
  setBits (setBits w 63 58 (x.txq.length + (if x.head == .none_ then 0 else 1))) 57 51 x.tsq.length

/-- MEMBER: bit p tells DIES[p] ≠ 0 in the bank for the job's next step. -/
def Chip.memberMask (c : Chip pt) (j : Nat) : Nat := maskOf (c.members j (c.relNext j))

/-- A register of Elzel as a read returns it. -/
def Elzel.view (e : Elzel) (off : Nat) : Word :=
  let c := e.c
  let w := c.viewBase off
  let sh := c.viewShared off w
  if off < 0x60000 then
    if off == EZ.REF_STATUS then setBits w 31 0 c.refHoldTime
    else if off == EZ.HT_SEC then w64 c.htSec
    else if off == EZ.HT_GT then w64 c.gtInt
    else sh
  else if off < 0xC0000 then
    if off == EZ.PPS_STATUS then setBits w 63 63 (b2n e.squelched)
    else if 0x70000 ≤ off ∧ off < 0xB0000 then memReadWord e.frames off
    else match rowIdx EZ.TXQ_STATUS 0x100 2 off, rowIdx EZ.ETS 0x100 2 off with
      | some p, _ => e.txqView p w
      | _, some p => ((e.port p).tsq.head?.map (·.ets)).getD 0
      | _, _ => sh
  else if off < 0x800000 then
    if off == EZ.CMB_STATUS then e.cmbStatus
    else match rowIdx 0x100008 0x20 4096 off, rowIdx 0x100018 0x20 4096 off with
      | some j, _ => setBits w 38 34 (e.inUse j)
      | _, some j => w64 (c.memberMask j)
      | _, _ => sh
  else if off == EZ.CMD_STATUS then setBits w 63 51 e.mgr.pool.length
  else if off == EZ.HLT_CNT then setBits w 55 48 (satU 8 c.sparesFree)
  else sh

/-- A read of an Elzel register: the word, and what the read does (R6, R57, R127, R150, R394). -/
def Elzel.regRead (e : Elzel) (off : Nat) : Elzel × Word :=
  let w := e.view off
  if off == EZ.HT_SEC then (e.onC (fun c => (c.wr EZ.HT_NS_NS c.htNs).wr EZ.HT_NS_FRAC c.htFrac), w)
  else if off == EZ.CAP_DATA then (let (c, w) := e.c.capRead; ({ e with c := c }, w))
  else match EZ.TDC_FIFO_VALID.idx 76 off, rowIdx EZ.ETS 0x100 2 off with
    | some n, _ => (let (c, w) := e.c.fifoRead n; ({ e with c := c }, w))
    | _, some p => e.etsRead p
    | _, _ => (e.onC (·.rcClear off), w)

/-! ### Meanings -/

/-- CAP_DATA_READ (R394). The Den answers it in every power state (R379). -/
def execCapDataRead (u : Part) (s : State) : Out := .next (s.onDen u (fun c => c.capRead.1))

end Sys2Proof.Machine
end

