-- ==== Sys2Proof/Machine/StageCheck.lean ====
section
/-!
DEFINITION. Sys2Proof/Machine/StageCheck.lean: the consistency rules of R280: what STG_PREPARE checks against the state that the part will
hold at T.
-/
namespace Sys2Proof.Machine

variable {pt : Part}

/-- The status of a code of R280. -/
def nackStatus (code : Nat) : Nat :=
  if code == 4 then ST.VERSION
  else if code == 5 || code == 6 || code == 11 then ST.BUSY
  else if code == 7 || code == 9 || code == 12 || code == 13 || code == 14 then ST.DENIED
  else if code == 15 || code == 16 then ST.LATE
  else ST.BADPARAM

/-- A failure: its code and the index of its entry. The first one is the lowest code, and then the lowest index. -/
def firstFail : List (Nat × Nat) → Option (Nat × Nat)
  | [] => none
  | a :: l => match firstFail l with
    | none => some a
    | some b => some (if a.1 < b.1 || (a.1 == b.1 && decide (a.2 ≤ b.2)) then a else b)

/-- Sets from PREPARED on whose T is earlier, in the order in which they will apply. -/
def Chip.setsBefore (c : Chip pt) (t : Nat) : List Nat :=
  let ks := (List.range c.nSets).filter (fun k => decide (c.setState k ≥ 2) && decide (c.rd (PT.STG_S_W1_T pt) k < t))
  ks.foldl (fun l k => l.takeWhile (fun x => decide (c.rd (PT.STG_S_W1_T pt) x ≤ c.rd (PT.STG_S_W1_T pt) k)) ++ [k]
    ++ l.dropWhile (fun x => decide (c.rd (PT.STG_S_W1_T pt) x ≤ c.rd (PT.STG_S_W1_T pt) k))) []

/-- Fields of the TDC_CTL of a channel with an owner other than software read as RO (R70). -/
def Chip.tdcRo (c : Chip pt) (off : Nat) : Word :=
  match (PT.TDC_CTL_EN pt).idx c.nCh off with
  | some n => if c.tdcSoft n then 0 else w64 (put 63 45 (2 ^ 19 - 1) + put 42 31 (2 ^ 12 - 1))
  | none => 0

/-- FORMAT of a WRITE. -/
def Chip.writeFormat (c : Chip pt) (e : StgEntry) : Bool := formatOk pt (stgOff e) e.w1 && e.w1 &&& c.tdcRo (stgOff e) == 0

/-- LOCK: a register or a command target is written by another set (R282). -/
def Chip.lockTaken (c : Chip pt) (e : StgEntry) : Bool :=
  if stgKind e == 0 then c.regLocked (stgOff e) else c.ctxLocked (stgCtx e)

/-- The register of a WRITE as it will stand. -/
def Chip.newWord (c : Chip pt) (e : StgEntry) : Word := mergeBits (c.get (stgOff e)) e.w2 e.w1

/-- The numbers of a list of entries. -/
def numbered (l : List StgEntry) : List (Nat × StgEntry) := (List.range l.length).zip l

/-! ### Garja -/

/-- An entry applied to the state that the part will hold at T: a register, or the state of a context. -/
def Garja.shade (g : Garja) (by_ : Nat) (e : StgEntry) : Garja :=
  if stgKind e == 0 then g.onC (·.storeRw (stgOff e) e.w1 e.w2)
  else if stgSel e != 1 then g
  else
    let x := stgCtx e
    match ctxWord e.w2 with
    | .error _ => g
    | .ok (.activate, useGen) =>
      let g := g.onC (fun c => (c.wr GJ.CTX_STATE_STATE 1 x).wr GJ.CTX_STATE_OWNER by_ x)
      if useGen then g.onC (·.wr GJ.CTX_STATE_CUR (bits e.w2 51 44) x) else g
    | .ok (.park, _) => g.onC (·.wr GJ.CTX_STATE_STATE 2 x)
    | .ok (.resume, _) => g.onC (·.wr GJ.CTX_STATE_STATE 1 x)
    | .ok (_, _) => g.onC (·.wr GJ.CTX_STATE_STATE 3 x)

/-- The context whose register an offset is (R280, SCOPE). -/
def gjCtxReg (off : Nat) : Option Nat :=
  rowIdx GJ.HOLD_BUDGET 8 256 off <|> rowIdx GJ.BDOM 8 256 off <|> rowIdx GJ.SO_RLN_CTX 8 256 off <|> rowIdx GJ.CTX_XLAT 8 256 off
    <|> rowIdx GJ.CL_CTX 8 256 off <|> rowIdx GJ.EVT_CTXRING 8 256 off <|> (rowIdx 0xC000 8 1024 off).map (· / 4)

/-- What a context command fails by: RANGE where no command is named, STATE, and WINDOW for ACTIVATE. `t` is T. -/
def Garja.cmdFails (g : Garja) (by_ t : Nat) (w : Word) : List Nat :=
  let x := bits w 59 52
  match ctxWord w with
  | .error _ => [2]
  | .ok (.activate, useGen) =>
    let reuse := match (g.run x).freeAt with
      | some f => decide (g.c.now + (t - g.c.gtInt) < f + g.c.rd GJ.CTX_CFG_REUSE_NS)
      | none => false
    (if g.ctxState x != 0 || reuse then [7] else []) ++ (if !g.windowOk x || (useGen && g.inHist x (bits w 51 44)) then [8] else [])
  | .ok (k, _) => if g.ctxStatus x by_ k == ST.OK then [] else [7]

/-- The codes that an entry fails by, against the state that the part will hold when it applies. -/
def Garja.entryFails (g : Garja) (scope : Option Nat) (by_ t : Nat) (e : StgEntry) : List Nat :=
  if stgKind e == 1 then
    (if stgSel e == 1 then g.cmdFails by_ t e.w2
     else if g.startStatus (stgCtx e) (bits e.w2 47 0) == ST.OK then [] else [7])
  else if !g.c.writeFormat e then [1]
  else
    let off := stgOff e
    let new := g.c.newWord e
    (if rangeOk .garja off e.w1 new then [] else [2])
      ++ (match gjCtxReg off with | some x => if scope == some x then [] else [3] | none => [])
      ++ (match rowIdx GJ.CTX_XLAT 8 256 off with | some x => if g.ctxState x == 0 then [] else [7] | none => [])
      ++ (match rowIdx 0xC000 0x20 256 off with | some x => if g.secondFox x new then [9] else [] | none => [])

/-- A realignment entry of a context whose OBJ lies at or beyond its window (R186). -/
def Garja.rlnBad (g : Garja) (x e : Nat) : Bool :=
  decide (g.c.rd GJ.SO_RLN_CTX_BASE x ≤ e) && decide (e < g.c.rd GJ.SO_RLN_CTX_BASE x + g.c.rd GJ.SO_RLN_CTX_COUNT x)
    && decide (e < 512) && decide (g.c.rd GJ.SO_RLN_OBJ e ≥ g.c.rd GJ.CTX_XLAT_SIZE x)

/-- WINDOW for the realignment entries that an entry of the set writes, in the state after the whole set. -/
def Garja.rlnFails (g : Garja) (e : StgEntry) : Bool :=
  let active := (List.range 256).filter (fun x => g.ctxState x == 1)
  if stgKind e != 0 then false
  else match rowIdx GJ.SO_RLN 8 512 (stgOff e), rowIdx GJ.SO_RLN_CTX 8 256 (stgOff e) with
    | some k, _ => active.any (fun x => g.rlnBad x k)
    | _, some x => active.contains x && (List.range 512).any (fun k => g.rlnBad x k)
    | _, _ => false

/-- The first failure of a set of Garja, if it has one. -/
def Garja.prepareFail (g : Garja) (k t : Nat) (fp : Word) : Option (Nat × Nat) :=
  let x := g.c.stageAt k
  let scope := if g.c.flag GJ.STG_S_W0_SCOPED k then some (g.c.rd GJ.STG_S_W0_SCOPE k) else none
  let before := (g.c.setsBefore t).foldl (fun s j => (g.c.stageAt j).entries.foldl (fun s e => s.shade (g.c.stageAt j).by_ e) s) g
  let run := (numbered x.entries).foldl (fun (a : Garja × List (Nat × Nat)) e =>
    (a.1.shade x.by_ e.2,
     a.2 ++ (a.1.entryFails scope x.by_ t e.2).map (fun c => (c, e.1)) ++ (if g.c.lockTaken e.2 then [(5, e.1)] else []))) (before, [])
  let after := run.1
  firstFail (run.2
    ++ (numbered x.entries).filterMap (fun e => if after.rlnFails e.2 then some (8, e.1) else none)
    ++ (if fp != 0 && after.fprint != fp then [(14, 0)] else [])
    ++ (if (t : Int) - (g.c.gtInt : Int) < 70000 then [(16, 0)] else []))

/-! ### Elzel -/

/-- The job whose register an offset is (R280, SCOPE): a descriptor is that of the valid job whose range holds it. -/
def Chip.ezJobReg (c : Chip pt) (off : Nat) : Option Nat :=
  (rowIdx 0x100000 8 16384 off).map (· / 4) <|> (rowIdx 0x800000 8 524288 off).map (· / 128) <|> (rowIdx 0xC00000 8 8192 off).map (· / 2)
    <|> ((rowIdx 0x200000 8 32768 off).map (· / 2)).bind (fun d =>
      c.jobs.find? (fun j => decide (c.rd EZ.CMB_JOB_W1_BAR_BASE j ≤ d) && decide (d < c.rd EZ.CMB_JOB_W1_BAR_BASE j + c.rd EZ.CMB_JOB_W1_BAR_CNT j)))

/-- R217 on word 0 of a descriptor that is VALID. -/
def descOk (w : Word) : Bool :=
  !bit w 63 || (bits w 41 10 != 0 && redSupported (bits w 62 59) (bits w 58 55) && bits w 50 48 != 7 && bits w 54 53 != 3)

/-- SPACE for setts (R218): what the jobs hold, or have reserved, is beyond the pool. -/
def Elzel.settsOver (e : Elzel) : Bool := decide ((e.c.jobs.map (fun j => max (e.inUse j) (e.c.rd EZ.CMB_JOB_W0_RESERVE j))).sum > 16384)

/-- The codes that an entry fails by. `now_` is the part as it stands, `e` as it will stand when the entry applies. -/
def Elzel.entryFails (now_ e : Elzel) (scope : Option Nat) (x : StgEntry) : List Nat :=
  if stgKind x == 1 || !e.c.writeFormat x then [1]
  else
    let off := stgOff x
    let new := e.c.newWord x
    let after := e.onC (·.storeRw off x.w1 x.w2)
    (if rangeOk .elzel off x.w1 new then [] else [2])
      ++ (match e.c.ezJobReg off with | some j => if scope == some j then [] else [3] | none => [])
      ++ (match rowIdx 0x200000 0x10 16384 off with | some _ => if descOk new then [] else [10] | none => [])
      ++ (match rowIdx 0x100000 0x20 4096 off with
          | some j => (if decide ((after.c.jobs.map (fun k => after.c.rd EZ.CMB_JOB_W0_RESERVE k)).sum > 16384) then [10] else [])
              ++ (if after.settsOver then [6] else [])
              ++ (if now_.c.jobValid j && bits x.w1 48 0 != 0 && decide (now_.c.relNext j < now_.c.rd EZ.CMB_JOB_W0_S_EFF j) then [11] else [])
          | none => [])
      ++ (match rowIdx 0x800000 8 524288 off with
          | some i =>
            let j := i / 128
            let p := i % 64
            (if now_.c.jobValid j && decide (now_.c.relNext j < now_.c.rd EZ.CMB_JOB_W0_S_EFF j) then [11] else [])
              ++ (if bits new 18 0 != 0 && e.c.isLeaf && !(now_.c.jobValid j && (now_.c.members j (now_.c.relNext j)).contains p)
                    && !(e.c.flag EZ.BIND_VALID p && e.c.flag EZ.BIND_SEEN p && !e.c.flag EZ.BIND_HELD p) then [13] else [])
          | none => [])

/-- BIND: a binding is written whose port serves a job in the bank that applies at S_EFF (R22). -/
def Elzel.bindFails (e : Elzel) (scope : Option Nat) (sEff : Nat) (x : StgEntry) : Bool :=
  match rowIdx EZ.BIND 8 64 (stgOff x) with
  | some p => stgKind x == 0 && e.c.jobs.any (fun j => e.c.dies j (if scope == some j && sEff != 0 then sEff else e.c.relNext j) p != 0)
  | none => false

/-- RELEASED: S_EFF has been released here (R137). -/
def Elzel.releasedFail (e : Elzel) (scope : Option Nat) (sEff : Nat) : Bool :=
  match scope with
  | some j => sEff != 0 && e.c.jobValid j && decide (sEff < e.c.relNext j)
  | none => false

/-- The first failure of a set of Elzel, if it has one. An Elzel has no fingerprint, so PRINT does not apply to it. -/
def Elzel.prepareFail (e : Elzel) (k t : Nat) : Option (Nat × Nat) :=
  let x := e.c.stageAt k
  let scope := if e.c.flag EZ.STG_S_W0_SCOPED k then some (e.c.rd EZ.STG_S_W0_SCOPE k) else none
  let sEff := e.c.rd EZ.STG_S_W2_S_EFF k
  let shade := fun (s : Elzel) (y : StgEntry) => if stgKind y == 0 then s.onC (·.storeRw (stgOff y) y.w1 y.w2) else s
  let before := (e.c.setsBefore t).foldl (fun s j => (e.c.stageAt j).entries.foldl shade s) e
  let run := (numbered x.entries).foldl (fun (a : Elzel × List (Nat × Nat)) y =>
    (shade a.1 y.2,
     a.2 ++ (Elzel.entryFails e a.1 scope y.2).map (fun c => (c, y.1)) ++ (if e.c.lockTaken y.2 then [(5, y.1)] else []))) (before, [])
  let after := run.1
  firstFail (run.2
    ++ (numbered x.entries).filterMap (fun y => if after.bindFails scope sEff y.2 then some (12, y.1) else none)
    ++ (if e.releasedFail scope sEff then [(15, 0)] else [])
    ++ (if (t : Int) - (e.c.gtInt : Int) < 250000 then [(16, 0)] else []))

end Sys2Proof.Machine
end

