-- ==== Sys2Proof/Machine/Staged.lean ====
section
/-!
DEFINITION. Sys2Proof/Machine/Staged.lean: stage sets (R277 to R285, R288, R471): the stage commands, the application point, the apply,
and what resets do to the sets.
-/
namespace Sys2Proof.Machine

variable {pt : Part}

/-! ### Sets -/

def Chip.onStage (c : Chip pt) (k : Nat) (f : StageX → StageX) : Chip pt := { c with stage := upd c.stage k f }

/-- The set that holds a CHANGE. -/
def Chip.stageFind (c : Chip pt) (change : Nat) : Option Nat :=
  (List.range c.nSets).find? (fun k => c.setState k != 0 && c.rd (PT.STG_S_W0_CHANGE pt) k == change)

def Chip.setScope (c : Chip pt) (k : Nat) : Option Nat :=
  if c.flag (PT.STG_S_W0_SCOPED pt) k then some (c.rd (PT.STG_S_W0_SCOPE pt) k) else none
def Chip.setEff (c : Chip pt) (k : Nat) : Nat := c.rd (PT.STG_S_W2_S_EFF pt) k
def Chip.setT (c : Chip pt) (k : Nat) : Nat := c.rd (PT.STG_S_W1_T pt) k
def Chip.setChange (c : Chip pt) (k : Nat) : Nat := c.rd (PT.STG_S_W0_CHANGE pt) k

/-- A set becomes FREE. -/
def Chip.stageFree (c : Chip pt) (k : Nat) : Chip pt :=
  let off := (PT.STG_S_W0_STATE pt).off + 0x20 * k
  (((c.set off 0).set (off + 8) 0).set (off + 16) 0).onStage k (fun _ => {})

/-- A stage event (R471): CHANGE first; CTX for a Garja set scoped to a context, STEP for a set with S_EFF. -/
def Chip.stageEvent (c : Chip pt) (k typ : Nat) (items : List Item) : Chip pt :=
  c.raise typ (if pt == .garja then c.setScope k else none) (if c.setEff k = 0 then none else some (c.setEff k))
    (i32 (c.setChange k) :: items)

/-- A change that has ended is kept for STG_QUERY: the last 16 (R354). -/
def Chip.stageEnded (c : Chip pt) (k : Nat) (applied : Bool) : Chip pt :=
  let r : StageEnd := { change := c.setChange k, applied := applied, set_ := k, t := w64 (c.setT k), sEff := c.setEff k }
  { c with stageEnds := (r :: c.stageEnds).take 16 }

/-- A set is aborted: 1 STG_ABORT, 2 a reset, 3 a CONTEXT reset of its context (R471). -/
def Chip.stageAbort (c : Chip pt) (k cause : Nat) : Chip pt :=
  ((c.stageEvent k (EV.STAGE_ABORTED pt) [i8 cause, i8 (c.setState k)]).stageEnded k false).stageFree k

/-- PARTITION, UNIT and COLD resets free every set (R288), in ascending order. -/
def Chip.stageReset (c : Chip pt) : Chip pt :=
  (List.range c.nSets).foldl (fun c k => if c.setState k == 0 then c else c.stageAbort k 2) c

/-- A CONTEXT reset of x aborts every set scoped to x (R288). -/
def Chip.stageCtxReset (c : Chip pt) (x : Nat) : Chip pt :=
  (List.range c.nSets).foldl (fun c k => if c.setState k != 0 && c.setScope k == some x then c.stageAbort k 3 else c) c

/-! ### Commands (R279, R347) -/

/-- The requester of a command, coded as OWNER (R339): a processor by its queue, or an Elzel. -/
def Order.by_ (o : Order) (u : Part) : Nat := match u, o.src with | .garja, .queue q => q.toNat | _, _ => 8

/-- STG_OPEN: its status and the number of the set. -/
def Chip.stageOpen (c : Chip pt) (by_ change kind scope sEff : Nat) : Chip pt × Nat × Nat :=
  let mine := match c.part with | .garja => 1 | .elzel => 2
  if (kind != 0 && kind != mine) || (kind == 1 && decide (scope ≥ 256)) then (c, ST.BADPARAM, 0)
  else if (c.stageFind change).isSome then (c, ST.DENIED, 0)
  else match (List.range c.nSets).find? (fun k => c.setState k == 0) with
    | none => (c, ST.BUSY, 0)
    | some k =>
      let c := c.wr (PT.STG_S_W0_STATE pt) 1 k
      let c := if kind = 0 then c else (c.wr (PT.STG_S_W0_SCOPED pt) 1 k).wr (PT.STG_S_W0_SCOPE pt) scope k
      let c := (c.wr (PT.STG_S_W0_CHANGE pt) change k).wr (PT.STG_S_W2_S_EFF pt) sEff k
      (c.onStage k (fun _ => { by_ := by_ }), ST.OK, k)

/-- An entry that STG_ADD takes: KIND and CMDSEL are defined and the bits left for further use are zero. -/
def entryTaken (e : StgEntry) : Bool :=
  bits e.w0 61 56 == 0 && bits e.w0 23 0 == 0
    && ((stgKind e == 0 && stgSel e == 0) || (stgKind e == 1 && (stgSel e == 1 || stgSel e == 2) && stgOff e == 0))

/-- Entries that a set can still take (R277). -/
def Chip.stageRoom (c : Chip pt) (k : Nat) : Nat :=
  let used := (c.stage.map (fun s => s.entries.length)).sum
  match c.part with
  | .garja => 1024 - used
  | .elzel => min (65536 - used) (4096 - (c.stageAt k).entries.length)

/-- STG_ADD: its status and INDEX. -/
def Chip.stageAdd (c : Chip pt) (change : Nat) (es : List StgEntry) : Chip pt × Nat × Nat :=
  match c.stageFind change with
  | none => (c, ST.DENIED, 0)
  | some k =>
    if c.setState k != 1 then (c, ST.DENIED, 0)
    else match (numbered es).find? (fun e => !entryTaken e.2) with
      | some e => (c, ST.BADPARAM, e.1)
      | none =>
        if es.length > c.stageRoom k then (c, ST.BUSY, c.stageRoom k)
        else (c.onStage k (fun s => { s with entries := s.entries ++ es }), ST.OK, 0)

/-- The answer to STG_PREPARE once the rules of R280 have been evaluated: its status, DETAIL and INDEX. -/
def Chip.stageAnswer (c : Chip pt) (k t : Nat) : Option (Nat × Nat) → Chip pt × Nat × Nat × Nat
  | none => ((c.wr (PT.STG_S_W0_STATE pt) 2 k).wr (PT.STG_S_W1_T pt) t k, ST.OK, 0, 0)
  | some (code, i) =>
    let st := nackStatus code
    let c := (c.inc (PT.STG_CNT_NACK pt)).stageEvent k (EV.STAGE_NACK pt) [i8 st, i16 code, i16 i]
    (c.stageFree k, st, code, i)

/-- STG_PREPARE in Garja. -/
def Garja.stagePrepare (g : Garja) (change t : Nat) (fp : Word) : Garja × Nat × Nat × Nat :=
  match g.c.stageFind change with
  | none => (g, ST.DENIED, 0, 0)
  | some k =>
    if g.c.setState k != 1 then (g, ST.DENIED, 0, 0)
    else
      let r := g.c.stageAnswer k t (g.prepareFail k t fp)
      ({ g with c := r.1 }, r.2)

/-- STG_PREPARE in Elzel. -/
def Elzel.stagePrepare (e : Elzel) (change t : Nat) : Elzel × Nat × Nat × Nat :=
  match e.c.stageFind change with
  | none => (e, ST.DENIED, 0, 0)
  | some k =>
    if e.c.setState k != 1 then (e, ST.DENIED, 0, 0)
    else
      let r := e.c.stageAnswer k t (e.prepareFail k t)
      ({ e with c := r.1 }, r.2)

/-- STG_COMMIT. A set that was FENCED keeps its fence until it has applied. -/
def Chip.stageCommit (c : Chip pt) (change : Nat) : Chip pt × Nat :=
  match c.stageFind change with
  | none => (c, ST.DENIED)
  | some k =>
    if c.setState k == 2 then (c.wr (PT.STG_S_W0_STATE pt) 3 k, ST.OK)
    else if c.setState k == 4 then ((c.wr (PT.STG_S_W0_STATE pt) 3 k).onStage k (fun s => { s with wasFenced := true }), ST.OK)
    else (c, ST.DENIED)

/-- STG_ABORT of a set that has not been committed. -/
def Chip.stageDrop (c : Chip pt) (change : Nat) : Chip pt × Nat :=
  match c.stageFind change with
  | none => (c, ST.DENIED)
  | some k => if c.setState k == 3 then (c, ST.DENIED) else (c.stageAbort k 1, ST.OK)

/-- The body of STG_QUERY. -/
def Chip.stageQuery (c : Chip pt) (change : Nat) : List Word :=
  match c.stageFind change with
  | some k => [w64 (put 63 61 (c.setState k) + put 3 0 k), w64 (c.setT k), w64 (c.setEff k)]
  | none =>
    match c.stageEnds.find? (fun r => r.change == change) with
    | some r => [w64 (put 63 61 (if r.applied then 5 else 6) + put 3 0 r.set_), r.t, w64 r.sEff]
    | none => [0, 0, 0]

/-- Contexts that await their launch are held for work until now (R259, R285). -/
def Garja.workEnds (g : Garja) (scope : Option Nat) : Garja :=
  { g with seqs := (List.range g.seqs.length).zip g.seqs |>.map (fun s =>
      if s.2.await_ && (match scope with | some x => s.1 == x | none => true) then { s.2 with workAt := g.c.now } else s.2) }

/-- STG_ABORT in Garja: a fence that it lifts has held launches until now. -/
def Garja.stageDrop (g : Garja) (change : Nat) : Garja × Nat :=
  let was := g.c.fenced
  let (c, st) := g.c.stageDrop change
  let g : Garja := { g with c := c }
  (if was && !g.c.fenced then g.workEnds none else g, st)

/-- STG_ABORT in Elzel: items that the set held go on. -/
def Elzel.stageDrop (e : Elzel) (change : Nat) : Elzel × Nat :=
  let (c, st) := e.c.stageDrop change
  (Elzel.runAll { e with c := c }, st)

/-! ### Application (R283 to R285) -/

/-- The application point of a set has come: T, and for a set scoped to a context a step boundary of it. -/
def Garja.stageDue (g : Garja) (k : Nat) : Bool :=
  decide (g.c.setT k ≤ g.c.gtInt) && (match g.c.setScope k with | some x => !(g.seq x).inStep | none => true)
def Elzel.stageDue (e : Elzel) (k : Nat) : Bool := decide (e.c.setT k ≤ e.c.gtInt)

/-- The privileged source of STAGE_LATE and STAGE_ORPHAN (R330, R336). -/
def Chip.stageIrq (c : Chip pt) : Chip pt := c.latchIrq (match c.part with | .garja => 12 | .elzel => 8)

/-- A set at its application point: a COMMITTED one begins its apply, unless another is under way, and a PREPARED one is FENCED. -/
def Chip.stagePoint (c : Chip pt) (k : Nat) : Chip pt :=
  if c.setState k == 3 then
    (if c.applying then c
     else
       let x := c.stageAt k
       c.onStage k (fun s => { s with applying := some (c.gtInt, if x.wasFenced then c.gtInt - x.fencedGt else 0) }))
  else if c.setState k == 2 then
    let c := ((c.wr (PT.STG_S_W0_STATE pt) 4 k).inc (PT.STG_CNT_LATE pt)).onStage k
      (fun s => { s with fencedAt := c.now, fencedGt := c.gtInt, orphanAt := c.now })
    (c.stageEvent k (EV.STAGE_LATE pt) [i64 (c.setT k)]).stageIrq
  else c

/-- The end of an apply: STAGE_APPLIED, the count, the record, and the set is free. -/
def Chip.stageDone (c : Chip pt) (k gt late : Nat) : Chip pt :=
  let n := (c.stageAt k).entries.length
  (((c.inc (PT.STG_CNT_APPLIED pt)).stageEvent k (EV.STAGE_APPLIED pt) [i64 gt, i64 late, i16 n]).stageEnded k true).stageFree k

/-- An entry of Garja takes effect (R278). -/
def Garja.entryApply (g : Garja) (by_ sEff : Nat) (e : StgEntry) : Garja :=
  if stgKind e == 0 then g.regPut (some sEff) by_ (stgOff e) e.w1 e.w2
  else if stgSel e == 1 then g.ctxCmdStage by_ e.w2
  else (g.startCtx (stgCtx e) (bits e.w1 55 44) (bits e.w2 47 0)).1

/-- The apply of a set of Garja ends: its entries take effect, in list order, as one operation. -/
def Garja.stageApply (g : Garja) (k : Nat) : Garja :=
  match (g.c.stageAt k).applying with
  | none => g
  | some (gt, late) =>
    let x := g.c.stageAt k
    let scope := g.c.setScope k
    let g := x.entries.foldl (fun g e => g.entryApply x.by_ (g.c.setEff k) e) g
    let g := g.onC (·.stageDone k gt late)
    let g : Garja := if x.wasFenced && !g.c.fenced then g.workEnds none else if scope.isSome then g.workEnds scope else g
    (g.intake.applyDue).settle

/-- The apply of a set of Elzel ends. The change is then the last one applied to its job (R357), and items that it held go on. -/
def Elzel.stageApply (e : Elzel) (k : Nat) : Elzel :=
  match (e.c.stageAt k).applying with
  | none => e
  | some (gt, late) =>
    let x := e.c.stageAt k
    let change := e.c.setChange k
    let e := x.entries.foldl (fun e y => if stgKind y == 0 then (e.regPut (some (e.c.setEff k)) (stgOff y) y.w1 y.w2).1 else e) e
    let e := match e.c.setScope k with
      | some j => e.onCmb (fun m => { m with changes := (j, change) :: m.changes.filter (fun x => x.1 != j) })
      | none => e
    (e.onC (·.stageDone k gt late)).runAll

/-- STAGE_ORPHAN (R285): every ORPHAN µs that a set stays FENCED; with ORPHAN 0 none is raised. -/
def Chip.stageOrphan (c : Chip pt) (k : Nat) : Chip pt :=
  let x := c.stageAt k
  let per := c.rd (PT.STG_CFG_ORPHAN pt)
  if c.setState k == 4 && per != 0 && decide (x.orphanAt + per * 1000 ≤ c.now) then
    ((c.onStage k (fun s => { s with orphanAt := c.now })).stageEvent k (EV.STAGE_ORPHAN pt)
      [i64 (c.setT k), i32 ((c.now - x.fencedAt) / 1000)]).stageIrq
  else c

end Sys2Proof.Machine
end

