-- ==== Sys2Proof/Machine/Coord.lean ====
section
/-!
DEFINITION. Sys2Proof/Machine/Coord.lean: the coordinator of changes at a root (R286, R287, R348): staging the parts, the decision and what
follows it, barrier moves (R137 to R139), planning of jobs (R300 to R303) and rollbacks (R372).
-/
namespace Sys2Proof.Machine

variable {pt : Part}

/-- What a command answers: status, DETAIL, INDEX and body, and STAMP where another unit executed it. -/
structure Ans where
  st : Nat
  detail : Nat := 0
  index : Nat := 0
  body : List Word := []
  stamp : Option Nat := none
deriving DecidableEq, Repr

/-! ### The stage commands as a part runs them (R279, R347) -/

/-- `n` entries of three words each. -/
def entriesIn : Nat → List Word → List StgEntry
  | 0, _ => []
  | n + 1, ws => ⟨ws.getD 0 0, ws.getD 1 0, ws.getD 2 0⟩ :: entriesIn n (ws.drop 3)

/-- The stage commands that both parts run alike, from their bodies; none for another opcode. -/
def Chip.stageRun (c : Chip pt) (op by_ : Nat) (ws : List Word) : Option (Chip pt × Ans) :=
  let w0 := ws.getD 0 0
  let change := bits w0 63 32
  if op == CM.STG_OPEN then
    let (c, st, k) := c.stageOpen by_ change (bits w0 31 30) (bits w0 11 0) (bits (ws.getD 1 0) 47 0)
    some (c, { st := st, body := if st == ST.OK then [w64 k] else [] })
  else if op == CM.STG_ADD then
    let (c, st, i) := c.stageAdd change (entriesIn (bits w0 4 0) (ws.drop 1))
    some (c, { st := st, index := i })
  else if op == CM.STG_COMMIT then (let (c, st) := c.stageCommit change; some (c, { st := st }))
  else if op == CM.STG_QUERY then some (c, { st := ST.OK, body := c.stageQuery change })
  else none

/-- A stage command run by Elzel. -/
def Elzel.stageRun (e : Elzel) (op by_ : Nat) (ws : List Word) : Elzel × Ans :=
  let change := bits (ws.getD 0 0) 63 32
  match e.c.stageRun op by_ ws with
  | some (c, a) => ({ e with c := c }, a)
  | none =>
    if op == CM.STG_PREPARE then
      let (e, st, d, i) := e.stagePrepare change (ws.getD 1 0).toNat
      (e, { st := st, detail := d, index := i })
    else let (e, st) := e.stageDrop change; (e, { st := st })

/-- A stage command run by Garja. -/
def Garja.stageRun (g : Garja) (op by_ : Nat) (ws : List Word) : Garja × Ans :=
  let change := bits (ws.getD 0 0) 63 32
  match g.c.stageRun op by_ ws with
  | some (c, a) => ({ g with c := c }, a)
  | none =>
    if op == CM.STG_PREPARE then
      let (g, st, d, i) := g.stagePrepare change (ws.getD 1 0).toNat (ws.getD 2 0)
      (g, { st := st, detail := d, index := i })
    else let (g, st) := g.stageDrop change; (g, { st := st })

/-- Words of a run of registers read with their side effects (R347). -/
def Elzel.readRun (e : Elzel) (off : Nat) : Nat → Elzel × List Word
  | 0 => (e, [])
  | n + 1 =>
    let (e, w) := e.regRead off
    let (e, ws) := e.readRun (off + 8) n
    (e, w :: ws)

def Garja.readRun (g : Garja) (off : Nat) : Nat → Garja × List Word
  | 0 => (g, [])
  | n + 1 =>
    let (g, w) := g.regRead off
    let (g, ws) := g.readRun (off + 8) n
    (g, w :: ws)

/-! ### Parts of a change -/

def Elzel.onCoord (e : Elzel) (change : Nat) (f : Coord → Coord) : Elzel :=
  e.onMgr (fun m => { m with coords := m.coords.map (fun k => if k.change == change then f k else k) })
def Elzel.addCoord (e : Elzel) (k : Coord) : Elzel := e.onMgr (fun m => { m with coords := m.coords ++ [k] })
def Elzel.coordAt (e : Elzel) (change : Nat) : Option Coord := e.mgr.coords.find? (fun k => k.change == change)
def Coord.onPart (k : Coord) (u : Nat) (f : StagePart → StagePart) : Coord := { k with parts := upd k.parts u f }
def Elzel.setPhase (e : Elzel) (change u ph : Nat) : Elzel := e.onCoord change (·.onPart u (fun p => { p with phase := ph }))

/-- The header of a command to the unit of a block (R340): its level is the one that the coordinator speaks. -/
def partHdr (op lvl blen : Nat) (hdr : Word) : Word :=
  let elz := bit hdr 63
  w64 ((cmdW0 op lvl 0 blen).toNat + 2 ^ 25 + put 23 22 (if elz then bits hdr 61 60 else 0) + put 21 4 (bits hdr 59 42)
    + put 3 3 (bits hdr 62 62) + put 2 2 (b2n (!elz)))

/-- Entries of one STG_ADD to the unit: R222 leaves room for one to a Garja. -/
def StagePart.chunk (p : StagePart) : Nat := if bit p.hdr 63 then min 16 (p.entries.length - p.added) else 1

/-- The opcode and body of what a part is to be sent next. -/
def StagePart.next (p : StagePart) (k : Coord) : Nat × List Word :=
  let w0 := put 63 32 k.change
  if k.probing then
    (CM.REG_READ, [w64 (put 47 24 (EZ.CMB_JOB_W0 + EZ.CMB_JOB_W0_VALID.stride * p.scope) + 2)])
  else match k.decided with
  | some c => (if c then CM.STG_COMMIT else CM.STG_ABORT, [w64 w0])
  | none =>
    if p.phase = 0 then (CM.STG_OPEN, [w64 (w0 + put 31 30 p.scopeKind + put 11 0 p.scope), w64 k.sEff])
    else if p.phase = 9 then
      let es := (p.entries.drop p.added).take p.chunk
      (CM.STG_ADD, w64 (w0 + put 4 0 es.length) :: es.flatMap (fun x => [x.w0, x.w1, x.w2]))
    else (CM.STG_PREPARE, [w64 w0, w64 k.t, k.fp])

/-- Every part is filled, or left out: STG_PREPARE may go. -/
def Coord.filled (k : Coord) : Bool := k.parts.all (fun p => [3, 4, 5, 6].contains p.phase)
/-- Every part has acknowledged, or is left out. -/
def Coord.acked (k : Coord) : Bool := k.parts.all (fun p => p.phase == 5 || p.phase == 6)
/-- Every part has been told, or needs not be. -/
def Coord.finished (k : Coord) : Bool := k.decided.isSome && k.parts.all (fun p => p.phase == 6 || p.phase == 8)

/-- A part is due to be sent something. -/
def Coord.due (k : Coord) (p : StagePart) : Bool :=
  match k.decided with
  | some _ => [2, 3, 4, 5, 7, 9].contains p.phase
  | none => p.phase == 0 || (!k.probing && (p.phase == 9 || (p.phase == 3 && k.filled)))

/-- The phase that a part is in once it has been sent what is due. -/
def Coord.sentPhase (k : Coord) (p : StagePart) : Nat :=
  if k.decided.isSome then 8 else if p.phase = 0 then 1 else if p.phase = 9 then 2 else 4

/-! ### The decision (R286) -/

/-- The job of a change. -/
def Elzel.jobOfEnd (e : Elzel) : CoordEnd → Nat
  | .plan j _ _ _ _ _ => j
  | .jobEnd j _ => j
  | .move j _ _ _ _ => j
  | .late j => j
  | .rollback j _ _ _ => j
  | .owl k => e.c.rd EZ.HLT_OWL_W0_JOB k
  | .own j => j

/-- Entries of a plan block that end a membership, or the ramp of its start: the plan does not keep them. -/
def planKeeps (x : StgEntry) : Bool :=
  !(bits x.w0 63 62 == 0 && (bits x.w0 47 24 == GJ.PWR_RAMP0 || bits x.w0 47 24 == GJ.PWR_RAMP1))

/-- The block tears its context down. -/
def endsMember (b : StagePart) : Bool :=
  !bit b.hdr 63 && b.entries.any (fun x => bits x.w0 63 62 == 1 && bits x.w0 55 48 == 1 && decide (bits x.w2 63 60 ≥ 4))

/-- A block as the plan keeps it. -/
def StagePart.kept (b : StagePart) : StagePart :=
  { b with entries := b.entries.filter planKeeps, phase := 0, added := 0, optional := false }

/-- The later block of a unit written over the plan's: entries for the same register or command replaced. -/
def mergeBlock (old new : StagePart) : StagePart :=
  let same := fun (a b : StgEntry) => a.w0 == b.w0 && (bits a.w0 63 62 != 0 || a.w1 == b.w1)
  { old with entries := old.entries.filter (fun a => !new.entries.any (same a)) ++ new.entries }

/-- The unit that a block is for. -/
def unitOf (b : StagePart) : Nat := bits b.hdr 63 42

/-- Blocks of a plan after a change. -/
def mergeBlocks (old new : List StagePart) : List StagePart :=
  let gone := (new.filter endsMember).map unitOf
  let new := (new.filter (fun b => !endsMember b)).map StagePart.kept
  let kept := old.filter (fun b => !gone.contains (unitOf b))
  kept.map (fun b => match new.find? (fun n => unitOf n == unitOf b) with | some n => mergeBlock b n | none => b)
    ++ new.filter (fun n => !kept.any (fun b => unitOf b == unitOf n))

/-- The port of the barrier tree that a plan's blocks give its members (R135): the domain in force. -/
def planDomain (ctx : Nat) (blocks : List StagePart) : Nat :=
  match blocks.find? (fun b => !bit b.hdr 63) with
  | some b => ((writtenWord b.entries (GJ.BDOM + 8 * ctx)).map (fun w => bits w 63 63)).getD 0
  | none => 0

/-- ADMIT_DEFERRED (R302). -/
def Elzel.admitDeferred (e : Elzel) (job tReq tFirst cause : Nat) : Elzel :=
  e.onC (fun c => (c.inc EZ.PWR_CNT_DEFERRED).raise EV.ADMIT_DEFERRED none none
    [i16 job, i64 tReq, i64 tFirst, i32 ((tFirst - tReq) / 1000), i8 cause])

/-- The reserved spares that a committed change admits (R369). -/
def Elzel.noteAdmits (e : Elzel) (k : Coord) : Elzel :=
  let chips := (k.parts.filter (fun p => !bit p.hdr 63)).map (fun p => bits p.hdr 59 42)
  let l := (List.range 64).filter (fun i => e.c.flag EZ.HLT_SPARE_VALID i && e.c.flag EZ.HLT_SPARE_RESERVED i
    && chips.contains (e.c.rd EZ.HLT_SPARE_CHIP i))
  e.onHlt (fun h => { h with admits := h.admits ++ l.map (fun i => (k.t, i)) })

/-- An admission has applied (R369): OPEN falls, and the entry names a spare no longer (DEDUCED, log entry 71). -/
def Elzel.admitted (e : Elzel) : Elzel :=
  let due := e.mgr.hlt.admits.filter (fun x => decide (x.1 ≤ e.c.gtInt))
  due.foldl (fun (e : Elzel) x => e.onC (fun c =>
      if !c.flag EZ.HLT_SPARE_RESERVED x.2 then c
      else ((c.wr EZ.HLT_SPARE_RESERVED 0 x.2).wr EZ.HLT_SPARE_VALID 0 x.2).wr EZ.HLT_CNT_OPEN (c.rd EZ.HLT_CNT_OPEN - 1)))
    (e.onHlt (fun h => { h with admits := h.admits.filter (fun x => !decide (x.1 ≤ e.c.gtInt)) }))

/-- What a COMMIT means to the root. -/
def Elzel.committed (e : Elzel) (k : Coord) : Elzel :=
  match k.fin with
  | .plan job ctx ramp lvl tReq cause =>
    let rest := e.mgr.plans.filter (fun p => p.job != job)
    let e := e.noteAdmits k
    if k.op == CM.JOB_CHANGE then
      let e := e.onMgr (fun m => { m with plans := m.plans.map (fun p =>
        if p.job == job then (let bs := mergeBlocks p.blocks k.parts; { p with change := k.change, fp := if k.fp == 0 then p.fp else k.fp, blocks := bs }) else p) })
      e.onCmb (fun m => { m with replays := m.replays.map (fun r => if r.job == job && r.paused && r.n.isNone && !r.ended then { r with n := some k.sEff } else r) })
    else
      let bs := mergeBlocks [] k.parts
      let e := e.onMgr (fun m => { m with plans := { job := job, ctx := ctx, change := k.change, fp := k.fp, domain := planDomain ctx bs, blocks := bs,
                                                     waitLvl := lvl, racks := (ramp.map (·.racks)).getD [] } :: rest })
      match ramp with
      | some r => if r.ends > tReq then e.admitDeferred job tReq r.ends cause else e
      | none => e
  | .jobEnd job ramp =>
    e.onMgr (fun m => { m with plans := m.plans.map (fun p => if p.job == job then { p with endAt := some ramp.start } else p) })
  | .move job dom _ _ auto =>
    let out := (k.parts.filter (fun p => p.phase == 6)).map (fun p => (job, k.sEff, e.c.now, { p with phase := 0, added := 0, optional := false }))
    e.onMgr (fun m => { m with
      plans := m.plans.map (fun p => if p.job == job then { p with domain := dom, moved := p.moved || auto } else p),
      late := m.late ++ out })
  | .late job =>
    e.onMgr (fun m => { m with late := m.late.filter (fun x => !(x.1 == job && k.parts.any (fun p => unitOf p == unitOf x.2.2.2))) })
  | .rollback job sk sReq sEff =>
    let e := (e.onC (fun c => c.raise EV.ROLLBACK none none [i16 job, i64 sk, i64 sReq, i64 sEff])).onCmb (fun m =>
      { m with replays := { job := job, sk := sk, sReq := sReq, change := k.change, sEff := sEff } :: m.replays.filter (fun r => r.job != job) })
    (List.range 64).foldl (fun e i => if e.c.flag EZ.HLT_OWL_W0_VALID i && e.c.rd EZ.HLT_OWL_W0_JOB i == job then e.endPair i 5 else e) e
  | .owl i => e.owlStarted i
  | .own _ => e

/-- What an ABORT means to the root: what it had planned or reserved for the change is given up. -/
def Elzel.aborted (e : Elzel) (k : Coord) : Elzel :=
  match k.fin with
  | .plan job _ (some r) _ _ _ => e.onMgr (fun m => { m with ramps := m.ramps.filter (fun x => !(x.job == job && x.start == r.start)) })
  | .jobEnd job r => e.onMgr (fun m => { m with ramps := m.ramps.filter (fun x => !(x.job == job && x.start == r.start)) })
  | .owl i =>
    let owl := e.c.rd EZ.HLT_OWL_W0_OWL i
    let e := (List.range 64).foldl (fun e s =>
      if e.c.flag EZ.HLT_SPARE_VALID s && e.c.rd EZ.HLT_SPARE_CHIP s == owl then e.onC (·.wr EZ.HLT_SPARE_INUSE 0 s) else e) e
    (e.onC (·.wr EZ.HLT_OWL_W0_VALID 0 i)).onHlt (fun h => { h with pairs := h.pairs.filter (fun p => p.k != i) })
  | _ => e

/-- The decision: entered in the step ledger first, and then answered (R286, R348). -/
def Elzel.ruling (e : Elzel) (k : Coord) (commit : Bool) (a : Ans) : Elzel :=
  let e := e.onC (·.ledgerDecision (e.jobOfEnd k.fin) k.change k.sEff k.t commit)
  let e := e.onCoord k.change (fun x => { x with decided := some commit, order := none })
  let e := match k.order with
    | some o => e.onC (·.reply o k.op a.st a.detail a.index a.body)
    | none => e
  if commit then e.committed k else e.aborted k

/-! ### Barrier moves (R137 to R139) -/

/-- A move's write of GJ_BDOM (R139). -/
def bdomEntry (ctx dom : Nat) : StgEntry := stgWrite (GJ.BDOM + 8 * ctx) (w64 (2 ^ 63)) (w64 (put 63 63 dom))

/-- Entries of a move for an Elzel of a domain: in the new one the job's record starts anew at S_eff, in the old one it is given up. -/
def moveEntries (job sEff : Nat) (new : Bool) : List StgEntry :=
  let off := EZ.CMB_JOB_W0 + EZ.CMB_JOB_W0_VALID.stride * job
  let stop := stgWrite off (w64 (2 ^ 63)) 0
  if new then [stop, stgWrite off (w64 (2 ^ 63 + 2 ^ 48 - 1)) (w64 (2 ^ 63 + put 47 0 sEff))] else [stop]

/-- The blocks that move a job with a plan to domain `dom` at S_eff. -/
def moveParts (p : Plan) (dom sEff : Nat) : List StagePart :=
  let dies := p.chips.eraseDups.map (fun c =>
    ({ hdr := gjHdr dom c 1, scopeKind := 1, scope := p.ctx, entries := [bdomEntry p.ctx dom] } : StagePart))
  let elz := (p.blocks.filter (fun b => bit b.hdr 63)).map (fun b =>
    let new := bits b.hdr 62 62 == dom
    ({ hdr := b.hdr, scopeKind := 2, scope := p.job, entries := moveEntries p.job sEff new, optional := !new } : StagePart))
  dies ++ elz

/-- A round of a move with its S_eff. -/
def Elzel.moveRound (e : Elzel) (p : Plan) (dom sEff tries : Nat) (auto : Bool) (order : Option Order) (change : Nat) : Elzel :=
  e.addCoord
    { change := change, parts := moveParts p dom sEff, t := e.c.newT, sEff := sEff, order := order, op := CM.BAR_MOVE,
      okBody := [w64 sEff], fin := .move p.job dom sEff tries auto }

/-- A CHANGE number of the root's own. -/
def Elzel.takeChange (e : Elzel) : Elzel × Nat :=
  (e.onHlt (fun h => { h with own := h.own + 1 }), 0xC0000000 + e.mgr.hlt.own % 2 ^ 30)

/-- The plan that a move goes by: the root's plan; a root of depth 1 without one knows the job's units from its own record. -/
def Elzel.movePlan (e : Elzel) (job : Nat) : Option Plan :=
  match e.planOf job with
  | some p => some p
  | none =>
    if !(e.c.isRoot && e.c.isLeaf && e.c.rd EZ.CMB_JOB_W1_BAR_CNT job != 0) then none
    else
      let ctx := e.c.rd EZ.CMB_JOB_W0_CTX job
      let chips := (e.c.members job (e.c.relNext job)).map e.c.chipAt
      let dom := e.c.rd EZ.ROLE_DOMAIN
      some { job := job, ctx := ctx, change := 0, domain := if e.c.jobValid job then dom else 1 - dom,
             blocks := chips.map (fun c => ({ hdr := gjHdr dom c 1, scopeKind := 1, scope := ctx, entries := [] } : StagePart))
               ++ [0, 1].map (fun d => ({ hdr := ezHdr d 3 (e.c.rd EZ.ROLE_PREFIX) 1, scopeKind := 2, scope := job, entries := [] } : StagePart)) }

/-- A move begins (R137): the Elzels of the old domain are asked for the job's record. -/
def Elzel.moveStart (e : Elzel) (p : Plan) (dom : Nat) (auto : Bool) (order : Option Order) : Elzel :=
  let (e, n) := e.takeChange
  let old := (p.blocks.filter (fun b => bit b.hdr 63 && bits b.hdr 62 62 != dom)).map (fun b =>
    ({ hdr := b.hdr, scopeKind := 2, scope := p.job, entries := [], optional := true } : StagePart))
  e.addCoord
    { change := n, parts := old, t := 0, order := order, op := CM.BAR_MOVE, fin := .move p.job dom 0 0 auto, probing := true }

/-- A move of the job is under way. -/
def Elzel.moving (e : Elzel) (job : Nat) : Bool :=
  e.mgr.coords.any (fun k => match k.fin with | .move j _ _ _ _ => j == job && k.decided != some true | _ => false)

/-- S_eff of a move from the records that the reachable Elzels of the old domain gave (R137, R138): one above REL_THRU of the apex, or one
above the highest REL_THRU. -/
def Coord.moveStep (k : Coord) : Nat :=
  let recs := (k.parts.filter (fun p => p.phase == 3)).filterMap (fun p => p.entries.head?)
  let next := fun (x : StgEntry) => bits x.w2 47 0 + 1
  match recs.find? (fun x => bit x.w0 62) with
  | some a => next a
  | none => (recs.map next).foldl max 0

/-- The round that asked is over: the move is staged. -/
def Elzel.probed (e : Elzel) (k : Coord) : Elzel :=
  let e := e.onMgr (fun m => { m with coords := m.coords.filter (fun x => x.change != k.change) })
  match k.fin with
  | .move job dom _ tries auto =>
    match e.movePlan job with
    | some p => e.moveRound p dom k.moveStep tries auto k.order k.change
    | none => e
  | _ => e

/-- A move that the old apex refused because S_eff is released is staged again with the next step (R137, R287). -/
def Elzel.moveAgain (e : Elzel) (k : Coord) : Option Elzel :=
  match k.fin with
  | .move job dom sEff tries auto =>
    match e.movePlan job with
    | some p =>
      let e := e.onC (·.ledgerDecision job k.change k.sEff k.t false)
      let e := e.onCoord k.change (fun x => { x with decided := some false, order := none })
      let (e, n) := e.takeChange
      some (e.moveRound p dom (sEff + 1) (tries + 1) auto k.order n)
    | none => none
  | _ => none

/-- BAR_MOVE (R137): its status, or none where the move begins. -/
def Elzel.barMove (e : Elzel) (o : Order) (job dom : Nat) : Elzel × Option Ans :=
  match e.movePlan job with
  | none => (e, some { st := ST.DENIED })
  | some p =>
    if p.domain == dom then (e, some { st := ST.DENIED })
    else if e.moving job then (e, some { st := ST.BUSY })
    else (e.moveStart p dom false (some o), none)

/-- The domain-A root moves a job of which a member's barrier port has been out of use for MOVE_WAIT µs while its other port is in use
(R137). -/
def Elzel.moveWait (e : Elzel) (job chip : Nat) : Elzel :=
  match e.planOf job with
  | none => e
  | some p =>
    if !(e.c.isRootA && e.c.flag EZ.DOM_CTL_AUTO) || p.moved || !p.chips.contains chip || e.moving job then e
    else
      let gone := fun (l : List SumEnt) => !l.any (fun x => x.chip == chip && !x.held)
      let wait := e.c.rd EZ.DOM_CTL_MOVE_WAIT * 1000
      let ownPort := (List.range 64).find? (fun q => e.c.isLeaf && e.c.chipAt q == chip)
      let out := if p.domain != 0 then gone e.peerEnts else match ownPort with
        | some q => (match (e.c.link q).outSince with | some t => decide (t + wait ≤ e.c.now) | none => false)
        | none => gone e.ownEnts
      let other := if p.domain != 0 then !gone e.ownEnts && (match ownPort with | some q => e.c.up q | none => true) else !gone e.peerEnts
      if out && other then e.moveStart p (1 - p.domain) true none else e

/-! ### Answers to the coordinator -/

/-- The answer of a part to what it was sent last. -/
def Elzel.partAnswer (e : Elzel) (change u : Nat) (a : Ans) : Elzel :=
  match e.coordAt change with
  | none => e
  | some k =>
    match k.parts[u]? with
    | none => e
    | some p =>
      let fail := fun (ph : Nat) =>
        let e := e.setPhase change u ph
        if k.decided.isSome then e
        else
          let again := match k.fin with | .move _ _ _ _ _ => a.st == ST.LATE && a.detail == 15 | _ => false
          match (if again then e.moveAgain k else none) with
          | some e => e
          | none => e.ruling k false { st := a.st, detail := a.detail, index := u, body := [p.hdr] }
      if k.probing then
        if a.st == ST.OK then
          e.onCoord change (·.onPart u (fun p => { p with phase := 3, entries := [⟨a.body.getD 0 0, a.body.getD 1 0, a.body.getD 2 0⟩] }))
        else e.setPhase change u 6
      else if p.phase = 1 then
        if a.st == ST.OK then e.setPhase change u (if k.decided.isSome then 7 else if p.entries.isEmpty then 3 else 9)
        else if a.st == ST.TIMEOUT && p.optional then e.setPhase change u 6
        else fail (if a.st == ST.TIMEOUT then 7 else 6)
      else if p.phase = 2 then
        if a.st == ST.OK then
          let n := p.added + p.chunk
          e.onCoord change (·.onPart u (fun p => { p with added := n, phase := if n ≥ p.entries.length then 3 else 9 }))
        else fail 7
      else if p.phase = 4 then
        if a.st == ST.OK then e.setPhase change u 5 else fail 7
      else e

/-- What is due to part u of a change is sent, or run here where the unit is the root itself. -/
def Elzel.pumpPart (e : Elzel) (change u : Nat) : Elzel :=
  match e.coordAt change with
  | none => e
  | some k =>
    match k.parts[u]? with
    | none => e
    | some p =>
      if !k.due p then e
      else
        let (op, ws) := p.next k
        let body := padEven ws
        let hdr := partHdr op e.c.lvlMax (body.length / 2) p.hdr
        let sent := fun (e : Elzel) => e.setPhase change u (k.sentPhase p)
        let why := if k.decided.isSome then .mute else if k.probing then .probe change u else .part change u
        match e.targetOf hdr with
        | .self =>
          if op == CM.REG_READ then
            let (e, got) := e.readRun (bits (ws.getD 0 0) 47 24) 3
            (sent e).partAnswer change u { st := ST.OK, body := got }
          else
            let (e, a) := e.stageRun op 8 ws
            (sent e).partAnswer change u a
        | .dest d w0 => ((e.sendCmd (some d) w0 0 body (if p.optional && p.phase == 0 then 100 else 0) why).map sent).getD e
        | .unknown => ((e.sendCmd none hdr 0 body (if p.optional && p.phase == 0 then 100 else 0) why).map sent).getD e

/-- One pass over a change: what is due to its parts, and the decision once all have answered. -/
def Elzel.pumpCoord (e : Elzel) (change : Nat) : Elzel :=
  let n := ((e.coordAt change).map (fun k => k.parts.length)).getD 0
  let e := (List.range n).foldl (fun e u => e.pumpPart change u) e
  match e.coordAt change with
  | none => e
  | some k =>
    if k.finished then e.onMgr (fun m => { m with coords := m.coords.filter (fun x => x.change != change) })
    else if k.decided.isSome then
      -- A part that was never opened has nothing to be told.
      e.onCoord change (fun k => { k with parts := k.parts.map (fun p => if p.phase = 0 then { p with phase := 6 } else p) })
    else if k.probing then (if k.parts.all (fun p => p.phase == 3 || p.phase == 6) then e.probed k else e)
    else if k.acked then e.ruling k true { st := k.okStatus, body := k.okBody }
    else e

/-! ### Planning (R300 to R303, R348) -/

/-- Words of a plan image made blocks: the blocks, or the number of the first that is malformed. -/
def planBlocks (rd : Nat → Word) (len : Nat) (kindScope : Bool → Nat × Nat) : Nat → Nat → Nat → Except Nat (List StagePart)
  | 0, _, i => .error i
  | fuel + 1, off, i =>
    if off = len then (if i = 0 then .error 0 else .ok [])
    else if off + 16 > len then .error i
    else
      let w := rd off
      let elz := bit w 63
      let n := bits w 15 0
      if rd (off + 8) != 0 || bits w 41 16 != 0 || (!elz && bits w 61 60 != 0) || n = 0 || n > (if elz then 4096 else 1024)
          || off + 16 + 24 * n > len then .error i
      else
        let es := (List.range n).map (fun k => let a := off + 16 + 24 * k; (⟨rd a, rd (a + 8), rd (a + 16)⟩ : StgEntry))
        match planBlocks rd len kindScope fuel (off + 16 + 24 * n) (i + 1) with
        | .ok l => .ok ({ hdr := w, scopeKind := (kindScope elz).1, scope := (kindScope elz).2, entries := es } :: l)
        | .error j => .error j

/-- The blocks of an image for a job and its context; an image longer than 64 MiB, or of no block, is malformed. -/
def imageBlocks (rd : Nat → Word) (len job ctx : Nat) : Except Nat (List StagePart) :=
  if len > 67108864 then .error 0
  else planBlocks rd len (fun elz => if elz then (2, job) else (1, ctx)) (len / 40 + 2) 0 0

/-- Watts of one level of the ballast: all members share the root's stepping (R4, R300). -/
def Elzel.stepW (e : Elzel) : Nat := e.c.prm.balStepW.toNat

/-- A submitted job planned (R301, R302): none while no candidate passes. -/
def Elzel.planJob (e : Elzel) (q : PlanReq) : Option Elzel :=
  let chips := ((q.blocks.filter (fun b => !bit b.hdr 63)).map (fun b => bits b.hdr 59 42)).eraseDups
  let racks := e.racksOf chips
  match e.c.waitLevel q.dp e.stepW racks with
  | .error k =>
    let e := e.onC (fun c => (c.inc EZ.PWR_CNT_NOFIT).raise EV.PWR_NOFIT none none [i16 k])
    some (e.onC (·.reply q.order CM.JOB_SUBMIT ST.DENIED 32))
  | .ok lvl =>
    let r0 : Ramp := { job := q.job, racks := racks, from_ := 0, to_ := lvl, start := 0, dwell := 64, stepW := e.stepW }
    let r := { r0 with dwell := max (e.c.rackDwell e.stepW racks) (e.c.slopeDwell r0) }
    let t := e.c.newT
    match e.planStart r q.tReq t with
    | (none, _) => none
    | (some r, cause) =>
      let blocks := q.blocks.map (fun b => b.powered q.job q.ctx (anchorOf q.ctx r.ends b.entries) lvl r)
      let defer := r.ends - q.tReq
      let body := [w64 r.ends, w64 (put 63 32 (defer / 1000) + put 31 24 (if defer = 0 then 0 else cause))]
      some ((e.onMgr (fun m => { m with ramps := m.ramps ++ [r] })).addCoord
        { change := q.change, parts := blocks, t := t, fp := q.fp, sEff := (q.blocks.findSome? (fun b => startStep b.entries)).getD 0,
          order := some q.order, op := CM.JOB_SUBMIT, okStatus := if defer = 0 then ST.OK else ST.ADMIT_DEFERRED, okBody := body,
          fin := .plan q.job q.ctx (some r) lvl q.tReq cause })

/-- The anchor of the Garja blocks of a plan put in the Elzel blocks: the first Garja block's. -/
def Elzel.planHead (e : Elzel) : Elzel :=
  match e.mgr.planq with
  | [] => e
  | q :: rest =>
    match e.planJob q with
    | some e => e.onMgr (fun m => { m with planq := rest })
    | none => e

/-- JOB_SUBMIT with its image read (R348): a plan waits its turn. -/
def Elzel.jobSubmit (e : Elzel) (q : PlanReq) : Elzel := e.onMgr (fun m => { m with planq := m.planq ++ [q] })

/-- The S_EFF that a JOB_CHANGE leaves to the root: S1 of 0 in a START, and DATA of 0 in a write of EZ_CMB_JOB_j.S_EFF (R348). -/
def fillStep (job sEff : Nat) (x : StgEntry) : StgEntry :=
  if bits x.w0 63 62 == 1 && bits x.w0 55 48 == 2 && bits x.w2 47 0 == 0 then { x with w2 := setBits x.w2 47 0 sEff }
  else if bits x.w0 63 62 == 0 && bits x.w0 47 24 == EZ.CMB_JOB_W0 + EZ.CMB_JOB_W0_VALID.stride * job && bits x.w1 47 0 != 0 && bits x.w2 47 0 == 0 then
    { x with w2 := setBits x.w2 47 0 sEff }
  else x

/-- JOB_CHANGE (R348, R287). -/
def Elzel.jobChange (e : Elzel) (o : Order) (job ctx change : Nat) (fp : Word) (blocks : List StagePart) : Elzel :=
  let t := e.c.newT
  let s := e.c.stepAt job t
  let bs := blocks.map (fun b => { b with entries := b.entries.map (fillStep job s) })
  e.addCoord
    { change := change, parts := bs, t := t, fp := fp, sEff := s, order := some o, op := CM.JOB_CHANGE, okBody := [w64 s],
      fin := .plan job ctx none 0 0 0 }

/-- G(s) of a plan from its first Garja block (R255). -/
def Plan.gOf (p : Plan) (s : Nat) : Nat :=
  match p.blocks.find? (fun b => !bit b.hdr 63) with
  | none => 0
  | some b =>
    let f := fun (x : Fld) => ((writtenWord b.entries (x.off + x.stride * p.ctx)).map (fun w => bits w x.hi x.lo)).getD 0
    (f GJ.SQ_CTX_ANCHOR_ANCHOR + s * f GJ.SQ_CTX_CFG_PERIOD) % 2 ^ 64

/-- JOB_END (R303): the ramp down and TEARDOWN on every member, as one change. -/
def Elzel.jobEnd (e : Elzel) (o : Order) (job change sLast : Nat) : Elzel × Option Ans :=
  match e.planOf job with
  | none => (e, some { st := ST.DENIED })
  | some p =>
    let t := max e.c.newT (p.gOf (sLast + 1))
    let racks := e.racksOf p.chips.eraseDups
    let r := e.planEnd { job := job, racks := racks, from_ := p.waitLvl, to_ := 0, start := t, dwell := e.c.rackDwell e.stepW racks, stepW := e.stepW }
    let parts := p.chips.eraseDups.map (fun c =>
      let es := (if r.levels = 0 then [] else rampEntries r.start r.from_ r.to_ r.dwell true false)
        ++ [stgCtxCmd (w64 (put 63 60 4 + put 59 52 p.ctx))]
      ({ hdr := gjHdr (e.c.rd EZ.ROLE_DOMAIN) c es.length, scopeKind := 1, scope := p.ctx, entries := es } : StagePart))
    ((e.onMgr (fun m => { m with ramps := if r.levels = 0 then m.ramps else m.ramps ++ [r] })).addCoord
      { change := change, parts := parts, t := t, order := some o, op := CM.JOB_END, okBody := [w64 t], fin := .jobEnd job r }, none)

/-! ### Rollback (R372) -/

/-- ROLLBACK. The pause reaches the apex where the root is the apex (DESIGN CHOICE, log entry 31). -/
def Elzel.rollback (e : Elzel) (o : Order) (job sReq : Nat) : Elzel × Option Ans :=
  let busy := e.cmb.replays.any (fun r => r.job == job && !r.ended)
    || e.mgr.coords.any (fun k => match k.fin with | .rollback j _ _ _ => j == job && k.decided.isNone | _ => false)
  let steps := (e.mgr.hlt.snaps.filter (fun r => r.job == job && decide (r.step ≤ sReq))).map (·.step)
  -- R355: without LEDGER and REPLAY; the root knows its own regions.
  if e.c.regionSize 0 = 0 || e.c.regionSize 1 = 0 then (e, some { st := ST.DENIED })
  else if steps.isEmpty then (e, some { st := ST.BADPARAM })
  else if busy then (e, some { st := ST.BUSY })
  else match e.planOf job with
  | none => (e, some { st := ST.DENIED })
  | some p =>
    let sk := steps.foldl max 0
    let (e, n) := e.takeChange
    let t := e.c.newT
    let s := e.c.relNext job
    let dies := p.chips.eraseDups.map (fun c =>
      ({ hdr := gjHdr (e.c.rd EZ.ROLE_DOMAIN) c 2, scopeKind := 1, scope := p.ctx, entries := rampEntries t p.waitLvl p.waitLvl 64 false true } : StagePart))
    let own : StagePart := { hdr := ezHdr (e.c.rd EZ.ROLE_DOMAIN) 3 (e.c.rd EZ.ROLE_PREFIX) 0, scopeKind := 2, scope := job, entries := [] }
    (e.addCoord
      { change := n, parts := dies ++ [own], t := t, sEff := s, order := some o, op := CM.ROLLBACK, okBody := [w64 sk],
        fin := .rollback job sk sReq s }, none)

/-- The end of an apply at the apex of a rollback's own set: S_eff is released with ABANDONED. -/
def Elzel.rollbackPoint (e : Elzel) (change : Nat) : Elzel :=
  match e.cmb.replays.find? (fun r => r.change == change && !r.paused) with
  | none => e
  | some r =>
    (e.onCmb (fun m => { m with replays := m.replays.map (fun x => if x.change == change then { x with paused := true } else x) })).abandonStep r.job r.sEff

/-! ### The coordinator -/

/-- A part of a move that was left out is staged when its Elzel can be reached again, not oftener than every ms (R138). -/
def Elzel.pumpLate (e : Elzel) : Elzel :=
  match e.mgr.late.find? (fun x => decide (x.2.2.1 + 1000000 ≤ e.c.now)
      && !e.mgr.coords.any (fun k => k.parts.any (fun p => unitOf p == unitOf x.2.2.2 && k.decided.isNone))) with
  | none => e
  | some x =>
    let e := e.onMgr (fun m => { m with late := m.late.map (fun y => if y == x then (y.1, y.2.1, e.c.now, y.2.2.2) else y) })
    e.ownChange [{ x.2.2.2 with optional := true }] x.2.1 (.late x.1)

/-- One pass: what is planned, and every change under way. -/
def Elzel.pumpOnce (e : Elzel) : Elzel :=
  let e := (e.planHead.pumpLate).admitted
  let e := e.onMgr (fun m => { m with
    ramps := m.ramps.filter (fun r => decide (e.c.gtInt < r.ends)),
    plans := m.plans.filter (fun p => match p.endAt with | some t => decide (e.c.gtInt < t) | none => true) })
  (e.mgr.coords.map (·.change)).foldl (fun e k => e.pumpCoord k) e

/-- Passes until nothing changes, or n have been made. -/
def Elzel.pumpGo (e : Elzel) : Nat → Elzel
  | 0 => e
  | n + 1 => let e2 := e.pumpOnce; if e2 == e then e else e2.pumpGo n

/-- The coordinator does all that is due. Each pass takes a part at least one stage further. -/
def Elzel.pump (e : Elzel) : Elzel :=
  e.pumpGo (e.mgr.planq.length + e.mgr.late.length
    + ((e.mgr.coords.map (fun k => ((k.parts.map (fun p => 8 + p.entries.length)).sum) + 4)).sum) * 2)

/-- COMMIT_LEAD_EXPIRED (R286): some ACK is missing at T − COMMIT_LEAD. The answer TIMEOUT is DEDUCED. -/
def Elzel.commitLead (e : Elzel) (change : Nat) : Elzel :=
  match e.coordAt change with
  | none => e
  | some k =>
    if k.decided.isNone && !k.probing && decide (e.c.gtInt + e.c.rd EZ.STG_CFG_COMMIT_LEAD * 1000 ≥ k.t) then
      let u := (k.parts.findIdx? (fun p => p.phase != 5 && p.phase != 6)).getD 0
      e.ruling k false { st := ST.TIMEOUT, index := u, body := [((k.parts[u]?).map (·.hdr)).getD 0] }
    else e

end Sys2Proof.Machine
end

