-- ==== Sys2Proof/Machine/Answers.lean ====
section
/-!
DEFINITION. Sys2Proof/Machine/Answers.lean: what the answer to a command that Elzel sent into the tree does (R345, R351), and the CAPSULE
region (R397).
-/
namespace Sys2Proof.Machine

variable {pt : Part}

/-! ### Host memory -/

/-- Bytes that Elzel writes to host memory. -/
def Elzel.toHost (e : Elzel) (addr : Nat) (bs : List (BitVec 8)) : Elzel := e.onMgr (fun m => { m with toHost := m.toHost ++ [(addr, bs)] })

/-- The writes to host memory take place. -/
def State.flushHost (s : State) : State :=
  { s with hostMem := s.ez.mgr.toHost.foldl (fun m w => memWriteBytes m w.1 w.2) s.hostMem,
           ez := s.ez.onMgr (fun m => { m with toHost := [] }) }

/-- A change of Elzel that may write to host memory, while its main clocks run. -/
def State.onEzHost (s : State) (f : Elzel → Elzel) : State := (s.onEz f).flushHost

/-! ### The CAPSULE region (R397) -/

def bytesOfWords (ws : List Word) : List (BitVec 8) := ws.flatMap (fun w => bytesBE 8 w.toNat)

/-- A stretch of a ring region. -/
def Chip.regionBytes (c : Chip pt) (r off n : Nat) : List (BitVec 8) :=
  if c.regionSize r = 0 then List.replicate n 0
  else (List.range n).map (fun i => memRead c.jrnl (c.regionBase r + (off + i) % c.regionSize r))

/-- Two stretches of a ring of n bytes meet. -/
def ringMeets (n a la b lb : Nat) : Bool := decide ((b + n - a % n) % n < la) || decide ((a + n - b % n) % n < lb)

/-- The newest capsule stored of a chip, or of the part itself. -/
def Elzel.capRec (e : Elzel) (own : Bool) (chip : Nat) : Option CapRec := e.mgr.caps.find? (fun r => r.own == own && (own || r.chip == chip))

/-- A capsule written to the CAPSULE region: CAPSULE_STORED. A region that is disabled stores nothing. -/
def Elzel.storeCapsule (e : Elzel) (own : Bool) (chip : Nat) (ws : List Word) : Elzel :=
  if !e.c.regionOn 4 then e.onC (·.inc EZ.JRNL_CTL_DROP)
  else
    let off := e.c.rd EZ.JRNL_REG_W1_WR 4
    let len := 8 * ws.length
    let seq := bits (ws.getD 4 0) 63 32
    let n := e.c.regionSize 4
    let e := e.onC (·.jrnlWords 4 ws)
    let r : CapRec := { own := own, chip := chip, seq := seq, off := off, len := len }
    let e := e.onMgr (fun m => { m with caps := r :: m.caps.filter (fun r => !ringMeets n off len r.off r.len) })
    e.onC (fun c => c.raise EV.CAPSULE_STORED none none [i32 chip, i32 seq, i64 off])

/-- The CRC of a capsule holds (R396). -/
def capsuleOk (ws : List Word) : Bool :=
  crcWords ((List.range ws.length).map (fun i => if i = 7 then setBits (ws.getD 7 0) 31 0 0 else ws.getD i 0)) == bits (ws.getD 7 0) 31 0

/-- Words of a byte list. -/
def wordsOfBytes : Nat → List (BitVec 8) → List Word
  | 0, _ => []
  | n + 1, bs => w64 (ofBytesBE (bs.take 8)) :: wordsOfBytes n (bs.drop 8)

/-- A capsule copied to the host, and the answer. -/
def Elzel.giveCapsule (e : Elzel) (o : Order) (addr len : Nat) (ws : List Word) : Elzel :=
  let e := e.toHost addr ((bytesOfWords ws).take len)
  if capsuleOk ws then e.onC (·.reply o CM.CAPSULE_READ ST.OK) else e.onC (·.reply o CM.CAPSULE_READ ST.BADPARAM 1)

/-- The words of a stored capsule. -/
def Elzel.storedWords (e : Elzel) (r : CapRec) : List Word := wordsOfBytes (r.len / 8) (e.c.regionBytes 4 r.off r.len)

/-- The capsule in the part's own Den that is the newest. -/
def Chip.ownCapsule (c : Chip pt) : List Word := (List.range c.capLen).map (c.capWord (c.rd (PT.CAP_CTL_NEWEST pt)))

/-- A die's capsule is read through the Den path: the slot is selected, and then its words are read in order. -/
def Elzel.capSelect (e : Elzel) (port chip slot : Nat) (back : Option (Order × Nat × Nat)) : Elzel :=
  e.ownCmd { port := port } CM.REG_WRITE [w64 (put 47 24 GJ.CAP_CTL), w64 (2 ^ 63 + put 10 0 2047), w64 (put 63 63 slot)] 0 (.cap port chip 1 [] back)

/-- The next word of a die's capsule. -/
def Elzel.capNext (e : Elzel) (port chip : Nat) (got : List Word) (back : Option (Order × Nat × Nat)) : Elzel :=
  e.ownCmd { port := port } CM.REG_READ [w64 (put 47 24 GJ.CAP_DATA)] 0 (.cap port chip 2 got back)

/-- The answer to a step of that reading: 0 NEWEST read, 1 the slot selected, 2 a word read. -/
def Elzel.capAnswer (e : Elzel) (port chip phase : Nat) (got : List Word) (back : Option (Order × Nat × Nat)) (a : Ans) : Elzel :=
  if a.st != ST.OK then
    match back with
    | some (o, _, _) => e.onC (·.reply o CM.CAPSULE_READ a.st)
    | none => e
  else if phase = 0 then e.capSelect port chip (bits (a.body.getD 0 0) 60 60) back
  else if phase = 1 then e.capNext port chip [] back
  else
    let got := a.body.getD 0 0 :: got
    if got.length < 2048 then e.capNext port chip got back
    else
      let ws := got.reverse
      let e := e.storeCapsule false chip ws
      match back with
      | some (o, addr, len) => e.giveCapsule o addr len ws
      | none => e

/-- CAPSULE_READ (R397): none while the answer waits for the die. A chip that cannot be reached is BADPARAM (DEDUCED). -/
def Elzel.capsuleCmd (e : Elzel) (o : Order) (own : Bool) (chip addr len : Nat) : Elzel :=
  match e.capRec own chip with
  | some r => e.giveCapsule o addr len (e.storedWords r)
  | none =>
    if own then e.giveCapsule o addr len e.c.ownCapsule
    else match e.c.portOfChip chip with
    | some p => e.ownCmd { port := p } CM.REG_READ [w64 (put 47 24 GJ.CAP_CTL)] 0 (.cap p chip 0 [] (some (o, addr, len)))
    | none => e.onC (·.reply o CM.CAPSULE_READ ST.BADPARAM)

/-- The event CAPSULE of a die on port p: its domain-A leaf stores the capsule, or its domain-B leaf while the sibling is down. -/
def Elzel.capsuleEvent (e : Elzel) (p slot : Nat) : Elzel :=
  if e.c.isLeaf && (!e.c.flag EZ.ROLE_DOMAIN || !(e.c.up 66 || e.c.up 67)) then e.capSelect p (e.c.chipAt p) slot none else e

/-! ### Answers (R345, R351) -/

/-- The next entry of a split STG_ADD. -/
def Elzel.splitNext (e : Elzel) (o : Order) (d : Dest) (change done tmo : Nat) : List StgEntry → Elzel
  | [] => e.onC (·.reply o CM.STG_ADD ST.OK)
  | x :: rest =>
    let body := [w64 (put 63 32 change + 1), x.w0, x.w1, x.w2]
    match e.sendCmd (some d) (cmdW0 CM.STG_ADD o.lvl.toNat 0 2) 0 body tmo (.split o d change done rest) with
    | some e => e
    | none => e.onC (·.reply o CM.STG_ADD ST.TIMEOUT 0 done)

/-- The answer to a command that Elzel sent, or its TIMEOUT or ABANDONED. -/
def Elzel.answered (e : Elzel) (x : PoolEnt) (a : Ans) : Elzel :=
  match x.why with
  | .submit o => e.onC (·.reply o x.op a.st a.detail a.index a.body a.stamp)
  | .split o d change done rest =>
    if a.st == ST.OK then e.splitNext o d change (done + 1) x.tmo rest else e.onC (·.reply o CM.STG_ADD a.st a.detail done)
  | .part change u => e.partAnswer change u a
  | .probe change u => e.partAnswer change u a
  | .snap m => e.snapRead m (if a.st == ST.OK then a.body else [])
  | .trial k n fp => e.trialRead k n fp a.st a.body
  | .remap p => if a.st == ST.OK then e.remapRead p a.body else e
  | .cap port chip ph got back => e.capAnswer port chip ph got back a
  | .mon => e.print (if a.st == ST.OK && !a.body.isEmpty then .words a.body else .status a.st)
  | .mute => e

/-- CMD_FORWARD_TIMEOUT (R351): no reply within TMO of the departure. -/
def Elzel.cmdTimeout (e : Elzel) (idx : Nat) : Elzel :=
  match e.mgr.pool.find? (fun x => x.idx == idx) with
  | none => e
  | some x =>
    if e.c.now < x.at_ + x.tmo * 1000 then e
    else ((e.freeTag idx).onC (·.inc EZ.CMD_STATUS_TMO)).answered x { st := ST.TIMEOUT }

/-- ENGINE reset of subsystem 15 (R354): every command that waits on a tree tag is answered with ABANDONED, and every WRAP advances. -/
def Elzel.poolAbandon (e : Elzel) : Elzel :=
  let l := e.mgr.pool
  l.foldl (fun e x => e.answered x { st := ST.ABANDONED }) (e.onMgr (fun m => { m with pool := [], wrapBase := m.wrapBase + 1 }))

end Sys2Proof.Machine
end

