-- ==== Sys2Proof/Machine/Reset.lean ====
section
/-!
DEFINITION. Sys2Proof/Machine/Reset.lean: resets and crash capsules (R376 to R399), and heartbeats (R384 to R386).
-/
namespace Sys2Proof.Machine

variable {pt : Part}

def Chip.onDenSt (c : Chip pt) (f : Den → Den) : Chip pt := { c with den := f c.den }

/-! ### Requests (R379 to R381) -/

/-- A request names a target that its part has (R376, R377). -/
def Chip.rstValid (c : Chip pt) (r : RstRun) : Bool :=
  match r.level, c.part with
  | 0, .garja => decide (1 ≤ r.sub) && decide (r.sub ≤ 8)
  | 0, .elzel => decide (9 ≤ r.sub) && decide (r.sub ≤ 15)
  | 1, .garja => true
  | 2, _ => !(c.partSubs r.part).isEmpty
  | 3, _ => true
  | 4, _ => true
  | 7, _ => true
  | _, _ => false

/-- The target of r lies inside that of the running reset x (R381). A context lies inside the SYNC partition (DEDUCED). -/
def Chip.rstInside (c : Chip pt) (x r : RstRun) : Bool :=
  match x.level with
  | 0 => r.level == 0 && r.sub == x.sub
  | 1 => r.level == 1 && r.ctx == x.ctx
  | 2 => (r.level == 0 && (c.partSubs x.part).contains r.sub) || (r.level == 1 && x.part == 0) || (r.level == 2 && r.part == x.part)
  | _ => true

/-- What becomes of a request. -/
inductive RstJudge where
  | bad
  | busy
  | covered
  | wait
  | preempt
  | start
deriving DecidableEq, Repr

def Chip.rstJudge (c : Chip pt) (r : RstRun) : RstJudge :=
  if !c.rstValid r then .bad
  else match c.den.run with
  | none => .start
  | some x =>
    if x.capturing && decide (2 ≤ r.level) && decide (r.level ≤ 4) then (if c.den.queued.isNone then .wait else .busy)
    else if x.level == 7 || r.level == 7 then .busy
    else if r.level ≤ x.level then (if c.rstInside x r then .covered else .busy)
    else .preempt

/-- LEVEL and STATUS of the last request. -/
def Chip.rstNote (c : Chip pt) (r : RstRun) (st : Nat) : Chip pt :=
  (c.wr (PT.RST_STATUS_LEVEL pt) r.level).wr (PT.RST_STATUS_STATUS pt) st

def Chip.rstRefuse (c : Chip pt) (r : RstRun) (st : Nat) : Chip pt :=
  r.orders.foldl (fun c o => c.reply o CM.RESET st) (c.rstNote r st)

/-- A request accepted: the commands of a reset that it pre-empts are answered with it. -/
def Chip.rstOpen (c : Chip pt) (r : RstRun) : Chip pt :=
  let carried := (c.den.run.map (·.orders)).getD []
  let c := c.rstNote r ST.OK
  let c := ((c.wr (PT.RST_STATUS_DONE pt) 0).wr (PT.RST_STATUS_BUSY pt) 1).wr (PT.RST_STATUS_OVER pt) 0
  let c := if r.level == 7 then c else c.inc (PT.RST_STATUS_RESETS pt)
  let c := if r.level == 4 then c.inc (PT.RST_STATUS_COLDS pt) else c
  c.onDenSt (fun d => { d with run := some { r with at_ := c.now, orders := carried ++ r.orders, capturing := decide (r.level ≥ 2),
                                                    started := false, fails := 0 } })

/-- The running reset is done (R380). -/
def Chip.rstDone (c : Chip pt) : Chip pt :=
  match c.den.run with
  | none => c
  | some r =>
    let us := (c.now - r.at_) / 1000
    let c := ((c.wr (PT.RST_STATUS_DONE pt) 1).wr (PT.RST_STATUS_BUSY pt) 0).wr (PT.RST_STATUS_ELAPSED pt) (satU 18 us)
    let c := c.onDenSt (fun d => { d with run := none })
    let c := if r.level == 7 then c
      else c.raise (EV.RESET_DONE pt) (if r.level == 1 then some r.ctx else none) none
        [i8 r.level, i8 r.sub, i8 r.part, i8 r.by_, i32 (satU 18 us), i32 (if r.level ≥ 2 then c.den.capSeq else 0)]
    r.orders.foldl (fun c o => c.reply o CM.RESET ST.OK) c

/-- The bound of the running reset in ns (R376). -/
def Chip.rstBound (c : Chip pt) (r : RstRun) : Nat :=
  match r.level, c.part with
  | 0, _ => 10000
  | 1, _ => let d := c.rd GJ.CTX_CFG_DRAIN_NS; if d > 50000 then d + 50000 else 100000
  | 2, _ => 1000000
  | 3, _ => 2000000
  | _, .garja => 30000000
  | _, .elzel => 400000000

/-- RESET_BOUND_OVER (R380). -/
def Chip.rstOver (c : Chip pt) : Chip pt :=
  match c.den.run with
  | none => c
  | some r => if r.level != 7 && decide (c.now ≥ r.at_ + c.rstBound r) then c.wr (PT.RST_STATUS_OVER pt) 1 else c

/-! ### Capsules (R393 to R396) -/

/-- The slot that holds the older capsule. -/
def Chip.olderSlot (c : Chip pt) : Nat :=
  let s := fun (i : Nat) => ((c.den.caps[i]?).map (·.seq)).getD 0
  if s 0 ≤ s 1 then 0 else 1

/-- The header (R396), from words 2 and 3 of the part. -/
def Chip.capHeader (c : Chip pt) (r : RstRun) (w2 w3 : Word) : List (Nat × Word) :=
  let beat := match c.part with | .garja => c.rd GJ.RST_BEAT_BEAT | .elzel => c.rd EZ.RST_BEAT_DEN_BEAT
  [(0, w64 (2 ^ 56 + put 55 53 r.level + put 52 48 r.sub + put 47 40 r.part + put 39 32 r.ctx + put 31 28 r.by_)), (1, w64 c.gtInt), (2, w2),
   (3, w3), (4, w64 (put 63 32 (c.den.capSeq + 1) + put 31 0 beat)), (5, c.stallWord), (6, w64 (put 63 62 c.lock + 8 * c.capLen)), (7, 0)]

/-- A capture writes the older slot. -/
def Chip.capWrite (c : Chip pt) (ws : List (Nat × Word)) : Chip pt :=
  c.onDenSt (fun d => { d with caps := upd d.caps c.olderSlot (fun _ => { seq := d.capSeq + 1, words := ws }) })

/-- Words of Garja's capsule that R395 lays out: the 32 oldest records that wait, and the occupied waiter slots. -/
def Garja.capWords (g : Garja) : List (Nat × Word) :=
  let recs := (g.c.ev.queue.take 32).flatMap (·.words)
  let slots := (g.so.waiters.take 248).map (fun w => (g.capture w.slot).c.get GJ.SO_WDATA0)
  (List.range recs.length).zip recs |>.map (fun x => (264 + x.1, x.2))
    |> (· ++ ((List.range 248).map (fun i => (528 + i, slots.getD i 0))))

def Garja.capStart (g : Garja) : Garja :=
  match g.c.den.run with
  | none => g
  | some r =>
    if !r.capturing then g
    else
      let c := g.c
      let w2 := w64 (put 63 63 (c.rd GJ.CHIP_VALID) + put 61 44 (c.rd GJ.CHIP_CHIP) + put 43 26 (bits (c.get GJ.TREE_A) 17 0)
        + put 25 8 (bits (c.get GJ.TREE_B) 17 0))
      let ws := c.capHeader r w2 g.fprint ++ g.capWords
      g.onC (·.capWrite ws)

def Elzel.capStart (e : Elzel) : Elzel :=
  match e.c.den.run with
  | none => e
  | some r =>
    if !r.capturing then e
    else
      let c := e.c
      let w2 := w64 (put 61 44 (c.rd EZ.ROLE_PREFIX) + put 43 42 (c.rd EZ.ROLE_ROLE) + put 41 41 (c.rd EZ.ROLE_DOMAIN) + put 40 39 (c.rd EZ.ROLE_DEPTH))
      e.onC (·.capWrite (c.capHeader r w2 0))

/-- The scan ends (R394): the slot is UNREAD, and CAPSULE is raised. -/
def Chip.capEnd (c : Chip pt) : Chip pt :=
  match c.den.run with
  | none => c
  | some r =>
    let seq := c.den.capSeq + 1
    let slot : Nat := if ((c.den.caps[1]?).map (·.seq)).getD 0 == seq then 1 else 0
    let f := if slot = 0 then PT.CAP_CTL_UNREAD0 pt else PT.CAP_CTL_UNREAD1 pt
    let c := if c.flag f then c.inc (PT.CAP_CTL_LOST pt) else c
    let c := (c.wr f 1).wr (PT.CAP_CTL_NEWEST pt) slot
    let c := c.onDenSt (fun d => { d with capSeq := seq, run := some { r with capturing := false } })
    c.raise (EV.CAPSULE pt) none none [i8 slot, i32 seq, i8 r.level]

/-! ### Effects in Garja (R376, R377, R389) -/

/-- The ENGINE reset of a subsystem of Garja: each rule of its own chapter (R39, R72, R99, R191, R229, R276, R354). Every command that has
been taken is running, so subsystem 7 answers none with ABANDONED. -/
def Garja.engineReset (g : Garja) (s : Nat) : Garja :=
  match s with
  | 2 => g.onC (fun c => (List.range 4).foldl (fun c n => (c.tdcAbort n).onTdc n (fun t => { t with fifo := [] })) c)
  | 3 => g.windowsReset
  | 4 => g.soReset
  | 5 =>
    let g := match g.c.foxCtx with | some x => g.squash x | none => g
    (List.range 256).foldl (fun g x => if decide (1 ≤ g.sqState x) && decide (g.sqState x ≤ 4) then g.seqFault x 10 else g) g
  | 6 => g.onLane (fun l => { l with reads := [] })
  | 7 => g.onC Chip.evtEngineReset
  | 8 => g.onC (fun c => (c.linkEngineReset 0).linkEngineReset 1)
  | _ => g

/-- A context that is not FREE goes to FREE at once (R377). -/
def Garja.ctxWipe (g : Garja) (x by_ : Nat) : Garja :=
  let st := g.ctxState x
  if st = 0 then g
  else
    let g := g.finishAll (fun w => w.ctx == x) ST.ABANDONED
    let g := if st = 1 ∨ st = 2 then g.enterDraining x by_ else g
    let g := if st = 4 then g else g.forceDrain x by_
    g.clearDone x

/-- A partition of Garja (R377). -/
def Garja.partReset (g : Garja) (p by_ : Nat) : Garja :=
  let g := (g.c.partSubs p).foldl (fun g s => g.engineReset s) g
  if p != 0 then g
  else
    let g := (List.range 256).foldl (fun g x => (g.ctxWipe x by_).setSq x 0) g
    (g.onLane (fun l => { l with store := [] })).onFox (fun f => { f with spec := [], hold := [], undo := [], squash := none })

/-- Stage sets are freed, and the record of ended changes is cleared, by PARTITION and deeper levels (R288, R354). -/
def Chip.deepReset (c : Chip pt) : Chip pt := { c.stageReset with stageEnds := [] }

/-- What COLD leaves in the Den's registers (R378): the last request, COLDS and RESETS, and the marks of the capsule slots. -/
def Chip.denRegs (c : Chip pt) (n : Chip pt) : Chip pt :=
  let u := pt
  let cap := [PT.CAP_CTL_UNREAD0 u, PT.CAP_CTL_UNREAD1 u, PT.CAP_CTL_NEWEST u, PT.CAP_CTL_LOST u]
  let n := n.set (PT.RST_STATUS_DONE u).off (c.get (PT.RST_STATUS_DONE u).off)
  let n := cap.foldl (fun (n : Chip pt) f => n.wr f (c.rd f)) n
  { n with now := c.now, free := c.free,
           den := { run := c.den.run, queued := c.den.queued, caps := c.den.caps, capSeq := c.den.capSeq, dead := c.den.dead,
                    beatAt := c.now, sumAt := c.now, denAt := c.now } }

/-- COLD of Garja, orders 2 to 7 (R389); a part that failed twice stays at order 2. -/
def Garja.cold (g : Garja) : Garja :=
  let n := Garja.init g.c.prm
  let n := n.onC (fun c => g.c.denRegs c)
  if g.c.den.dead then n else n.startup

/-- The effects of a reset of Garja. -/
def Garja.rstEffect (g : Garja) (r : RstRun) : Garja :=
  match r.level with
  | 0 => g.engineReset r.sub
  | 1 => (g.ctxReset r.ctx r.by_).onC (·.stageCtxReset r.ctx)
  | 2 => ((g.onC Chip.deepReset).partReset r.part r.by_)
  | 3 => ([0, 1, 2, 3].foldl (fun (g : Garja) p => g.partReset p r.by_) (g.onC Chip.deepReset)).engineReset 1
  | 4 => g.cold
  | _ => g

/-- The effects take place, once no apply is under way (R382) and the capsule is captured. -/
def Garja.rstGo (g : Garja) : Garja :=
  match g.c.den.run with
  | none => g
  | some r =>
    if r.capturing || r.started || (g.c.applying && r.level != 7) then g
    else
      let g := g.onC (·.onDenSt (fun d => { d with run := some { r with started := true } }))
      ((g.rstEffect r).applyDue).settle

/-! ### Effects in Elzel (R376, R377, R392, R398) -/

/-- The ENGINE reset of a subsystem of Elzel (R142, R229, R305, R354, R375, R163). -/
def Elzel.engineReset (e : Elzel) (s : Nat) : Elzel :=
  match s with
  | 11 => e.cmbEngineReset
  | 13 => e.onHlt (fun h => { h with pairs := h.pairs.map (fun p => { p with since := e.c.now }) })
  | 14 => e.onC (·.wr EZ.PWR_CTL_EN 0)
  | 15 => e.poolAbandon.ptpEngineReset
  | _ => e

/-- Every downstream port held (R398). -/
def Chip.holdDown (c : Chip pt) : Chip pt := (List.range 64).foldl (fun c p => c.setHeld p true) c

/-- A partition of Elzel (R377). -/
def Elzel.partReset (e : Elzel) (p : Nat) : Elzel :=
  match p with
  | 0 => e.cmbEngineReset.onC Chip.holdDown
  | 1 => (e.engineReset 12).engineReset 13
  | 2 => e
  | 3 => (e.engineReset 15).fwCut
  | _ => e

/-- COLD of Elzel (R392, R398): the boot with the straps that stand, and every downstream port held. -/
def Elzel.cold (e : Elzel) : Elzel :=
  let straps := e.straps
  let e := e.fwCut
  let n : Elzel := { Elzel.init e.c.prm e.flash with console := e.console }
  let n := n.onC (fun c => e.c.denRegs c)
  (n.boot straps false true 231).onC (fun c => (List.range 64).foldl (fun c p => c.wr EZ.BIND_HELD 1 p) c)

def Elzel.rstEffect (e : Elzel) (r : RstRun) : Elzel :=
  match r.level with
  | 0 => e.engineReset r.sub
  | 2 => (e.onC Chip.deepReset).partReset r.part
  | 3 => [0, 1, 2, 3].foldl (fun (e : Elzel) p => e.partReset p) (e.onC Chip.deepReset)
  | 4 => e.cold
  | _ => e

def Elzel.rstGo (e : Elzel) : Elzel :=
  match e.c.den.run with
  | none => e
  | some r =>
    if r.capturing || r.started || (e.c.applying && r.level != 7) then e
    else
      let e := e.onC (·.onDenSt (fun d => { d with run := some { r with started := true } }))
      e.rstEffect r

/-! ### Taking a request -/

/-- A request to Garja's Den, which wakes it first (R379 to R381). -/
def Garja.rstTake (g : Garja) (r : RstRun) : Garja :=
  let g := g.onC (·.wake (if r.orders.isEmpty then 1 else 2))
  match g.c.rstJudge r with
  | .bad => g.onC (·.rstRefuse r ST.BADPARAM)
  | .busy => g.onC (·.rstRefuse r ST.BUSY)
  | .covered => g.onC (fun c => (c.rstNote r ST.OK).onDenSt (fun d =>
      { d with run := d.run.map (fun x => { x with orders := x.orders ++ r.orders }) }))
  | .wait => g.onC (fun c => (c.rstNote r ST.OK).onDenSt (fun d => { d with queued := some r }))
  | .preempt | .start => ((g.onC (·.rstOpen r)).capStart).rstGo

/-- A request to Elzel's Den. A part in DEN_ONLY leaves it first, and refuses with BUSY while a trip keeps it there (DEDUCED). -/
def Elzel.rstTake (e : Elzel) (r : RstRun) : Elzel :=
  let e := if e.c.pw.st != .denOnly then e.onC (·.wake 1) else if e.th.tripped && decide (e.th.tj ≥ 9500) then e else e.leaveDenOnly
  match (if e.c.pw.st == .denOnly then .busy else e.c.rstJudge r) with
  | .bad => e.onC (·.rstRefuse r ST.BADPARAM)
  | .busy => e.onC (·.rstRefuse r ST.BUSY)
  | .covered => e.onC (fun c => (c.rstNote r ST.OK).onDenSt (fun d =>
      { d with run := d.run.map (fun x => { x with orders := x.orders ++ r.orders }) }))
  | .wait => e.onC (fun c => (c.rstNote r ST.OK).onDenSt (fun d => { d with queued := some r }))
  | .preempt | .start => ((e.onC (·.rstOpen r)).capStart).rstGo

/-- The end of a capture: the reset goes on, or the capture alone is done, and a request that waited is judged again. -/
def Garja.capDone (g : Garja) : Garja :=
  match g.c.den.run with
  | none => g
  | some r =>
    if !r.capturing then g
    else
      let g := g.onC Chip.capEnd
      let g := if r.level == 7 then g.onC Chip.rstDone else g.rstGo
      match g.c.den.queued with
      | some q => (g.onC (·.onDenSt (fun d => { d with queued := none }))).rstTake q
      | none => g

def Elzel.capDone (e : Elzel) : Elzel :=
  match e.c.den.run with
  | none => e
  | some r =>
    if !r.capturing then e
    else
      let e := e.onC Chip.capEnd
      let e := if r.level == 4 then e else e.storeCapsule true (e.c.rd EZ.ROLE_PREFIX) e.c.ownCapsule
      let e := if r.level == 7 then e.onC Chip.rstDone else e.rstGo
      match e.c.den.queued with
      | some q => (e.onC (·.onDenSt (fun d => { d with queued := none }))).rstTake q
      | none => e

/-- RESET_DONE in Garja: the effects of the level are complete (R376, R389). -/
def Garja.rstFinish (g : Garja) : Garja :=
  match g.c.den.run with
  | none => g
  | some r =>
    let ok := match r.level with
      | 1 => g.ctxState r.ctx == 0
      | 4 => g.c.lock == 2
      | _ => true
    if r.capturing || !r.started || g.c.den.dead || !ok then g else g.onC Chip.rstDone

/-- RESET_DONE in Elzel: discovery on the ports that were held (R398), and after a COLD the capsule stored (R392). -/
def Elzel.rstFinish (e : Elzel) : Elzel :=
  match e.c.den.run with
  | none => e
  | some r =>
    if r.capturing || !r.started || (r.level == 4 && decide (e.c.rd EZ.BOOT_STATUS_STAGE < 4)) then e
    else
      let e := if r.level == 4 then e.storeCapsule true (e.c.rd EZ.ROLE_PREFIX) e.c.ownCapsule else e
      let e := if r.level ≥ 3 || (r.level == 2 && r.part == 0) then e.onC Chip.discoverAll else e
      e.onC Chip.rstDone

/-- Power good does not come (R389): orders 3 and 4 once more, and then order 2 for good. -/
def Garja.powerBad (g : Garja) : Garja :=
  match g.c.den.run with
  | none => g
  | some r =>
    if r.level != 4 || r.capturing || !r.started || g.c.lock == 2 then g
    else
      let dead := decide (r.fails ≥ 1)
      let g := g.onC (fun c => (if dead then c.wr GJ.RST_STATUS_STATUS ST.TIMEOUT else c).onDenSt (fun d =>
        { d with run := some { r with fails := r.fails + 1 }, dead := dead }))
      g.cold

/-! ### Heartbeats (R384 to R386) -/

/-- HB_INT in ns: values below 100 µs act as 100. -/
def Chip.hbInt (c : Chip pt) : Nat := max 100 (c.rd (PT.RST_HBCFG_HB_INT pt)) * 1000

/-- HEARTBEAT of Garja: on every port that is UP, and to the rings of its route while subsystem 7 runs. -/
def Garja.heartbeat (g : Garja) : Garja :=
  if !g.c.flag GJ.RST_HBCFG_HB_EN || decide (g.c.now < g.c.den.beatAt + g.c.hbInt) then g
  else
    let n := ((List.range 256).filter (fun x => g.ctxState x != 0)).length
    g.onC (fun c =>
      let c := (c.wr GJ.RST_BEAT_BEAT (c.rd GJ.RST_BEAT_BEAT + 1)).onDenSt (fun d => { d with beatAt := c.now })
      let ws := c.record (EV.HEARTBEAT .garja) none none c.stamp [i32 (c.rd GJ.RST_BEAT_BEAT), i8 c.lock, i16 n, i64 c.stallWord.toNat]
      let c := [0, 1].foldl (fun c p => if c.up p then c.sendUp p ws else c) c
      if c.subHeld 7 then c else c.enqueueRec ws (onesOf (bits (c.get (gjRouteOff (EV.HEARTBEAT .garja))) 63 48) 16))

/-- HEARTBEAT of Elzel: firmware advances FW_BEAT and writes its record (R386). -/
def Elzel.heartbeat (e : Elzel) : Elzel :=
  if !e.c.flag EZ.RST_HBCFG_HB_EN || e.c.subHeld 15 || decide (e.c.now < e.c.den.beatAt + e.c.hbInt) then e
  else
    let n := (e.c.jobs.filter (fun j => !(e.c.members j (e.c.relNext j)).isEmpty)).length
    e.onC (fun c =>
      let c := (c.wr EZ.RST_BEAT_FW_BEAT (c.rd EZ.RST_BEAT_FW_BEAT + 1)).onDenSt (fun d => { d with beatAt := c.now })
      c.raise (EV.HEARTBEAT .elzel) none none [i32 (c.rd EZ.RST_BEAT_FW_BEAT), i8 c.calLock, i16 n, i64 c.stallWord.toNat])

/-- A heartbeat of the die on port p has arrived. -/
def Elzel.beatIn (e : Elzel) (p : Nat) (stall : Word) : Elzel :=
  e.onC (·.onDenSt (fun d => { d with beats := (p, e.c.now, stall) :: d.beats.filter (fun b => b.1 != p) }))

/-- A STALL field at or above MARK. -/
def stallMarked (mark : Nat) (w : Word) : Bool := (List.range 8).any (fun i => decide (bits w (8 * i + 7) (8 * i) ≥ mark))

/-- HB_SUMMARY of a leaf (R385). -/
def Elzel.hbSummary (e : Elzel) : Elzel :=
  if !e.c.isLeaf || !e.c.flag EZ.RST_HBCFG_HB_EN || decide (e.c.now < e.c.den.sumAt + e.c.hbInt) then e
  else
    let beat := fun (p : Nat) => e.c.den.beats.find? (fun b => b.1 == p)
    let wait := e.c.rd EZ.RST_HBCFG_MISS * e.c.hbInt
    let missing := (List.range 64).filter (fun p => e.c.flag EZ.BIND_VALID p && (match beat p with
      | some b => decide (e.c.now ≥ b.2.1 + wait)
      | none => true))
    let stalled := (List.range 64).filter (fun p => match beat p with
      | some b => stallMarked (e.c.rd EZ.RST_HBCFG_MARK) b.2.2
      | none => false)
    e.onC (fun c => (c.onDenSt (fun d => { d with sumAt := c.now })).raise EV.HB_SUMMARY none none
      [i64 (maskOf missing), i64 (maskOf stalled), i64 c.stallWord.toNat, i16 (c.rd EZ.RST_HBCFG_HB_INT)])

/-- DEN_BEAT (R386). -/
def Chip.denBeat (c : Chip pt) : Chip pt :=
  if c.now < c.den.denAt + c.hbInt then c
  else (c.wr EZ.RST_BEAT_DEN_BEAT (c.rd EZ.RST_BEAT_DEN_BEAT + 1)).onDenSt (fun d => { d with denAt := c.now })

/-! ### The Den watcher (R332) -/

/-- The subsystem that writes event records. -/
def Chip.evtSub (c : Chip pt) : Nat := match c.part with | .garja => 7 | .elzel => 15

/-- Local time since which that subsystem is held in reset or has no clock; none while it runs. -/
def Chip.evtStopped (c : Chip pt) : Option Nat :=
  if c.pw.st == .burrow || c.pw.st == .denOnly then some c.pw.entryAt
  else if c.subHeld c.evtSub then c.den.run.map (·.at_)
  else none

/-- Since when the condition of R332 with this number holds: 1 a record waits, 2 a record waits while the subsystem stands, 3 a source is
pending while it stands. -/
def Chip.denSince (c : Chip pt) (reason : Nat) : Option Nat :=
  let rec_ := c.ev.queue.head?.map (·.at_)
  let pend := c.rd (PT.IRQ_PEND_PEND pt) != 0 || (pt == .garja && (List.range 24).any c.msgPend)
  match reason with
  | 1 => rec_
  | 2 => match rec_, c.evtStopped with
    | some a, some b => some (max a b)
    | _, _ => none
  | 3 => if pend then c.evtStopped else none
  | _ => none

/-- DEN_WATCH written by its route, once the subsystem runs. -/
def Chip.denServe (c : Chip pt) : Chip pt :=
  if !c.ev.denDue || c.evtStopped.isSome || c.den.dead then c
  else
    let c : Chip pt := { c with ev := { c.ev with denDue := false } }
    c.raise (EV.DEN_WATCH pt) none none
      [i8 (c.rd (PT.DEN_WATCH_REASON pt)), i16 (c.rd (PT.DEN_WATCH_TYPE pt)), i32 (c.rd (PT.DEN_WATCH_STAMP pt))]

/-- The watcher fires: source 9, and the reason with the oldest waiting record (zeros where none waits). It fires anew only after bit 9
has been cleared and a condition has held anew. -/
def Chip.denWatch (c : Chip pt) (reason : Nat) : Chip pt :=
  let u := pt
  let us := c.rd (PT.DEN_WATCH_WATCH_US u)
  match c.denSince reason with
  | none => c
  | some t =>
    if us = 0 || (c.rd (PT.IRQ_PEND_PEND u)).testBit 9 || decide (c.now < max t c.ev.denFrom + us * 1000) then c
    else
      let ws := (c.ev.queue.head?.map (·.words)).getD []
      let c := ((c.wr (PT.DEN_WATCH_FIRED u) 1).wr (PT.DEN_WATCH_REASON u) reason).wr (PT.DEN_WATCH_TYPE u) (recType ws)
      let c := (c.wr (PT.DEN_WATCH_STAMP u) (recStamp ws)).latchIrq 9
      Chip.denServe { c with ev := { c.ev with denDue := true } }

/-! ### Meanings -/

/-- DEN_WATCH (R332). -/
def execDenWatch (u : Part) (reason : BitVec 2) (s : State) : Out := .next (s.onDen u (·.denWatch reason.toNat))

/-- A request of a part that can make it: a tile is refused (R379), and so is what the target port does not admit (R422); a tile or a
processor of another part names nothing. -/
def State.reset_ (s : State) (u : Part) (r : Requester) (q : RstRun) : State :=
  match u with
  | .garja =>
    s.onGj (fun g =>
      match r with
      | .tile _ | .host => g.answer r ST.DENIED
      | .proc p => if p.toNat ≥ g.c.prm.nProc then g.answer r ST.DENIED else g.rstTake { q with by_ := ownerCode r }
      | _ => g.rstTake { q with by_ := ownerCode r })
  | .elzel =>
    match r with
    | .tile _ | .proc _ => s
    | _ => { s with ez := s.ez.rstTake { q with by_ := ownerCode r } }.flushHost

/-- RESET_ENGINE (R376). -/
def execResetEngine (u : Part) (r : Requester) (sub : BitVec 5) (s : State) : Out := .next (s.reset_ u r { level := 0, sub := sub.toNat })
/-- RESET_CONTEXT (R205). -/
def execResetContext (u : Part) (r : Requester) (ctx : BitVec 8) (s : State) : Out := .next (s.reset_ u r { level := 1, ctx := ctx.toNat })
/-- RESET_PARTITION (R377). -/
def execResetPartition (u : Part) (r : Requester) (part : BitVec 8) (s : State) : Out := .next (s.reset_ u r { level := 2, part := part.toNat })
/-- RESET_UNIT (R376). -/
def execResetUnit (u : Part) (r : Requester) (s : State) : Out := .next (s.reset_ u r { level := 3 })
/-- COLD_RESET (R389). -/
def execColdReset (u : Part) (r : Requester) (s : State) : Out := .next (s.reset_ u r { level := 4 })
/-- CAPTURE_ONLY (R393). -/
def execCaptureOnly (u : Part) (r : Requester) (s : State) : Out := .next (s.reset_ u r { level := 7 })

/-- A change of both parts by their Dens. -/
def State.onDens (s : State) (u : Part) (f : Garja → Garja) (h : Elzel → Elzel) : State :=
  match u with
  | .garja => s.onGj f
  | .elzel => { s with ez := h s.ez }.flushHost

/-- POWER_GOOD_TIMEOUT (R389): the COLD of an Elzel has no such step (R392). -/
def execPowerGoodTimeout (u : Part) (s : State) : Out := .next (s.onDens u Garja.powerBad id)
/-- CAPSULE_CAPTURE_DONE (R394). -/
def execCapsuleCaptureDone (u : Part) (s : State) : Out := .next (s.onDens u Garja.capDone (fun e => e.capDone.sumSync))
/-- RESET_DONE (R380). -/
def execResetDone (u : Part) (s : State) : Out := .next (s.onDens u (fun g => g.rstFinish.onC Chip.denServe) (fun e => ((e.rstFinish.onC Chip.denServe).pump).sumSync))
/-- RESET_BOUND_OVER (R380). -/
def execResetBoundOver (u : Part) (s : State) : Out := .next (s.onDen u Chip.rstOver)

/-- HEARTBEAT (R384, R386). -/
def execHeartbeat (u : Part) (s : State) : Out :=
  match u with
  | .garja => .next (s.onGj Garja.heartbeat)
  | .elzel => .next (s.onEz Elzel.heartbeat)
/-- HB_SUMMARY (R385). -/
def execHbSummary (s : State) : Out := .next (s.onEz Elzel.hbSummary)
/-- DEN_BEAT (R386). -/
def execDenBeat (s : State) : Out := .next (s.onDen .elzel Chip.denBeat)

end Sys2Proof.Machine
end

