-- ==== Sys2Proof/Machine/Access.lean ====
section
/-!
DEFINITION. Sys2Proof/Machine/Access.lean: a register access from outside, before it reaches its register (R379, R402 to R404, R421, R422,
R457, R461): the target port of Garja and BAR0 of Elzel.
-/
namespace Sys2Proof.Machine

/-- The request that a word of RST_CTL makes. -/
def rstOfWord (w : Word) (by_ : Nat) : RstRun :=
  { level := bits w 63 61, sub := bits w 60 56, ctx := bits w 55 48, part := bits w 47 40, by_ := by_ }

/-! ### Garja -/

/-- The Den registers of R332 and R379, which a reset of subsystem 7 leaves reachable. -/
def gjDenReg (off : Nat) : Bool :=
  (decide (0xEE00 ≤ off) && decide (off < 0xEE80)) || (decide (0xFC00 ≤ off) && decide (off < 0xFC38))

/-- A register write once it is admitted (R282, R379, R403): its status. -/
def Garja.regDirect (g : Garja) (by_ off : Nat) (mask data : Word) : Garja × Nat :=
  if off == GJ.RST_CTL then (g.rstTake (rstOfWord (data &&& mask) by_), ST.OK)
  else if (regRow .garja off).isNone then (g, ST.OK)
  else if g.c.regLocked off then (g.onC Chip.stgIgn, ST.DENIED)
  else (((g.regPut none by_ off mask data).applyDue).settle, ST.OK)

/-- The refusal of a register access by the target port (R421, R422), Den registers aside. -/
def Garja.regRefuse (g : Garja) (r : Requester) (off : Nat) : Option Nat :=
  if g.c.subHeld 7 && !gjDenReg off then some ST.BUSY
  else Garja.portRefuse { g with c := g.c.onDenSt (fun d => { d with run := none }) } r 7

/-- A write of the register window (R422): its answer. -/
def Garja.regAccess (g : Garja) (r : Requester) (off : Nat) (mask data : Word) : Garja :=
  let g := g.portWake
  if mask != w64 (2 ^ 64 - 1) || off % 8 != 0 || decide (off ≥ regWindow .garja) then g.answer r ST.BADPARAM
  else match g.regRefuse r off with
  | some st => g.answer r st
  | none =>
    match r with
    | .tile _ => g.answer r ST.DENIED
    | _ => let (g, st) := g.regDirect (ownerCode r) off mask data; g.answer r st

/-! ### Elzel -/

/-- The registers that BAR0 serves before STAGE reads RUN (R457). -/
def ezEarlyReg (off : Nat) : Bool :=
  off == EZ.BOOT_STATUS || off == EZ.FW_ADDR || off == EZ.FW_CTL || (decide (0xE70000 ≤ off) && decide (off < 0xE70038))

/-- EZ_FW_CTL (R461): LEN, and the operation that OP names. -/
def Elzel.fwCtlPut (e : Elzel) (host : Mem) (mask data : Word) : Elzel × Nat :=
  let e := e.onC (·.storeRw EZ.FW_CTL mask data)
  let op := bits (data &&& mask) 63 61
  if op == 0 then (e, ST.OK) else e.fwOp host op

/-- A register write in Elzel: its status. The host's memory is what an operation of EZ_FW_CTL reads. -/
def Elzel.regDirect (e : Elzel) (host : Mem) (by_ off : Nat) (mask data : Word) : Elzel × Nat :=
  if e.c.rd EZ.BOOT_STATUS_STAGE != 4 && !ezEarlyReg off then (e, ST.OK)
  else if off == EZ.RST_CTL then (e.rstTake (rstOfWord (data &&& mask) by_), ST.OK)
  else if off == EZ.FW_CTL then e.fwCtlPut host mask data
  else if (regRow .elzel off).isNone && !(decide (0x70000 ≤ off) && decide (off < 0xB0000)) then (e, ST.OK)
  else if e.c.regLocked off then (e.onC Chip.stgIgn, ST.DENIED)
  else e.regPut none off mask data

/-- The bytes of a BAR0 write that acts (R404): a whole word, or half a word of the MSI-X table or pending bits. -/
def bar0Takes (off : Nat) (mask : Word) : Bool :=
  off % 8 == 0 && decide (off < regWindow .elzel) && (mask == w64 (2 ^ 64 - 1)
    || ((mask == w64 (2 ^ 32 - 1) || mask == w64 (2 ^ 64 - 2 ^ 32)) && decide (0xF00000 ≤ off)))

/-- A write of BAR0 by the host, or by the debug path (R404). -/
def Elzel.regAccess (e : Elzel) (host : Mem) (r : Requester) (off : Nat) (mask data : Word) : Elzel :=
  match r with
  | .host | .debug => if bar0Takes off mask then (e.regDirect host (ownerCode r) off mask data).1 else e
  | _ => e

end Sys2Proof.Machine
end

