-- ==== Sys2Proof/Machine/Commands.lean ====
section
/-!
DEFINITION. Sys2Proof/Machine/Commands.lean: command packets (R338 to R354): the checks of R346, what each command does in Garja and in
Elzel, forwarding, and the queue pairs.
-/
namespace Sys2Proof.Machine

variable {pt : Part}

/-! ### The checks of R346 -/

def allBits : Nat := 2 ^ 64 - 1
/-- The bits hi..lo. -/
def msk (hi lo : Nat) : Nat := put hi lo allBits

/-- The bits that each body word of an opcode may set (R347); none for an opcode that is not defined. -/
def cmdMasks (op : Nat) (ws : List Word) : Option (List Nat) :=
  if op == CM.NOP || op == CM.IDENTIFY then some []
  else if op == CM.REG_READ then some [msk 47 24 + msk 3 0]
  else if op == CM.REG_WRITE then some [msk 47 24, allBits, allBits]
  else if op == CM.CTX_CMD then some [msk 63 41]
  else if op == CM.START then some [msk 63 44, msk 47 0]
  else if op == CM.STG_OPEN then some [msk 63 30 + msk 11 0, msk 47 0]
  else if op == CM.STG_ADD then some ((msk 63 32 + msk 4 0) :: List.replicate (3 * bits (ws.getD 0 0) 4 0) allBits)
  else if op == CM.STG_PREPARE then some [msk 63 32, allBits, allBits]
  else if op == CM.STG_COMMIT || op == CM.STG_ABORT || op == CM.STG_QUERY then some [msk 63 32]
  else if op == CM.JOB_SUBMIT then some [msk 63 44 + msk 31 0, allBits, msk 63 16, allBits, allBits]
  else if op == CM.JOB_CHANGE then some [msk 63 44 + msk 31 0, allBits, msk 63 32, 0, allBits]
  else if op == CM.JOB_END then some [msk 63 52 + msk 31 0, msk 47 0]
  else if op == CM.BAR_MOVE then some [msk 63 51]
  else if op == CM.DISCOVER then some [allBits]
  else if op == CM.DIE_WAKE then some [msk 5 0]
  else if op == CM.TXQ_SUBMIT then some [msk 63 63, allBits, allBits, msk 63 12]
  else if op == CM.TXQ_STAMP then some [msk 63 63 + msk 2 0]
  else if op == CM.HEALTH_READ then some [msk 17 0]
  else if op == CM.OWL_PAIR then some [msk 63 51 + msk 35 0]
  else if op == CM.ROLLBACK then some [msk 63 52, msk 47 0]
  else if op == CM.JRNL_COPY then some [msk 63 60, allBits, allBits, msk 63 32]
  else if op == CM.RESET then some [msk 63 40]
  else if op == CM.CAPSULE_READ then some [msk 63 63 + msk 17 0, allBits, msk 63 32]
  else none

/-- The kind of unit executes the opcode (R347). -/
def Chip.executes (c : Chip pt) (op : Nat) : Bool :=
  match c.part with
  | .garja => op ≤ CM.START || (decide (CM.STG_OPEN ≤ op) && decide (op ≤ CM.STG_QUERY)) || op == CM.RESET
  | .elzel =>
    if op == CM.CTX_CMD || op == CM.START then false
    else if op == CM.JOB_SUBMIT || op == CM.JOB_CHANGE || op == CM.JOB_END || op == CM.OWL_PAIR || op == CM.ROLLBACK then c.isRootA
    else if op == CM.BAR_MOVE then c.isRoot
    else true

/-- The stated ranges of fields that are not the full range of their bits. -/
def cmdRange (op : Nat) (ws : List Word) : Bool :=
  let w := fun (i : Nat) => ws.getD i 0
  if op == CM.STG_ADD then decide (1 ≤ bits (w 0) 4 0) && decide (bits (w 0) 4 0 ≤ 16)
  else if op == CM.TXQ_SUBMIT then decide (64 ≤ bits (w 3) 29 18) && decide (bits (w 3) 29 18 ≤ 1522)
  else if op == CM.JRNL_COPY then decide (bits (w 0) 63 60 ≤ 4)
  else if op == CM.RESET then decide (bits (w 0) 63 61 ≤ 4)
  else if op == CM.CAPSULE_READ then !(bit (w 0) 63 && bits (w 0) 17 0 != 0)
  else true

/-- The body is as long as the opcode asks, its spare word zero, and sets no bit that is not a field's. -/
def cmdForm (masks : List Nat) (ws : List Word) : Bool :=
  ws.length == (masks.length + 1) / 2 * 2
    && (List.range ws.length).all (fun i => ws.getD i 0 &&& ~~~(w64 (masks.getD i 0)) == 0)

/-- The header sets no reserved bit, and BLEN is the body's length. -/
def hdrForm (w0 w1 : Word) (ws : List Word) : Bool := bits w0 1 0 == 0 && bits w1 47 0 == 0 && ws.length == 2 * hdrBlen w0

/-- The first failure of R346, with the body of its reply; `bad` tells a fault of form that the path has found. -/
def Chip.cmdCheck (c : Chip pt) (w0 w1 : Word) (ws : List Word) (bad : Bool) : Option Ans :=
  let op := hdrOp w0
  if !c.speaks (hdrLvl w0) then some { st := ST.VERSION, body := [w64 (put 63 56 c.lvlMin + put 55 48 c.lvlMax)] }
  else match cmdMasks op ws with
  | none => some { st := ST.BADOP }
  | some masks =>
    if !c.executes op then some { st := ST.BADOP }
    else if bad || !hdrForm w0 w1 ws || !cmdForm masks ws || !cmdRange op ws then some { st := ST.BADPARAM }
    else none

/-! ### Garja (R339, R345, R350) -/

/-- IDENTIFY of Garja (R347, R358). -/
def Garja.identify (g : Garja) : List Word :=
  let c := g.c
  [w64 (put 62 62 (b2n g.flagBuild) + put 61 54 c.lvlMin + put 53 46 c.lvlMax + put 45 30 c.prm.stepping.toNat + put 29 14 c.prm.hostStepping.toNat),
   g.fprint,
   w64 (put 63 63 (c.rd GJ.TREE_A_VALID) + put 62 62 (bits (c.get GJ.TREE_B) 63 63) + put 61 44 (bits (c.get GJ.TREE_A) 17 0)
     + put 43 26 (bits (c.get GJ.TREE_B) 17 0) + put 17 0 (c.rd GJ.CHIP_CHIP)),
   w64 (put 58 58 (c.rd GJ.CHIP_VALID))]

/-- A run of registers lies in the window, at a word. -/
def regsIn (u : Part) (off n : Nat) : Bool := off % 8 == 0 && decide (off + 8 * n ≤ regWindow u)

/-- The Den of Garja serves the command itself (R379). -/
def gjDenCmd (op : Nat) (ws : List Word) : Bool :=
  let off := bits (ws.getD 0 0) 47 24
  op == CM.RESET || ((op == CM.REG_READ || op == CM.REG_WRITE) && gjDenReg off)

/-- A command that Garja has taken and whose checks have passed. -/
def Garja.runCmd (g : Garja) (o : Order) (op : Nat) (ws : List Word) : Garja :=
  let w := fun (i : Nat) => ws.getD i 0
  let by_ := Order.by_ o .garja
  let off := bits (w 0) 47 24
  let ans := fun (g : Garja) (a : Ans) => g.onC (·.reply o op a.st a.detail a.index a.body)
  if op == CM.NOP then ans g { st := ST.OK }
  else if op == CM.IDENTIFY then ans g { st := ST.OK, body := g.identify }
  else if op == CM.REG_READ then
    (if !regsIn .garja off (bits (w 0) 3 0 + 1) then ans g { st := ST.BADPARAM }
     else let (g, l) := g.readRun off (bits (w 0) 3 0 + 1); ans g { st := ST.OK, body := l })
  else if op == CM.REG_WRITE then
    (if !regsIn .garja off 1 then ans g { st := ST.BADPARAM }
     else let (g, st) := g.regDirect by_ off (w 1) (w 2); ans g { st := st })
  else if op == CM.CTX_CMD then g.ctxCmdPacket by_ o (w 0)
  else if op == CM.START then g.startCmd o (bits (w 0) 63 56) (bits (w 0) 55 44) (bits (w 1) 47 0)
  else if op == CM.RESET then g.rstTake { rstOfWord (w 0) by_ with orders := [o] }
  else let (g, a) := g.stageRun op by_ ws; ans g a

/-- The source executes a command, or has a reply that is not yet written (R350). -/
def Chip.srcBusy (c : Chip pt) (src : CmdSrc) : Bool :=
  c.cmd.open_.any (fun x => x.src == src)
    || (match src with | .queue q => c.cmd.replies.any (fun r => r.q == q.toNat) | .port _ => false)

/-- Garja takes a command of a source: one at a time, of up to four sources at once (R350), and while subsystem 7 runs; what the Den
serves it takes at any time (R379). -/
def Garja.takesCmd (g : Garja) (o : Order) (op : Nat) (ws : List Word) : Bool :=
  g.c.clocked && (gjDenCmd op ws || (!g.c.srcBusy o.src && !g.c.subHeld 7 && decide (g.c.cmd.open_.length < 4)))

/-- A command on its path: taken, checked and run. One that Garja does not take now stays where it is. -/
def Garja.submitCmd (g : Garja) (o : Order) (w0 w1 : Word) (ws : List Word) (tagOk : Bool) : Garja :=
  if !g.takesCmd o (hdrOp w0) ws then g
  else
    let g := g.onC (fun c => (c.wake 2).takeCmd o)
    match g.c.cmdCheck w0 w1 ws (hdrRoute w0 || !tagOk) with
    | some a => g.onC (·.reply o (hdrOp w0) a.st a.detail a.index a.body)
    | none => (((g.runCmd o (hdrOp w0) ws).intake).applyDue).settle

/-- The command in a CMD packet (R345): its order, header and body. -/
def cmdOf (p : Nat) (pkt : Pkt) : Order × Word × Word × List Word :=
  let m := mgmtOf (pkt.headD 0)
  let ws := wordsOf (pkt.drop 1)
  let w0 := ws.getD 0 0
  ({ src := .port (BitVec.ofNat 7 p), tag := BitVec.ofNat 16 m.tag, lvl := BitVec.ofNat 8 (hdrLvl w0), routed := m.routed,
     sender := BitVec.ofNat 18 m.src }, w0, ws.getD 1 0, ws.drop 2)

/-- A MGMT packet of a class. -/
def mgmtIs (cls : Nat) (pkt : Pkt) : Bool := flitType (pkt.headD 0) == 6 && (mgmtOf (pkt.headD 0)).cls == cls

/-- A CMD on port p of Garja. -/
def Garja.cmdIn (g : Garja) (p : Nat) (pkt : Pkt) : Garja :=
  let (o, w0, w1, ws) := cmdOf p pkt
  if !mgmtIs 4 pkt || !g.c.up p || !g.takesCmd o (hdrOp w0) ws then g
  else (g.onC (·.take p .mgmt pkt)).submitCmd o w0 w1 ws (hdrTag w0 == (mgmtOf (pkt.headD 0)).tag)

/-! ### Elzel: its own commands -/

/-- IDENTIFY of Elzel (R347): the fields of a die do not apply. -/
def Elzel.identify (e : Elzel) : List Word :=
  let c := e.c
  [w64 (2 ^ 63 + put 61 54 c.lvlMin + put 53 46 c.lvlMax + put 45 30 (c.rd EZ.BOOT_STATUS_FW_LEVEL)), 0, 0,
   w64 (put 63 62 (c.rd EZ.ROLE_ROLE) + put 61 61 (c.rd EZ.ROLE_DOMAIN) + put 60 59 (c.rd EZ.ROLE_DEPTH))]

/-- TXQ_SUBMIT (R152, R347): BUSY when the queue is full. -/
def Elzel.txqSubmit (e : Elzel) (host : Mem) (p addr : Nat) (d0 d1 : Word) : Elzel × Ans :=
  let x := e.port p
  if x.txq.length + (if x.head == .none_ then 0 else 1) ≥ 32 then (e, { st := ST.BUSY })
  else
    let d : TxDesc := ⟨d0, d1⟩
    let e : Elzel := { e with frames := memWriteBytes e.frames (bufAddr p d.buf) (memReadBytes host addr d.len) }
    (e.onPtp p (fun x => { x with txq := x.txq ++ [d] }), { st := ST.OK })

/-- Records of the transmit stamp queue, until it is empty or n have been read. -/
def Elzel.stampRun (e : Elzel) (p : Nat) : Nat → Elzel × List Word
  | 0 => (e, [])
  | n + 1 =>
    if (e.port p).tsq.isEmpty then (e, [])
    else
      let (e, w) := e.etsRead p
      let s := e.c.get (EZ.ETS_STAMP + 0x100 * p)
      let (e, l) := e.stampRun p n
      (e, w :: s :: l)

/-- DIE_WAKE (R313): the port's transmitter is held in electrical idle for 4 µs. -/
def Chip.dieWake (c : Chip pt) (p : Nat) : Chip pt := c.onLink p (fun l => { l with idleUntil := c.now + 4000 })

/-- HEALTH_READ (R363): the score record of a die of this leaf. -/
def Elzel.healthRead (e : Elzel) (chip : Nat) : Ans :=
  match (List.range 64).find? (fun p => e.c.flag EZ.HLT_DIE_W0_VALID p && e.c.rd EZ.HLT_DIE_W0_CHIP p == chip) with
  | some p => { st := ST.OK, body := [EZ.HLT_DIE_W0, EZ.HLT_DIE_W1, EZ.HLT_DIE_W2, EZ.HLT_DIE_W3].map (fun o => e.view (o + 0x20 * p)) }
  | none => { st := ST.BADPARAM }

/-- OWL_PAIR (R366, R367): CHIP_A is the subject and CHIP_B the owl (DEDUCED: the manual does not name them). -/
def Elzel.owlPair (e : Elzel) (job : Nat) (en : Bool) (subj owl : Nat) : Elzel × Ans :=
  let paired := (List.range 64).find? (fun k => e.c.flag EZ.HLT_OWL_W0_VALID k && e.c.rd EZ.HLT_OWL_W0_JOB k == job
    && e.c.rd EZ.HLT_OWL_W0_SUBJ k == subj && e.c.rd EZ.HLT_OWL_W0_OWL k == owl)
  if !en then
    (match paired with
     | some k => (e.endPair k 6, { st := ST.OK })
     | none => (e, { st := ST.BADPARAM }))
  else match e.planOf job with
  | none => (e, { st := ST.DENIED })
  | some p =>
    if !p.chips.contains subj then (e, { st := ST.BADPARAM })
    else if (e.owlEntry false subj).isSome then (e, { st := ST.DENIED })
    else match (List.range 64).find? (fun k => e.c.spareFree k && e.c.rd EZ.HLT_SPARE_CHIP k == owl),
               (List.range 64).find? (fun k => !e.c.flag EZ.HLT_OWL_W0_VALID k) with
    | some sp, some k => (e.startPair k sp subj ((e.portToChip subj).getD 64) job false, { st := ST.OK })
    | _, _ => (e, { st := ST.BUSY })

/-- A CHANGE that the coordinator has under way, or that waits to be planned (R279). -/
def Elzel.changeTaken (e : Elzel) (change : Nat) : Bool :=
  e.mgr.coords.any (fun k => k.change == change) || e.mgr.planq.any (fun q => q.change == change)

/-- JOB_SUBMIT and JOB_CHANGE (R348): the image is read whole, kept in SNAP (R371) and made blocks. -/
def Elzel.jobImage (e : Elzel) (host : Mem) (o : Order) (submit : Bool) (ws : List Word) : Elzel × Option Ans :=
  let w := fun (i : Nat) => ws.getD i 0
  let job := bits (w 0) 63 52
  let ctx := bits (w 0) 51 44
  let change := bits (w 0) 31 0
  let addr := (w 1).toNat
  let len := bits (w 2) 63 32
  if e.changeTaken change then (e, some { st := ST.DENIED })
  else match imageBlocks (fun i => memReadWord host (addr + i)) len job ctx with
  | .error i => (e, some { st := ST.BADPARAM, detail := 33, index := i })
  | .ok blocks =>
    let e := e.onC (·.jrnlAppend 2 (memReadBytes host addr len))
    if submit then
      (e.jobSubmit { order := o, job := job, ctx := ctx, change := change, fp := w 4, dp := bits (w 2) 31 16, tReq := (w 3).toNat,
                     blocks := blocks }, none)
    else (e.jobChange o job ctx change (w 4) blocks, none)

/-- JRNL_COPY (R356, R441): the bytes of a region, with zeros for each block that holds an uncorrectable error, and the first such block of the copy. -/
def Elzel.jrnlCopy (e : Elzel) (host : Nat) (r off n : Nat) : Elzel × Ans :=
  let size := e.c.regionSize r
  let off := off % size
  let block := fun (i : Nat) => (off + i) / 32 - off / 32
  let bad := fun (i : Nat) => e.hbmBad.contains ((e.c.regionBase r + (off + i) % size) / 32)
  let bs := (e.c.regionBytes r off n).zipIdx.map (fun x => if bad x.2 then 0 else x.1)
  match e.hbmBad.isEmpty, (List.range n).find? bad with
  | false, some i => (e.toHost host bs, { st := ST.BADPARAM, detail := 2, index := block i })
  | _, _ => (e.toHost host (e.c.regionBytes r off n), { st := ST.OK })

/-- A command of Elzel's own whose checks have passed: its answer, or none while it waits or has been answered. -/
def Elzel.execCmd (e : Elzel) (host : Mem) (o : Order) (op : Nat) (ws : List Word) : Elzel × Option Ans :=
  let w := fun (i : Nat) => ws.getD i 0
  let off := bits (w 0) 47 24
  let job := bits (w 0) 63 52
  if op == CM.NOP then (e, some { st := ST.OK })
  else if op == CM.IDENTIFY then (e, some { st := ST.OK, body := e.identify })
  else if op == CM.REG_READ then
    (if !regsIn .elzel off (bits (w 0) 3 0 + 1) then (e, some { st := ST.BADPARAM })
     else let (e, l) := e.readRun off (bits (w 0) 3 0 + 1); (e, some { st := ST.OK, body := l }))
  else if op == CM.REG_WRITE then
    (if !regsIn .elzel off 1 then (e, some { st := ST.BADPARAM })
     else let (e, st) := e.regDirect host (Order.by_ o .elzel) off (w 1) (w 2); (e, some { st := st }))
  else if op == CM.JOB_SUBMIT then e.jobImage host o true ws
  else if op == CM.JOB_CHANGE then e.jobImage host o false ws
  else if op == CM.JOB_END then
    (if e.changeTaken (bits (w 0) 31 0) then (e, some { st := ST.DENIED }) else e.jobEnd o job (bits (w 0) 31 0) (bits (w 1) 47 0))
  else if op == CM.BAR_MOVE then e.barMove o job (bits (w 0) 51 51)
  else if op == CM.DISCOVER then
    ((onesOf (w 0).toNat 64).foldl (fun (e : Elzel) n => e.onC (·.discover n)) e, some { st := ST.OK })
  else if op == CM.DIE_WAKE then (e.onC (·.dieWake (bits (w 0) 5 0)), some { st := ST.OK })
  else if op == CM.TXQ_SUBMIT then
    (let (e, a) := e.txqSubmit host (bits (w 0) 63 63) (w 1).toNat (w 2) (w 3); (e, some a))
  else if op == CM.TXQ_STAMP then
    (let (e, l) := e.stampRun (bits (w 0) 63 63) (bits (w 0) 2 0 + 1); (e, some { st := ST.OK, detail := l.length / 2, body := l }))
  else if op == CM.HEALTH_READ then (e, some (e.healthRead (bits (w 0) 17 0)))
  else if op == CM.OWL_PAIR then
    (let (e, a) := e.owlPair job (bit (w 0) 51) (bits (w 0) 35 18) (bits (w 0) 17 0); (e, some a))
  else if op == CM.ROLLBACK then e.rollback o job (bits (w 1) 47 0)
  else if op == CM.JRNL_COPY then
    (let (e, a) := e.jrnlCopy (w 2).toNat (bits (w 0) 63 60) (w 1).toNat (bits (w 3) 63 32); (e, some a))
  else if op == CM.RESET then (e.rstTake { rstOfWord (w 0) (Order.by_ o .elzel) with orders := [o] }, none)
  else if op == CM.CAPSULE_READ then (e.capsuleCmd o (bit (w 0) 63) (bits (w 0) 17 0) (w 1).toNat (bits (w 2) 63 32), none)
  else let (e, a) := e.stageRun op (Order.by_ o .elzel) ws; (e, some a)

/-- A command that Elzel executes: checked and run. -/
def Elzel.runCmd (e : Elzel) (host : Mem) (o : Order) (w0 w1 : Word) (ws : List Word) : Elzel :=
  let e := e.onC (·.takeCmd o)
  let ans := fun (e : Elzel) (a : Ans) => e.onC (·.reply o (hdrOp w0) a.st a.detail a.index a.body)
  match e.c.cmdCheck w0 w1 ws false with
  | some a => ans e a
  | none =>
    match e.execCmd host o (hdrOp w0) ws with
    | (e, some a) => ans e a
    | (e, none) => e

/-! ### Elzel: forwarding (R345, R351) -/

/-- A STG_ADD whose body is as long as its COUNT asks. -/
def addWhole (ws : List Word) : Bool :=
  let n := bits (ws.getD 0 0) 4 0
  decide (1 ≤ n) && decide (n ≤ 16) && ws.length == (2 + 3 * n) / 2 * 2

/-- A command sent on into the tree; none while no entry of the pool is free. On its way to a die a body of more than four words is an
STG_ADD, which is split, or is refused (R222; the refusal is DEDUCED). -/
def Elzel.forward (e : Elzel) (o : Order) (d : Option Dest) (w0 w1 : Word) (ws : List Word) : Option Elzel :=
  let tmo := bits w1 63 48
  if e.freeEntry.isNone then none
  else
    let e := e.onC (·.takeCmd o)
    match d with
    | none => e.sendCmd none w0 w1 ws tmo (.submit o)
    | some d =>
      if d.routed && d.level == 0 && decide (ws.length > 4) then
        (if hdrOp w0 == CM.STG_ADD && addWhole ws then
           some (e.splitNext o d (bits (ws.getD 0 0) 63 32) 0 tmo (entriesIn (bits (ws.getD 0 0) 4 0) (ws.drop 1)))
         else some (e.onC (·.reply o (hdrOp w0) ST.BADPARAM)))
      else e.sendCmd (some d) w0 w1 ws tmo (.submit o)

/-- A tag that a command of the same queue pair still holds (R351). -/
def Chip.dupTag (c : Chip pt) (o : Order) : Bool :=
  match o.src with
  | .queue _ => c.cmd.open_.any (fun x => x.src == o.src && x.tag == o.tag)
  | .port _ => false

/-- A duplicate tag: refused, counted, and nothing executed; the command that holds the tag still waits for its own reply. -/
def Chip.refuseDup (c : Chip pt) (o : Order) (op : Nat) : Chip pt :=
  (c.sendReply o (replyWords o op ST.BADPARAM 0 0 c.stamp [])).inc EZ.CMD_STATUS_DUP_TAG

/-- Firmware runs (R338, R457). -/
def Elzel.fwRuns (e : Elzel) : Bool := e.c.clocked && e.c.rd EZ.BOOT_STATUS_STAGE == 4 && !e.c.subHeld 15

/-- A command on its path to Elzel, which it wakes (R315): refused, run, or sent on; none while it cannot be taken. -/
def Elzel.submitCmd (e : Elzel) (host : Mem) (o : Order) (w0 w1 : Word) (ws : List Word) : Option Elzel :=
  if !e.fwRuns then none
  else
    let e := e.onC (·.wake 1)
    if e.c.dupTag o then some (e.onC (·.refuseDup o (hdrOp w0)))
    else if !hdrRoute w0 then some (e.runCmd host o w0 w1 ws)
    else if hdrByChip w0 && hdrLevel w0 != 0 then some (e.onC (fun c => (c.takeCmd o).reply o (hdrOp w0) ST.BADPARAM))
    else match e.targetOf w0 with
    | .self => some (e.runCmd host o w0 w1 ws)
    | .dest d w0 => e.forward o (some d) w0 w1 ws
    | .unknown => e.forward o none w0 w1 ws

/-- A CMD on port p of Elzel: a routed one for another part goes on as it stands, by the hardware of the ports (R91, R338). -/
def Elzel.cmdIn (e : Elzel) (host : Mem) (p : Nat) (pkt : Pkt) : Elzel :=
  let h := pkt.headD 0
  let taken := e.onC (·.take p .mgmt pkt)
  let (o, w0, w1, ws) := cmdOf p pkt
  if !mgmtIs 4 pkt || !e.c.up p then e
  else if (mgmtOf h).routed then
    (if e.c.portTimeOnly p then taken.onC (·.countDir p)
     else match e.c.mgmtRoute h with
     | .nowhere => taken.onC (·.countDir p)
     | .to_ q => taken.onC (·.send q .mgmt pkt)
     | .here => (taken.submitCmd host o w0 w1 ws).getD e)
  else (taken.submitCmd host o w0 w1 ws).getD e

/-- A REPLY on port p (R345, R351): the Elzel that holds its tree tag takes it; another sends it on. -/
def Elzel.replyIn (e : Elzel) (p : Nat) (pkt : Pkt) : Elzel :=
  let h := pkt.headD 0
  let m := mgmtOf h
  if !mgmtIs 5 pkt || !e.c.up p then e
  else
    let e := e.onC (·.take p .mgmt pkt)
    let ws := wordsOf (pkt.drop 1)
    let w0 := ws.getD 0 0
    let w1 := ws.getD 1 0
    let a : Ans := { st := repStatus w0, detail := repDetail w1, index := repIndex w1, body := (ws.drop 2).take (2 * hdrBlen w0),
                     stamp := some (bits w1 31 0) }
    if m.routed && e.c.portTimeOnly p then e.onC (·.countDir p)
    else match (if !m.routed || m.dst == e.c.rd EZ.ROLE_PREFIX then e.poolFind m.tag else none) with
    | some x => (e.freeTag x.idx).answered x a
    | none =>
      if !m.routed then e.lateReply
      else match e.c.mgmtRoute h with
      | .here => e.lateReply
      | .to_ q => e.onC (·.send q .mgmt pkt)
      | .nowhere => e.onC (·.countDir p)

/-! ### Queue pairs (R342 to R344, R350) -/

/-- Slots of a queue of 2^LOG2N. -/
def Chip.queueSize (c : Chip pt) (f : Fld) (q : Nat) : Nat := 2 ^ min 12 (max 4 (c.rd f q))

/-- The pairs that are enabled, ascending. -/
def Chip.pairsOn (c : Chip pt) : List Nat :=
  c.regs.filterMap (fun r => ((PT.QP_CFG_EN pt).idx c.nQueues r.1).bind (fun q => if bit r.2 63 then some q else none))

/-- Commands of a pair that are not answered, and replies of it that are not written. -/
def Chip.pairOpen (c : Chip pt) (q : Nat) : Nat :=
  (c.cmd.open_.filter (fun o => o.src == .queue (BitVec.ofNat 10 q))).length + (c.cmd.replies.filter (fun r => r.q == q)).length

/-- The command at HEAD of a pair, with the slots that it fills: none while it does not stand there whole, or the completion queue
has no room for its reply (R342). -/
def Chip.sqHead (c : Chip pt) (m : Mem) (q : Nat) : Option (Word × Word × List Word × Nat) :=
  let u := pt
  let head := c.rd (PT.QP_SQ_IDX_HEAD u) q
  let avail := (c.rd (PT.QP_SQ_IDX_TAIL u) q + 2 ^ 32 - head) % 2 ^ 32
  let fill := (c.rd (PT.QP_CQ_IDX_PROD u) q + 2 ^ 32 - c.rd (PT.QP_CQ_IDX_CONS u) q) % 2 ^ 32
  let base := 64 * c.rd (PT.QP_SQ_BASE_BASE u) q
  let word := fun (k : Nat) => memReadWord m (base + 64 * ((head + k / 8) % c.queueSize (PT.QP_CFG_LOG2N_SQ u) q) + 8 * (k % 8))
  let w0 := word 0
  let n := (hdrBlen w0 + 4) / 4
  if avail = 0 || n > avail || c.queueSize (PT.QP_CFG_LOG2N_CQ u) q - fill < 3 * c.pairOpen q + 3 then none
  else some (w0, word 1, (List.range (2 * hdrBlen w0)).map (fun k => word (k + 2)), n)

/-- HEAD past a command. -/
def Chip.sqTaken (c : Chip pt) (q n : Nat) : Chip pt :=
  let f := PT.QP_SQ_IDX_HEAD pt
  c.wr f ((c.rd f q + n) % 2 ^ 32) q

/-- The order of a command of a queue pair. -/
def queueOrder (q : Nat) (w0 : Word) : Order :=
  { src := .queue (BitVec.ofNat 10 q), tag := BitVec.ofNat 16 (hdrTag w0), lvl := BitVec.ofNat 8 (hdrLvl w0), routed := false, sender := 0 }

/-- The command at HEAD of the pair of processor q taken, if Garja takes it now. -/
def Garja.takeQueue (g : Garja) (m : Mem) (q : Nat) : Garja :=
  match g.c.sqHead m q with
  | none => g
  | some (w0, w1, ws, n) =>
    if g.takesCmd (queueOrder q w0) (hdrOp w0) ws then (g.onC (·.sqTaken q n)).submitCmd (queueOrder q w0) w0 w1 ws true else g

/-- Garja starts the commands of its pairs in ascending order of the processors. -/
def Garja.takeQueues (g : Garja) (m : Mem) : Garja := g.c.pairsOn.foldl (fun g q => g.takeQueue m q) g

/-- The command at HEAD of pair q taken, if Elzel takes it now; one with FENCE waits for every earlier command's reply (R350). -/
def Elzel.takeQueue (e : Elzel) (host : Mem) (q : Nat) : Option Elzel :=
  match e.c.sqHead host q with
  | none => none
  | some (w0, w1, ws, n) =>
    let o := queueOrder q w0
    if hdrFence w0 && e.c.cmd.open_.any (fun x => x.src == o.src) then none
    else (e.onC (·.sqTaken q n)).submitCmd host o w0 w1 ws

/-- One command from each enabled pair in turn; the second item tells whether one was taken (R343). -/
def Elzel.queueRound (e : Elzel) (host : Mem) : Elzel × Bool :=
  e.c.pairsOn.foldl (fun x q =>
    match x.1.takeQueue host q with
    | some e => (e, true)
    | none => x) (e, false)

/-- Rounds until no pair gives a command. A completion queue of 4,096 slots has room for at most 1,365. -/
def Elzel.queueGo (e : Elzel) (host : Mem) : Nat → Elzel
  | 0 => e
  | n + 1 =>
    match e.queueRound host with
    | (e, true) => e.queueGo host n
    | (e, false) => e

/-- What firmware does after a command, an answer or an event: the coordinator, the queue pairs, and the summaries. -/
def Elzel.serve (e : Elzel) (host : Mem) : Elzel := ((e.pump.queueGo host 1366).pump).sumSync

/-- A change of Elzel after which firmware serves what it makes possible. -/
def State.onEzCmd (s : State) (f : Elzel → Elzel) : State := s.onEzHost (fun e => (f e).serve s.hostMem)

/-- A change of Garja after which it takes commands from its queue pairs. -/
def State.onGjCmd (s : State) (f : Garja → Garja) : State := s.onGj (fun g => (f g).takeQueues s.dieMem)

/-- TAIL of a pair written; a pair that the part has. -/
def Chip.sqTail (c : Chip pt) (q tail : Nat) : Chip pt := if q < c.nQueues then c.wr (PT.QP_SQ_IDX_TAIL pt) tail q else c

/-- The doorbell of a completion queue of Elzel (R343). -/
def Chip.cqDoorbell (c : Chip pt) (q : Nat) (data : Word) : Chip pt :=
  ((c.wr EZ.QP_CQ_IDX_CONS (bits data 31 0) q).wr EZ.QP_CFG_ARM (bits data 63 63) q).cqArm q

/-- A reply written to its completion queue: its slots, PSHADOW, and then PROD (R342, R343). -/
def Chip.cqWrite (c : Chip pt) (m : Mem) (r : ReplyRec) : Chip pt × Mem :=
  let u := pt
  let q := r.q
  let prod := c.rd (PT.QP_CQ_IDX_PROD u) q
  let size := c.queueSize (PT.QP_CFG_LOG2N_CQ u) q
  let base := 64 * c.rd (PT.QP_CQ_BASE_BASE u) q
  let m := (List.range r.words.length).foldl (fun m k =>
    memWriteWord m (base + 64 * ((prod + k / 8) % size) + 8 * (k % 8)) (r.words.getD k 0)) m
  let new := (prod + (r.words.length + 7) / 8) % 2 ^ 32
  let m := memWriteWord m (8 * c.rd (PT.QP_PSHADOW_PSHADOW u) q) (w64 new)
  ((c.wr (PT.QP_CQ_IDX_PROD u) new q).cqArm q, m)

/-- The first reply that waits for a pair. -/
def Chip.firstReply (c : Chip pt) (q : Nat) : Option ReplyRec := c.cmd.replies.find? (fun r => r.q == q)
def Chip.dropReply (c : Chip pt) (r : ReplyRec) : Chip pt := { c with cmd := { c.cmd with replies := c.cmd.replies.erase r } }

/-- The write of the oldest reply of pair q is acknowledged. -/
def Chip.replyWritten (c : Chip pt) (m : Mem) (q : Nat) : Chip pt × Mem :=
  match c.firstReply q with
  | none => (c, m)
  | some r =>
    if c.flag (PT.QP_CFG_EN pt) q then (c.dropReply r).cqWrite m r
    else ((c.dropReply r).inc (PT.QP_CFG_CQ_DROP pt) q, m)

/-- The signal that follows a reply of processor q (R344). -/
def Garja.doneSignal (g : Garja) (q : Nat) : Garja :=
  if !g.c.flag GJ.CQP_CFG_DONE_EN q || !g.c.flag GJ.CQP_CFG_EN q then g
  else
    let x := g.c.rd GJ.CQP_CFG_DONE_CTX q
    let op := if g.flagBuild then OP.FLAG_SET else OP.SEM_ADD
    let data := put 63 56 (g.c.rd GJ.CTX_STATE_CUR x) + put 55 24 (if g.flagBuild then 0 else 1) + put 16 0 (g.c.rd GJ.CQP_CFG_DONE_OBJ q)
    ((g.doorbell (.proc (BitVec.ofNat 3 q)) x op (w64 data)).applyDue).settle

/-! ### Meanings: paths -/

/-- REGISTER_WRITE (R6, R403, R404, R421, R422): a write of the register window or of BAR0. -/
def execRegisterWrite (u : Part) (r : Requester) (off : BitVec 24) (mask : Word) (data : Word) (s : State) : Out :=
  match u with
  | .garja => .next (s.onGjCmd (fun g => if g.c.den.dead then g else g.regAccess r off.toNat mask data))
  | .elzel => .next (s.onEzCmd (fun e => e.regAccess s.hostMem r off.toNat mask data))

/-- CMD (R345). -/
def execCmd (u : Part) (p : BitVec 7) (pkt : Pkt) (s : State) : Out :=
  match u with
  | .garja => .next (s.onGjCmd (fun g => g.cmdIn p.toNat pkt))
  | .elzel => .next (s.onEzCmd (fun e => e.cmdIn s.hostMem p.toNat pkt))

/-- REPLY (R351). -/
def execReply (p : BitVec 7) (pkt : Pkt) (s : State) : Out := .next (s.onEzCmd (fun e => e.replyIn p.toNat pkt))

/-- SQ_TAIL_WRITE (R342 to R344): in Garja the write is a request of the target port. -/
def execSqTailWrite (u : Part) (q : BitVec 10) (tail : BitVec 32) (s : State) : Out :=
  match u with
  | .garja => .next (s.onGjCmd (fun g => if g.c.den.dead then g else g.portWake.onC (·.sqTail q.toNat tail.toNat)))
  | .elzel => .next (s.onEzCmd (fun e => e.onC (·.sqTail q.toNat tail.toNat)))

/-- CQ_DOORBELL (R343). -/
def execCqDoorbell (q : BitVec 10) (data : Word) (s : State) : Out := .next (s.onEzCmd (fun e => e.onC (·.cqDoorbell q.toNat data)))

/-- QUEUE_ENABLE (R342). -/
def execQueueEnable (u : Part) (q : BitVec 10) (s : State) : Out :=
  match u with
  | .garja => .next (s.onGjCmd (fun g => if g.c.den.dead then g else g.portWake.onC (fun c => if q.toNat < c.nQueues then c.queueEnable q.toNat else c)))
  | .elzel => .next (s.onEzCmd (fun e => e.onC (fun c => if q.toNat < c.nQueues then c.queueEnable q.toNat else c)))

/-- CQ_REPLY_WRITTEN (R342): the oldest reply of a pair reaches memory; a write that is not acknowledged leaves it waiting. -/
def execCqReplyWritten (u : Part) (q : BitVec 10) (ok : Bool) (s : State) : Out :=
  if !ok then .next s
  else match u with
  | .garja =>
    if !s.gj.c.clocked || (s.gj.c.firstReply q.toNat).isNone then .next s
    else
      let r := s.gj.c.replyWritten s.dieMem q.toNat
      let t : State := { s with gj := { s.gj with c := r.1 }, dieMem := r.2 }
      .next (t.onGjCmd (fun g => g.doneSignal q.toNat))
  | .elzel =>
    if !s.ez.c.clocked then .next s
    else
      let r := s.ez.c.replyWritten s.hostMem q.toNat
      let t : State := { s with ez := { s.ez with c := r.1 }, hostMem := r.2 }
      .next (t.onEzCmd id)

/-- CMD_FORWARD_TIMEOUT (R351). -/
def execCmdForwardTimeout (idx : BitVec 12) (s : State) : Out := .next (s.onEzCmd (·.cmdTimeout idx.toNat))

/-- COMMIT_LEAD_EXPIRED (R286). -/
def execCommitLeadExpired (change : BitVec 32) (s : State) : Out := .next (s.onEzCmd (·.commitLead change.toNat))

/-- MOVE_WAIT_EXPIRED (R137). -/
def execMoveWaitExpired (job : BitVec 12) (chip : BitVec 18) (s : State) : Out := .next (s.onEzCmd (·.moveWait job.toNat chip.toNat))

/-- SHELF_POLL (R291 to R293): plans that waited for a rack are planned again. -/
def execShelfPoll (raw : ShelfPoll) (s : State) : Out := .next (s.onEzCmd (·.shelfPoll raw))

/-! ### Meanings: one command each (R347) -/

/-- A command with its operands, as it is taken from the path that its order names. -/
def State.command (s : State) (u : Part) (o : Order) (op : Nat) (body : List Word) : State :=
  let ws := padEven body
  let w0 := cmdW0 op o.lvl.toNat o.tag.toNat (ws.length / 2)
  match u with
  | .garja => s.onGjCmd (fun g => g.submitCmd o w0 0 ws true)
  | .elzel => s.onEzCmd (fun e => (e.submitCmd s.hostMem o w0 0 ws).getD e)

/-- NOP. -/
def execNopCmd (u : Part) (o : Order) (s : State) : Out := .next (s.command u o CM.NOP [])
/-- IDENTIFY. -/
def execIdentify (u : Part) (o : Order) (s : State) : Out := .next (s.command u o CM.IDENTIFY [])
/-- REG_READ. -/
def execRegRead (u : Part) (o : Order) (off : BitVec 24) (nm1 : BitVec 4) (s : State) : Out :=
  .next (s.command u o CM.REG_READ [w64 (put 47 24 off.toNat + put 3 0 nm1.toNat)])
/-- REG_WRITE. -/
def execRegWrite (u : Part) (o : Order) (off : BitVec 24) (mask : Word) (data : Word) (s : State) : Out :=
  .next (s.command u o CM.REG_WRITE [w64 (put 47 24 off.toNat), mask, data])
/-- START (R250, R262). -/
def execStart (o : Order) (ctx : BitVec 8) (pc : BitVec 12) (s1 : BitVec 48) (s : State) : Out :=
  .next (s.command .garja o CM.START [w64 (put 63 56 ctx.toNat + put 55 44 pc.toNat), w64 s1.toNat])
/-- STG_OPEN (R279). -/
def execStgOpen (u : Part) (o : Order) (change : BitVec 32) (kind : BitVec 2) (scope : BitVec 12) (sEff : BitVec 48) (s : State) : Out :=
  .next (s.command u o CM.STG_OPEN [w64 (put 63 32 change.toNat + put 31 30 kind.toNat + put 11 0 scope.toNat), w64 sEff.toNat])
/-- STG_ADD (R279, R345). -/
def execStgAdd (u : Part) (o : Order) (change : BitVec 32) (entries : List StgEntry) (s : State) : Out :=
  .next (s.command u o CM.STG_ADD (w64 (put 63 32 change.toNat + put 4 0 entries.length) :: entries.flatMap (fun x => [x.w0, x.w1, x.w2])))
/-- STG_PREPARE (R280, R281). -/
def execStgPrepare (u : Part) (o : Order) (change : BitVec 32) (t fp : Word) (s : State) : Out :=
  .next (s.command u o CM.STG_PREPARE [w64 (put 63 32 change.toNat), t, fp])
/-- STG_COMMIT (R279). -/
def execStgCommit (u : Part) (o : Order) (change : BitVec 32) (s : State) : Out :=
  .next (s.command u o CM.STG_COMMIT [w64 (put 63 32 change.toNat)])
/-- STG_ABORT (R279). -/
def execStgAbort (u : Part) (o : Order) (change : BitVec 32) (s : State) : Out :=
  .next (s.command u o CM.STG_ABORT [w64 (put 63 32 change.toNat)])
/-- STG_QUERY (R279). -/
def execStgQuery (u : Part) (o : Order) (change : BitVec 32) (s : State) : Out :=
  .next (s.command u o CM.STG_QUERY [w64 (put 63 32 change.toNat)])
/-- Word 0 of JOB_SUBMIT and JOB_CHANGE. -/
def jobW0 (job ctx change : Nat) : Word := w64 (put 63 52 job + put 51 44 ctx + put 31 0 change)
/-- JOB_SUBMIT (R348). -/
def execJobSubmit (o : Order) (job : BitVec 12) (ctx : BitVec 8) (change : BitVec 32) (addr : Word) (len : BitVec 32) (dpDie : BitVec 16)
    (tReq fp : Word) (s : State) : Out :=
  .next (s.command .elzel o CM.JOB_SUBMIT
    [jobW0 job.toNat ctx.toNat change.toNat, addr, w64 (put 63 32 len.toNat + put 31 16 dpDie.toNat), tReq, fp])
/-- JOB_CHANGE (R348). -/
def execJobChange (o : Order) (job : BitVec 12) (ctx : BitVec 8) (change : BitVec 32) (addr : Word) (len : BitVec 32) (fp : Word) (s : State) : Out :=
  .next (s.command .elzel o CM.JOB_CHANGE [jobW0 job.toNat ctx.toNat change.toNat, addr, w64 (put 63 32 len.toNat), 0, fp])
/-- JOB_END (R303). -/
def execJobEnd (o : Order) (job : BitVec 12) (change : BitVec 32) (sLast : BitVec 48) (s : State) : Out :=
  .next (s.command .elzel o CM.JOB_END [jobW0 job.toNat 0 change.toNat, w64 sLast.toNat])
/-- BAR_MOVE (R137, R139). -/
def execBarMove (o : Order) (job : BitVec 12) (domain : Bool) (s : State) : Out :=
  .next (s.command .elzel o CM.BAR_MOVE [w64 (put 63 52 job.toNat + put 51 51 (b2n domain))])
/-- DISCOVER (R17). -/
def execDiscover (o : Order) (mask : Word) (s : State) : Out := .next (s.command .elzel o CM.DISCOVER [mask])
/-- DIE_WAKE (R313). -/
def execDieWake (o : Order) (port : BitVec 6) (s : State) : Out := .next (s.command .elzel o CM.DIE_WAKE [w64 port.toNat])
/-- TXQ_SUBMIT (R152). -/
def execTxqSubmit (o : Order) (port : Bool) (addr d0 d1 : Word) (s : State) : Out :=
  .next (s.command .elzel o CM.TXQ_SUBMIT [w64 (put 63 63 (b2n port)), addr, d0, d1])
/-- TXQ_STAMP (R347). -/
def execTxqStamp (o : Order) (port : Bool) (nm1 : BitVec 3) (s : State) : Out :=
  .next (s.command .elzel o CM.TXQ_STAMP [w64 (put 63 63 (b2n port) + put 2 0 nm1.toNat)])
/-- HEALTH_READ (R363). -/
def execHealthRead (o : Order) (chip : BitVec 18) (s : State) : Out := .next (s.command .elzel o CM.HEALTH_READ [w64 chip.toNat])
/-- OWL_PAIR (R366). -/
def execOwlPair (o : Order) (job : BitVec 12) (en : Bool) (chipA chipB : BitVec 18) (s : State) : Out :=
  .next (s.command .elzel o CM.OWL_PAIR
    [w64 (put 63 52 job.toNat + put 51 51 (b2n en) + put 35 18 chipA.toNat + put 17 0 chipB.toNat)])
/-- ROLLBACK (R372). -/
def execRollback (o : Order) (job : BitVec 12) (step : BitVec 48) (s : State) : Out :=
  .next (s.command .elzel o CM.ROLLBACK [w64 (put 63 52 job.toNat), w64 step.toNat])
/-- JRNL_COPY (R356). -/
def execJrnlCopy (o : Order) (region : BitVec 4) (off64 addr : Word) (len : BitVec 32) (s : State) : Out :=
  .next (s.command .elzel o CM.JRNL_COPY [w64 (put 63 60 region.toNat), off64, addr, w64 (put 63 32 len.toNat)])
/-- CAPSULE_READ (R397). -/
def execCapsuleRead (o : Order) (own : Bool) (chip : BitVec 18) (addr : Word) (len : BitVec 32) (s : State) : Out :=
  .next (s.command .elzel o CM.CAPSULE_READ [w64 (put 63 63 (b2n own) + put 17 0 chip.toNat), addr, w64 (put 63 32 len.toNat)])

end Sys2Proof.Machine
end

