-- ==== Sys2Proof/Machine/TreeRows.lean ====
section
/-!
DEFINITION. Sys2Proof/Machine/TreeRows.lean: the commands by which items, releases, signals and events travel the tree (R80, R214, R218,
R227, R244, R333), staged changes reach their application point (R283 to R285), and health is kept (R359 to R373).
-/
namespace Sys2Proof.Machine

/-! ### Items, releases and signals -/

/-- A packet taken by an Elzel on a port of its own that is UP. -/
def State.onTree (s : State) (p : Nat) (f : Elzel → Elzel) : State :=
  s.onEzCmd (fun e => if p < e.c.nPorts && e.c.up p then f e else e)

/-- SIG_ROUTE (R80): a signal on its way through an Elzel. -/
def execSigRoute (p : BitVec 7) (flit : Flit) (s : State) : Out := .next (s.onTree p.toNat (·.sigIn p.toNat flit))

/-- ARRIVE (R214, R219). -/
def execArrive (p : BitVec 7) (pkt : Pkt) (s : State) : Out := .next (s.onTree p.toNat (·.arriveIn p.toNat pkt))

/-- ARRIVE_X (R244). -/
def execArriveX (p : BitVec 7) (pkt : Pkt) (s : State) : Out := .next (s.onTree p.toNat (·.arriveXIn p.toNat pkt))

/-- APEX_RELEASE (R218). -/
def execApexRelease (job : BitVec 12) (s : State) : Out := .next (s.onEzCmd (·.apexRelease job.toNat))

/-- BAR_DEADLINE (R227). -/
def execBarDeadline (job : BitVec 12) (s : State) : Out := .next (s.onEzCmd (·.barDeadline job.toNat))

/-- RELEASE_FORWARD (R218): a RELEASE from above. -/
def execReleaseForward (p : BitVec 7) (pkt : Pkt) (s : State) : Out := .next (s.onTree p.toNat (·.releaseDown p.toNat pkt))

/-! ### Events from below (R333) -/

/-- What the leaf learns of the die on port p from its record (R363, R384, R397). A LINK_DOWN counts when the port that it names carries
barrier traffic: that of this domain while this leaf serves the die, the other one's while it does not (DEDUCED). -/
def Elzel.dieEvent (e : Elzel) (p : Nat) (ws : List Word) : Elzel :=
  let w := fun (i : Nat) => ws.getD i 0
  let t := recType ws
  let ctx := bits (w 0) 39 32
  let step := if bit (w 0) 44 then some (bits (w 1) 47 0) else none
  let job := if bit (w 0) 45 then (e.sigJob p ctx).getD 0 else 0
  let ch := fun (kind : Nat) => e.charge p kind job ctx step 0 0
  if t == EV.HEARTBEAT .garja then e.beatIn p (w 3)
  else if t == EV.CAPSULE .garja then e.capsuleEvent p (bits (w 2) 63 56)
  else if t == EV.SQ_FAULT then (if bits (w 2) 39 32 == 2 then ch 4 else e)
  else if t == EV.CLKFIX_VIOLATION then ch 5
  else if t == EV.RANGE_JUMP .garja then ch 6
  else if t == EV.LINK_DOWN .garja then (if (bits (w 2) 63 56 == e.c.rd EZ.ROLE_DOMAIN) == e.c.portServes p then ch 6 else e)
  else e

/-- A tally in a record (R359): the leaf, the job, the step, and its two largest counts. -/
def Elzel.tallyEvent (e : Elzel) (ws : List Word) : Elzel :=
  let w := fun (i : Nat) => ws.getD i 0
  let pair := [(w 2, bits (w 4) 63 32), (w 3, bits (w 4) 31 0)].filter (fun x => x.2 != 0)
  e.addTally (bits (w 7) 43 26) (bits (w 5) 31 16) (bits (w 1) 47 0) pair

/-- The leaf of a chip, by its coordinate. -/
def Elzel.leafOfChip (e : Elzel) (chip : Nat) : Option Nat := (e.coordOfChip chip).map (fun k => k / 64 * 64)

/-- OWL_DIGESTS in a record (R366). Its items do not name the side: it is the owl's when it comes from the owl's leaf, and where that is
the subject's leaf too, when the subject's digest of its first step is there already (DEDUCED). -/
def Elzel.owlEvent (e : Elzel) (ws : List Word) : Elzel :=
  let w := fun (i : Nat) => ws.getD i 0
  let k := bits (w 6) 63 56
  let first := bits (w 1) 47 0
  let leaf := bits (w 7) 43 26
  let owlHere := e.leafOfChip (e.c.rd EZ.HLT_OWL_W0_OWL k) == some leaf
  let subjHere := e.leafOfChip (e.c.rd EZ.HLT_OWL_W0_SUBJ k) == some leaf
  let known := match e.mgr.hlt.pairs.find? (fun x => x.k == k) with
    | some x => x.subj.any (fun y => y.1 == first)
    | none => false
  e.owlDigests k (owlHere && (!subjHere || known)) first [w 2, w 3, w 4, w 5]

/-- What the domain-A root learns from a record. -/
def Elzel.rootEvent (e : Elzel) (ws : List Word) : Elzel :=
  let t := recType ws
  if t == EV.HLT_TALLY then e.tallyEvent ws
  else if t == EV.OWL_DIGESTS then e.owlEvent ws
  else if t == EV.PWR_TELEM_LOST then e.onC (·.rackTelem (bits (ws.getD 7 0) 43 26 / 64))
  else e

/-- An EVENT packet on port p (R333): FWD is set, and the record is routed. HLT_TALLY goes up whatever its route holds (R359). -/
def Elzel.eventIn (e : Elzel) (p : Nat) (pkt : Pkt) : Elzel :=
  let f := pkt.headD 0
  if flitType f != 7 then e
  else
    let e := e.onC (·.take p .evt pkt)
    if !e.c.typeAllowed p 7 then e.onC (·.countDir p)
    else if flitLen f != 4 || pkt.length != 5 then e.onC (·.countBad p)
    else
      let got := wordsOf (pkt.drop 1)
      let ws := setBits (got.headD 0) 43 43 1 :: got.tail
      let t := recType ws
      let e := e.onC (fun c =>
        let c := c.deliver ws none none
        if t == EV.HLT_TALLY && !c.flag EZ.EVT_ROUTE_UP t && !c.isRoot then c.sendUp c.uplink ws else c)
      let e := if p < 64 && !e.c.farElzel p then e.dieEvent p ws else e
      if e.c.isRootA then e.rootEvent ws else e

/-- EVENT (R333). -/
def execEvent (p : BitVec 7) (pkt : Pkt) (s : State) : Out := .next (s.onTree p.toNat (·.eventIn p.toNat pkt))

/-! ### Staged changes -/

/-- A change of Garja while its main clocks run. -/
def State.onGjClk (s : State) (f : Garja → Garja) : State := s.onGjCmd (fun g => if g.c.clocked then f g else g)

/-- STAGE_APPLICATION_POINT (R283, R285). -/
def execStageApplicationPoint (u : Part) (set : BitVec 5) (s : State) : Out :=
  let k := set.toNat
  match u with
  | .garja => .next (s.onGjClk (fun g => if k < g.c.nSets && g.stageDue k then g.onC (·.stagePoint k) else g))
  | .elzel => .next (s.onEzCmd (fun e => if k < e.c.nSets && e.stageDue k then e.onC (·.stagePoint k) else e))

/-- STAGE_APPLY_END (R284): a reset that waited for the apply takes place (R382), and so does the pause of a rollback (R372). -/
def execStageApplyEnd (u : Part) (set : BitVec 5) (s : State) : Out :=
  let k := set.toNat
  match u with
  | .garja => .next (s.onGjClk (fun g => if k < g.c.nSets then (g.stageApply k).rstGo else g))
  | .elzel => .next (s.onEzCmd (fun e =>
      if k < e.c.nSets && (e.c.stageAt k).applying.isSome then ((e.stageApply k).rollbackPoint (e.c.setChange k)).rstGo else e))

/-- STAGE_ORPHAN (R285). -/
def execStageOrphan (u : Part) (set : BitVec 5) (s : State) : Out :=
  .next (s.onChip u (fun c => if set.toNat < c.nSets then c.stageOrphan set.toNat else c))

/-! ### Health -/

/-- HLT_TALLY (R359): a leaf's tally reaches the domain-A root. -/
def execHltTally (rec : TallyRec) (s : State) : Out :=
  .next (s.onEzCmd (fun e =>
    if e.c.isRootA then e.addTally rec.leaf.toNat rec.job.toNat rec.step.toNat (rec.counts.map (fun x => (x.1, x.2.toNat))) else e))

/-- HLT_UNATTRIBUTED (R359, R360). -/
def execHltUnattributed (job : BitVec 12) (step : BitVec 48) (s : State) : Out :=
  .next (s.onEzCmd (·.unattributed job.toNat step.toNat))

/-- HLT_REF_WRITE (R359): the write of word 1 of EZ_HLT_REF, after word 0 has been written. -/
def execHltRefWrite (digest : Word) (s : State) : Out :=
  .next (s.onEzCmd (fun e => (e.regDirect s.hostMem 8 EZ.HLT_REF_W1 (w64 (2 ^ 64 - 1)) digest).1))

/-- OWL_DIGESTS (R366): a record of one side of pairing k reaches the domain-A root. -/
def execOwlDigests (k : BitVec 6) (isOwl : Bool) (step : BitVec 48) (digests : List (BitVec 64)) (s : State) : Out :=
  .next (s.onEzCmd (fun e => if e.c.isRootA then e.owlDigests k.toNat isOwl step.toNat digests else e))

/-- OWL_NOSTART (R367). -/
def execOwlNostart (k : BitVec 6) (s : State) : Out := .next (s.onEzCmd (·.owlNostart k.toNat))

/-- OWL_CLEARED (R367, R373). -/
def execOwlCleared (k : BitVec 6) (s : State) : Out := .next (s.onEzCmd (·.owlCleared k.toNat))

/-- SCORE_DECAY (R364): at each multiple of DECAY_INT seconds of HT; 0 disables the decay. -/
def execScoreDecay (s : State) : Out :=
  .next (s.onEzCmd (fun e =>
    let int := e.c.rd EZ.HLT_CFG_DECAY_INT
    if int != 0 && e.c.htSec % int == 0 then e.decay else e))

/-- CKPT_HANDLE_WRITE (R371): the write of word 1 of EZ_JRNL_CKPT, after word 0 has been written. -/
def execCkptHandleWrite (handle : Word) (s : State) : Out :=
  .next (s.onEzCmd (fun e => (e.regDirect s.hostMem 8 EZ.JRNL_CKPT_W1 (w64 (2 ^ 64 - 1)) handle).1))

/-- SPARE_TRIAL (R373). -/
def execSpareTrial (k : BitVec 6) (s : State) : Out := .next (s.onEzCmd (·.trialStart k.toNat))

end Sys2Proof.Machine
end

