-- ==== Sys2Proof/Machine/Hardware.lean ====
section
/-!
DEFINITION. Sys2Proof/Machine/Hardware.lean: what the module and the die around a part do to it: heat (R447, R449), the loss of the
module's input (R445), and spare-map loads (R370, R433).
-/
namespace Sys2Proof.Machine

variable {pt : Part}

/-! ### Heat (R447, R449) -/

/-- A sample of T_j in 1/100 °C: the Den acts on it without firmware. -/
def Elzel.thermalSample (e : Elzel) (tj : Int) : Elzel :=
  let e : Elzel := { e with th := { e.th with tj := tj } }
  if e.c.pw.st == .denOnly || e.c.den.dead then e
  else if tj ≥ 11000 then { e with th := { e.th with tripDue := true } }
  else if !e.th.want then
    (if tj ≥ 10000 then { e with th := { e.th with want := true, coolSince := none } } |>.onC (·.latchIrq 6) else e)
  else { e with th := { e.th with coolSince := if tj < 9400 then some (e.th.coolSince.getD e.c.now) else none } }

/-- HALF ends after 1 s below 94 °C without a break. -/
def Elzel.halfExit (e : Elzel) : Elzel :=
  match e.th.coolSince with
  | some t => if e.th.want && decide (t + 1000000000 ≤ e.c.now) then { e with th := { e.th with want := false, coolSince := none } } else e
  | none => e

/-- The clock of the combining engine follows what is asked for, between two items and outside an apply. -/
def Elzel.clockChange (e : Elzel) : Elzel := if e.c.applying then e else { e with th := { e.th with half := e.th.want } }

/-- The trip pre-empts any reset but COLD, whose boot is then not begun; the pre-empted reset is ABANDONED. -/
def Chip.tripReset (c : Chip pt) : Chip pt :=
  match c.den.run with
  | none => c
  | some r =>
    if r.level == 4 then c.wr EZ.BOOT_STATUS_STAGE 0
    else
      let c := ((c.wr EZ.RST_STATUS_STATUS ST.ABANDONED).wr EZ.RST_STATUS_BUSY 0).onDenSt (fun d => { d with run := none })
      r.orders.foldl (fun c o => c.reply o CM.RESET ST.ABANDONED) c

/-- The thermal trip: it waits for an apply and for a capture. -/
def Elzel.trip (e : Elzel) : Elzel :=
  let capturing := match e.c.den.run with | some r => r.capturing | none => false
  if !e.th.tripDue || e.c.applying || capturing || e.c.pw.st == .denOnly then e
  else
    let e := ((e.fwCut).onC Chip.tripReset).enterDenOnly 2
    { e with th := { e.th with tripDue := false, tripped := true } }

/-- THERMAL_SAMPLE (R447). -/
def execThermalSample (tj : BitVec 16) (s : State) : Out := .next { s with ez := s.ez.thermalSample tj.toInt }

/-- COMBINE_CLOCK_CHANGE (R449). -/
def execCombineClockChange (s : State) : Out := .next (s.onEz Elzel.clockChange)

/-- HALF_EXIT_TIMER (R447). -/
def execHalfExitTimer (s : State) : Out := .next { s with ez := s.ez.halfExit }

/-- THERMAL_TRIP (R447, R449). -/
def execThermalTrip (s : State) : Out := .next { s with ez := s.ez.trip }

/-! ### Power of the module (R445) -/

/-- MODULE_INPUT_LOSS (R445): every rail of the Elzel falls; its flash keeps what it holds, and the part stands until EZ_PORST_N. -/
def execModuleInputLoss (s : State) : Out :=
  let e := s.ez.fwCut
  .next { s with ez := { Elzel.init e.c.prm e.flash with console := e.console } }

/-! ### Spare-map loads (R370, R433) -/

/-- A load can be taken: every tile that it moves has its wake wire low and holds no waiter slot. -/
def Garja.smapReady (g : Garja) (l : SpareLoad) : Bool :=
  l.tiles.all (fun t => !bit (sparseGet g.so.results t) 55 && !g.so.waiters.any (fun w => w.slot == t))

/-- A load presented. One that has to be held is counted in HELD_LOADS. -/
def Garja.smapPresent (g : Garja) (tiles : List Nat) (used : Nat) : Garja :=
  if g.smap.isSome || !g.c.clocked || tiles.length > 128 then g
  else
    let l : SpareLoad := { tiles := tiles, used := used }
    let g : Garja := { g with smap := some l }
    if g.smapReady l then g else g.onC (·.inc GJ.HLT_STATUS_HELD_LOADS)

/-- A load taken. -/
def Garja.smapTake (g : Garja) : Garja :=
  match g.smap with
  | none => g
  | some l =>
    if l.taken || !g.c.clocked || !g.smapReady l then g
    else
      let g : Garja := { g with smap := some { l with taken := true } }
      g.onC (fun c => (c.inc GJ.HLT_STATUS_REMAPS).wr GJ.HLT_STATUS_SPARES_USED l.used)

/-- GJ_SMAP_DONE: requests from the listed tiles are served again. -/
def Garja.smapDone (g : Garja) : Garja :=
  match g.smap with
  | some l => if l.taken then { g with smap := none } else g
  | none => g

/-- SPARE_MAP_PRESENT (R433). -/
def execSpareMapPresent (tiles : List (BitVec 12)) (used : BitVec 8) (s : State) : Out :=
  .next (s.onGj (·.smapPresent (tiles.map (·.toNat)) used.toNat))

/-- SPARE_MAP_TAKE (R370, R433). -/
def execSpareMapTake (s : State) : Out := .next (s.onGj Garja.smapTake)

/-- SPARE_MAP_DONE (R433). -/
def execSpareMapDone (s : State) : Out := .next (s.onGj Garja.smapDone)

end Sys2Proof.Machine
end

