-- ==== Sys2Proof/Machine/Elzmon.lean ====
section
/-!
DEFINITION. Sys2Proof/Machine/Elzmon.lean: DEBUG packets (R467, R468) and the Elzmon monitor of a running Elzel (R466).
-/
namespace Sys2Proof.Machine

variable {pt : Part}

/-! ### DEBUG requests (R467) -/

/-- The body of a DEBUG request. MASK stands in bits 63:0 of body flit 2, as DATA does in body flit 1 (DEDUCED). -/
def debugReq (pkt : Pkt) : MonReq :=
  let f := pkt.getD 1 0
  { write := bits f 127 124 == 2, win := bits f 123 122, off := bits f 95 64, data := w64 (bits f 63 0), mask := w64 (bits (pkt.getD 2 0) 63 0) }

/-- The refusal of a request by its form: an OP other than READ and WRITE, WIN 0b11, RSV, OFFSET, or a length that is not its OP's. -/
def debugForm (pkt : Pkt) (size : Nat → Nat) : Option Nat :=
  let f := pkt.getD 1 0
  let op := bits f 127 124
  let q := debugReq pkt
  if op != 1 && op != 2 then some ST.BADOP
  else if q.win == 3 || bits f 121 96 != 0 || q.off % 8 != 0 || decide (q.off ≥ size q.win) || pkt.length != op + 1 then some ST.BADPARAM
  else none

/-- Bytes of Garja's windows: registers, doorbells, objects (R168, R189, R403). -/
def gjWindow (win : Nat) : Nat := if win = 0 then regWindow .garja else if win = 1 then 0x40000 else 0x10000000
/-- An Elzel has BAR0 alone. -/
def ezWindow (win : Nat) : Nat := if win = 0 then regWindow .elzel else 0

/-- An access of the register window by the debug path, OWNER 9. -/
def Garja.debugReg (g : Garja) (p : Nat) (h : Flit) (q : MonReq) : Garja :=
  match g.regRefuse .debug q.off with
  | some st => g.onC (·.debugReply p h st 0)
  | none =>
    if q.write then (let (g, st) := g.regDirect 9 q.off q.mask q.data; g.onC (·.debugReply p h st 0))
    else (let (g, w) := g.regRead q.off; g.onC (·.debugReply p h ST.OK w))

/-- An access of the doorbell or object window. The reply of a write waits for its answer. -/
def Garja.debugSync (g : Garja) (p : Nat) (h : Flit) (q : MonReq) : Garja :=
  let wait := fun (g : Garja) => ({ g with dbg := g.dbg ++ [(p, h)] } : Garja)
  if q.win == 1 then
    (if q.write then (wait g).doorbell .debug (q.off / 0x400) (q.off / 8 % 128) (q.data &&& q.mask)
     else g.onC (·.debugReply p h ((g.portRefuse .debug 4).getD ST.OK) 0))
  else
    let x := q.off / 0x100000
    let obj := q.off / 8 % 2 ^ 17
    if q.write then (wait g).windowWrite .debug x obj (mergeBits (g.windowRead x obj).1 q.data q.mask)
    else
      match g.portRefuse .debug 4 with
      | some st => g.onC (·.debugReply p h st 0)
      | none => let (w, st) := g.windowRead x obj; g.onC (·.debugReply p h st w)

/-- A DEBUG packet on port p of Garja. A reply has no place there. -/
def Garja.debugIn (g : Garja) (p : Nat) (pkt : Pkt) : Garja :=
  let h := pkt.headD 0
  if !mgmtIs 6 pkt || !g.c.up p || decide (p ≥ 2) then g
  else
    let g := g.onC (·.take p .mgmt pkt)
    if (mgmtOf h).up || !(mgmtOf h).routed then g.onC (·.countDir p)
    else
      let g := g.onC (·.wake 2)
      match debugForm pkt gjWindow with
      | some st => g.onC (·.debugReply p h st 0)
      | none =>
        let q := debugReq pkt
        if q.win == 0 then g.debugReg p h q else ((g.debugSync p h q).applyDue).settle

/-- A DEBUG request that Elzel executes. -/
def Elzel.debugRun (e : Elzel) (host : Mem) (p : Nat) (pkt : Pkt) : Elzel :=
  let h := pkt.headD 0
  match debugForm pkt ezWindow with
  | some st => e.onC (·.debugReply p h st 0)
  | none =>
    let q := debugReq pkt
    if q.write then (let (e, st) := e.regDirect host 9 q.off q.mask q.data; e.onC (·.debugReply p h st 0))
    else (let (e, w) := e.regRead q.off; e.onC (·.debugReply p h ST.OK w))

/-! ### Elzmon's own accesses -/

/-- The packet of an access. -/
def Chip.debugPkt (c : Chip pt) (d : Dest) (tag : Nat) (q : MonReq) : Pkt :=
  let b := f128 (put 127 124 (if q.write then 2 else 1) + put 123 122 q.win + put 95 64 q.off + put 63 0 q.data.toNat)
    :: (if q.write then [f128 q.mask.toNat] else [])
  Mgmt.flit { len := b.length, cls := 6, routed := true, up := false, level := d.level, dst := d.dst, src := c.rd EZ.ROLE_PREFIX, tag := tag,
              lvl := c.lvlMax } :: b

/-- An access is sent, with those that follow it. -/
def Elzel.monSend (e : Elzel) (d : Dest) (got : List Word) : List MonReq → Elzel
  | [] => { e with mon := none } |>.print (if got.isEmpty then .status ST.OK else .words got.reverse)
  | q :: rest =>
    let tag := e.monSeq
    let e := e.onC (fun c => c.send d.port .mgmt (c.debugPkt d tag q))
    { e with mon := some { tag := tag, at_ := e.c.now, dest := d, cur := q, rest := rest, got := got }, monSeq := (tag + 1) % 2 ^ 16 }

/-- A DEBUG reply for Elzmon. -/
def Elzel.monReply (e : Elzel) (m : MonRun) (f : Flit) : Elzel :=
  let st := bits f 127 120
  if st != ST.OK then { e with mon := none } |>.print (.status st)
  else e.monSend m.dest (if m.cur.write then m.got else w64 (bits f 63 0) :: m.got) m.rest

/-- No reply within 10 ms. -/
def Elzel.monTick (e : Elzel) : Elzel :=
  match e.mon with
  | some m => if decide (e.c.now ≥ m.at_ + 10000000) then { e with mon := none } |>.print (.status ST.TIMEOUT) else e
  | none => e

/-- A DEBUG packet on port p of Elzel: a request comes from above, and a reply from below (R468). -/
def Elzel.debugIn (e : Elzel) (host : Mem) (p : Nat) (pkt : Pkt) : Elzel :=
  let h := pkt.headD 0
  let m := mgmtOf h
  if !mgmtIs 6 pkt || !e.c.up p || decide (p ≥ e.c.nPorts) then e
  else
    let e := e.onC (·.take p .mgmt pkt)
    let drop := e.onC (·.countDir p)
    if !m.routed || e.c.portTimeOnly p || m.up != decide (p < 64) then drop
    else
      let mine := if m.up && m.dst == e.c.rd EZ.ROLE_PREFIX then e.mon.filter (fun x => x.tag == m.tag) else none
      match mine, e.c.mgmtRoute h with
      | some x, _ => e.monReply x (pkt.getD 1 0)
      | none, .to_ q => e.onC (·.send q .mgmt pkt)
      | none, .here => if m.up then drop else e.debugRun host p pkt
      | none, .nowhere => drop

/-- DEBUG (R467, R468). -/
def execDebug (u : Part) (p : BitVec 7) (pkt : Pkt) (s : State) : Out :=
  match u with
  | .garja => .next (s.onGjClk (·.debugIn p.toNat pkt))
  | .elzel => .next (s.onEzCmd (fun e => e.debugIn s.hostMem p.toNat pkt))

/-! ### Elzmon (R466) -/

/-- Elzmon is free to run a command. -/
def Elzel.monFree (e : Elzel) : Bool := e.fwRuns && e.mon.isNone && !e.mgr.pool.any (fun x => match x.why with | .mon => true | _ => false)

/-- A command of Elzmon, which runs one at a time. -/
def State.onMon (s : State) (f : Elzel → Elzel) : State := s.onEzCmd (fun e => if e.monFree then f e else e)

/-- A command marked W: DENIED while WRITE_EN = 0. -/
def Elzel.monW (e : Elzel) (f : Elzel → Elzel) : Elzel := if e.c.flag EZ.MON_CTL_WRITE_EN then f e else e.print (.status ST.DENIED)

/-- What a target names. -/
def Elzel.monTarget (e : Elzel) (t : MonTarget) : Target :=
  if t.own then .self else e.targetOf (w64 (put 23 22 t.level.toNat + put 21 4 t.coord.toNat + put 3 3 (e.c.rd EZ.ROLE_DOMAIN)))

/-- Accesses of a target below by DEBUG; for another target Elzel does not originate it (R468; the status is DEDUCED). -/
def Elzel.monGo (e : Elzel) (t : MonTarget) (qs : List MonReq) : Elzel :=
  match e.monTarget t with
  | .dest d _ => if d.port < 64 then e.monSend d [] qs else e.print (.status ST.BADPARAM)
  | _ => e.print (.status ST.BADPARAM)

/-- A command of R347 to a target that is not the part itself; no reply within 10 ms is TIMEOUT. -/
def Elzel.monCmd (e : Elzel) (t : Target) (op : Nat) (body : List Word) : Elzel :=
  let body := padEven body
  let w0 := cmdW0 op e.c.lvlMax 0 (body.length / 2)
  let d := match t with | .dest d _ => some d | _ => none
  match e.sendCmd d w0 0 body 10000 .mon with
  | some e => e
  | none => e.print (.status ST.BUSY)

/-- A full mask. -/
def ones64 : Word := w64 (2 ^ 64 - 1)

/-- ELZMON_ID. -/
def execElzmonId (target : MonTarget) (s : State) : Out :=
  .next (s.onMon (fun e =>
    match e.monTarget target with
    | .self => e.print (.words e.identify)
    | t => e.monCmd t CM.IDENTIFY []))

/-- ELZMON_TIME: HT, the GT integer, the states of R112 and of the servo, the selected source and the servo input. -/
def execElzmonTime (s : State) : Out :=
  .next (s.onMon (fun e =>
    let c := e.c
    e.print (.words ([c.htSec, c.htNs, c.htFrac, c.gtInt, c.rd EZ.REF_STATUS_LOCK, c.rd EZ.TS_STATUS_STATE, c.rd EZ.REF_STATUS_SEL,
      c.rd EZ.TS_STATUS_INPUT].map w64))))

/-- ELZMON_REF. -/
def execElzmonRef (s : State) : Out :=
  .next (s.onMon (fun e => e.print (.words ((List.range 6).map (fun i => e.view (EZ.REF_SST + 0x10 * i))))))

/-- ELZMON_PORTS. -/
def execElzmonPorts (s : State) : Out :=
  .next (s.onMon (fun e =>
    let c := e.c
    e.print (.words ((List.range 68).flatMap (fun p =>
      [c.rd (PT.SL_STATUS_STATE .elzel) p, c.rd EZ.SL_STATUS_RANGE_VALID p, c.rd EZ.SL_RANGE_DELAY p, c.rd EZ.SL_OFFSET_THETA p].map w64)))))

/-- ELZMON_BIND. -/
def execElzmonBind (s : State) : Out :=
  .next (s.onMon (fun e => e.print (.words ((List.range 64).map (fun p => e.view (EZ.BIND_VALID.off + EZ.BIND_VALID.stride * p))))))

/-- Record number i of ring 0, in host memory. -/
def Elzel.ringRec (e : Elzel) (host : Mem) (i : Nat) : List Word :=
  let base := e.c.rd EZ.EVT_RING_BASE_BASE 0 * 64 + 64 * (i % e.c.ringLen 0)
  (List.range 8).map (fun k => memReadWord host (base + 8 * k))

/-- The GT of the last EPOCH_MARK at record i of ring 0 or before it, within n records (R41). -/
def Elzel.markAt (e : Elzel) (host : Mem) (i : Nat) : Nat → Option Nat
  | 0 => none
  | n + 1 =>
    let ws := e.ringRec host i
    if recType ws == EV.EPOCH_MARK .elzel then some (bits (ws.getD 2 0) 63 32 * 2 ^ 32 + recStamp ws)
    else e.markAt host ((i + 2 ^ 32 - 1) % 2 ^ 32) n

/-- A record with its stamp extended; against the present GT where the ring holds no mark before it (DEDUCED). -/
def Elzel.monRec (e : Elzel) (host : Mem) (i : Nat) : List Word :=
  let ws := e.ringRec host i
  let mark := (e.markAt host i (e.c.ringLen 0)).getD e.c.gtInt
  w64 ((mark : Int) + sdiff 32 (recStamp ws) mark).toNat :: ws

/-- ELZMON_EVT. -/
def execElzmonEvt (count : BitVec 4) (s : State) : Out :=
  .next (s.onMon (fun e =>
    let n := count.toNat
    e.print (.words ((List.range n).flatMap (fun j => e.monRec s.hostMem ((e.c.ringProd 0 + 2 ^ 32 - n + j) % 2 ^ 32))))))

/-- ELZMON_RD. -/
def execElzmonRd (off : BitVec 24) (nm1 : BitVec 4) (s : State) : Out :=
  .next (s.onMon (fun e =>
    if !regsIn .elzel off.toNat (nm1.toNat + 1) then e.print (.status ST.BADPARAM)
    else let (e, l) := e.readRun off.toNat (nm1.toNat + 1); e.print (.words l)))

/-- ELZMON_WR. -/
def execElzmonWr (off : BitVec 24) (data : Word) (s : State) : Out :=
  .next (s.onMon (·.monW (fun e =>
    if !regsIn .elzel off.toNat 1 then e.print (.status ST.BADPARAM)
    else let (e, st) := e.regDirect s.hostMem 9 off.toNat ones64 data; e.print (.status st))))

/-- ELZMON_GJ_RD. -/
def execElzmonGjRd (target : MonTarget) (off : BitVec 24) (s : State) : Out :=
  .next (s.onMon (·.monGo target [{ write := false, win := 0, off := off.toNat }]))

/-- ELZMON_GJ_WR. -/
def execElzmonGjWr (target : MonTarget) (off : BitVec 24) (data : Word) (s : State) : Out :=
  .next (s.onMon (·.monW (·.monGo target [{ write := true, win := 0, off := off.toNat, data := data, mask := ones64 }])))

/-- ELZMON_GJ_OBJ: the object word is read, or written with `wr`. -/
def execElzmonGjObj (target : MonTarget) (ctx : BitVec 8) (obj : BitVec 17) (wr : Option Word) (s : State) : Out :=
  let off := ctx.toNat * 0x100000 + obj.toNat * 8
  match wr with
  | none => .next (s.onMon (·.monGo target [{ write := false, win := 2, off := off }]))
  | some v => .next (s.onMon (·.monW (·.monGo target [{ write := true, win := 2, off := off, data := v, mask := ones64 }])))

/-- ELZMON_GJ_DB. The window of a context has 128 operations (R168). -/
def execElzmonGjDb (target : MonTarget) (ctx : BitVec 8) (op : BitVec 8) (data : Word) (s : State) : Out :=
  .next (s.onMon (·.monW (fun e =>
    if op.toNat ≥ 128 then e.print (.status ST.BADPARAM)
    else e.monGo target [{ write := true, win := 1, off := ctx.toNat * 0x400 + op.toNat * 8, data := data, mask := ones64 }])))

/-- The accesses that read the header of a capsule slot. -/
def capReqs (slot : Nat) : List MonReq :=
  { write := true, win := 0, off := GJ.CAP_CTL, data := w64 (put 63 63 slot), mask := w64 (2 ^ 63 + put 10 0 2047) }
    :: List.replicate 8 { write := false, win := 0, off := GJ.CAP_DATA }

/-- ELZMON_GJ_CAP. -/
def execElzmonGjCap (target : MonTarget) (s : State) : Out := .next (s.onMon (·.monGo target (capReqs 0 ++ capReqs 1)))

/-- ELZMON_RST: `arg` is the subsystem, the context or the partition that the level names. -/
def execElzmonRst (target : MonTarget) (level : BitVec 3) (arg : BitVec 8) (s : State) : Out :=
  let l := level.toNat
  let a := arg.toNat
  let w := w64 (put 63 61 l + put 60 56 (if l = 0 then a else 0) + put 55 48 (if l = 1 then a else 0) + put 47 40 (if l = 2 then a else 0))
  .next (s.onMon (·.monW (fun e =>
    match e.monTarget target with
    | .self => let e := e.rstTake (rstOfWord w 9); e.print (.status (e.c.rd EZ.RST_STATUS_STATUS))
    | t => e.monCmd t CM.RESET [w])))

/-- ELZMON_FW_STATUS. -/
def execElzmonFwStatus (s : State) : Out := .next (s.onMon (fun e => e.print (.words [e.view EZ.FW_CTL])))

/-- ELZMON_FW_PROGRAM (R461): the image comes by YMODEM-1K. -/
def execElzmonFwProgram (img : FwImage) (s : State) : Out :=
  .next (s.onMon (·.monW (fun e =>
    let (e, st) := e.fwStart { op := 2, img := some img, status := e.imageStatus 2 img }
    e.print (.status st))))

end Sys2Proof.Machine
end

