-- ==== Sys2Proof/Machine/Dispatch.lean ====
section
/-!
DEFINITION. Sys2Proof/Machine/Dispatch.lean: exec, one arm per command.
-/
namespace Sys2Proof.Machine

def exec (i : Instr) (s : State) : Host.Outcome State Fault Refusal :=
  match i with
  | .gjPorstN => Sys2Proof.Machine.execGjPorstN s
  | .ezPorstN straps uartBreak hbmOk => Sys2Proof.Machine.execEzPorstN straps uartBreak hbmOk s
  | .resetEngine u r sub => Sys2Proof.Machine.execResetEngine u r sub s
  | .resetContext u r ctx => Sys2Proof.Machine.execResetContext u r ctx s
  | .resetPartition u r part => Sys2Proof.Machine.execResetPartition u r part s
  | .resetUnit u r => Sys2Proof.Machine.execResetUnit u r s
  | .coldReset u r => Sys2Proof.Machine.execColdReset u r s
  | .powerGoodTimeout u => Sys2Proof.Machine.execPowerGoodTimeout u s
  | .captureOnly u r => Sys2Proof.Machine.execCaptureOnly u r s
  | .capsuleCaptureDone u => Sys2Proof.Machine.execCapsuleCaptureDone u s
  | .resetDone u => Sys2Proof.Machine.execResetDone u s
  | .resetBoundOver u => Sys2Proof.Machine.execResetBoundOver u s
  | .capDataRead u => Sys2Proof.Machine.execCapDataRead u s
  | .registerWrite u r off mask data => Sys2Proof.Machine.execRegisterWrite u r off mask data s
  | .gtRead => Sys2Proof.Machine.execGtRead s
  | .htSecRead => Sys2Proof.Machine.execHtSecRead s
  | .tbAdjWrite u delta => Sys2Proof.Machine.execTbAdjWrite u delta s
  | .tbIncrWrite u data => Sys2Proof.Machine.execTbIncrWrite u data s
  | .tbSteerWrite u data => Sys2Proof.Machine.execTbSteerWrite u data s
  | .steerStep u => Sys2Proof.Machine.execSteerStep u s
  | .forceHoldWrite u v => Sys2Proof.Machine.execForceHoldWrite u v s
  | .clkfixWrite v => Sys2Proof.Machine.execClkfixWrite v s
  | .servoUpdate u p theta => Sys2Proof.Machine.execServoUpdate u p theta s
  | .epochMark u => Sys2Proof.Machine.execEpochMark u s
  | .holdExpired u => Sys2Proof.Machine.execHoldExpired u s
  | .refclkMeasure ratio => Sys2Proof.Machine.execRefclkMeasure ratio s
  | .holdPause ctx => Sys2Proof.Machine.execHoldPause ctx s
  | .launch ctx => Sys2Proof.Machine.execLaunch ctx s
  | .launchMissed ctx => Sys2Proof.Machine.execLaunchMissed ctx s
  | .regionTick n stretch => Sys2Proof.Machine.execRegionTick n stretch s
  | .rgnStretchRise n => Sys2Proof.Machine.execRgnStretchRise n s
  | .tdcEdge u ch e => Sys2Proof.Machine.execTdcEdge u ch e s
  | .stampAgeDiscard u ch => Sys2Proof.Machine.execStampAgeDiscard u ch s
  | .tdcFifoRead u ch => Sys2Proof.Machine.execTdcFifoRead u ch s
  | .calibrationStart u ch dllCode => Sys2Proof.Machine.execCalibrationStart u ch dllCode s
  | .tdcCalForce u => Sys2Proof.Machine.execTdcCalForce u s
  | .calibrationDone u ch hits locked inTime => Sys2Proof.Machine.execCalibrationDone u ch hits locked inTime s
  | .lineSwap u ch => Sys2Proof.Machine.execLineSwap u ch s
  | .tdcDisable u ch => Sys2Proof.Machine.execTdcDisable u ch s
  | .ssArmWrite u ch r data => Sys2Proof.Machine.execSsArmWrite u ch r data s
  | .ssTimeout u ch => Sys2Proof.Machine.execSsTimeout u ch s
  | .freqArmWrite u ch r data => Sys2Proof.Machine.execFreqArmWrite u ch r data s
  | .freqTimeout u ch => Sys2Proof.Machine.execFreqTimeout u ch s
  | .portEnWrite u p en => Sys2Proof.Machine.execPortEnWrite u p en s
  | .retrain u p => Sys2Proof.Machine.execRetrain u p s
  | .signalDetect u p => Sys2Proof.Machine.execSignalDetect u p s
  | .cdrLock u p => Sys2Proof.Machine.execCdrLock u p s
  | .alignDone u p => Sys2Proof.Machine.execAlignDone u p s
  | .train u p pkt => Sys2Proof.Machine.execTrain u p pkt s
  | .trainSend u p => Sys2Proof.Machine.execTrainSend u p s
  | .trainTimeout u p => Sys2Proof.Machine.execTrainTimeout u p s
  | .lossOfSignal u p reason => Sys2Proof.Machine.execLossOfSignal u p reason s
  | .blockReceived u p badHdr flits trailer => Sys2Proof.Machine.execBlockReceived u p badHdr flits trailer s
  | .replayTimer u p => Sys2Proof.Machine.execReplayTimer u p s
  | .tickDue u p depart => Sys2Proof.Machine.execTickDue u p depart s
  | .tick u p flit stamp depart => Sys2Proof.Machine.execTick u p flit stamp depart s
  | .calDue u p => Sys2Proof.Machine.execCalDue u p s
  | .cal u p flit => Sys2Proof.Machine.execCal u p flit s
  | .sigRoute p flit => Sys2Proof.Machine.execSigRoute p flit s
  | .sig p flit => Sys2Proof.Machine.execSig p flit s
  | .arrive p pkt => Sys2Proof.Machine.execArrive p pkt s
  | .arriveX p pkt => Sys2Proof.Machine.execArriveX p pkt s
  | .apexRelease job => Sys2Proof.Machine.execApexRelease job s
  | .barDeadline job => Sys2Proof.Machine.execBarDeadline job s
  | .releaseForward p pkt => Sys2Proof.Machine.execReleaseForward p pkt s
  | .release p pkt => Sys2Proof.Machine.execRelease p pkt s
  | .releaseRecordAck ctx ok => Sys2Proof.Machine.execReleaseRecordAck ctx ok s
  | .squashRestore ctx => Sys2Proof.Machine.execSquashRestore ctx s
  | .event p pkt => Sys2Proof.Machine.execEvent p pkt s
  | .discDown u p pkt => Sys2Proof.Machine.execDiscDown u p pkt s
  | .discUp p pkt => Sys2Proof.Machine.execDiscUp p pkt s
  | .discSum p pkt => Sys2Proof.Machine.execDiscSum p pkt s
  | .discTimeout p => Sys2Proof.Machine.execDiscTimeout p s
  | .cmd u p pkt => Sys2Proof.Machine.execCmd u p pkt s
  | .reply p pkt => Sys2Proof.Machine.execReply p pkt s
  | .cmdForwardTimeout idx => Sys2Proof.Machine.execCmdForwardTimeout idx s
  | .debug u p pkt => Sys2Proof.Machine.execDebug u p pkt s
  | .selectorTick obs => Sys2Proof.Machine.execSelectorTick obs s
  | .refUpdate src e offset => Sys2Proof.Machine.execRefUpdate src e offset s
  | .qualTimeExpired src => Sys2Proof.Machine.execQualTimeExpired src s
  | .refHoldoffExpired src => Sys2Proof.Machine.execRefHoldoffExpired src s
  | .wtrExpired => Sys2Proof.Machine.execWtrExpired s
  | .refAccept src => Sys2Proof.Machine.execRefAccept src s
  | .loopOpenWrite isOpen freeze => Sys2Proof.Machine.execLoopOpenWrite isOpen freeze s
  | .dcoTrimWrite trim => Sys2Proof.Machine.execDcoTrimWrite trim s
  | .ocxoCompare ppb => Sys2Proof.Machine.execOcxoCompare ppb s
  | .holdSpecEnd => Sys2Proof.Machine.execHoldSpecEnd s
  | .htCarry => Sys2Proof.Machine.execHtCarry s
  | .realignWrite => Sys2Proof.Machine.execRealignWrite s
  | .moveWaitExpired job chip => Sys2Proof.Machine.execMoveWaitExpired job chip s
  | .ptpSync p offset mpd => Sys2Proof.Machine.execPtpSync p offset mpd s
  | .ptpMessage p msg => Sys2Proof.Machine.execPtpMessage p msg s
  | .ptpClassFetch p answer => Sys2Proof.Machine.execPtpClassFetch p answer s
  | .txqEnqueue p d1 => Sys2Proof.Machine.execTxqEnqueue p d1 s
  | .txqDescriptorHead p => Sys2Proof.Machine.execTxqDescriptorHead p s
  | .timedFrameLaunch p => Sys2Proof.Machine.execTimedFrameLaunch p s
  | .frameTransmitted p stamp => Sys2Proof.Machine.execFrameTransmitted p stamp s
  | .etsRead p => Sys2Proof.Machine.execEtsRead p s
  | .txStampAgeDiscard p => Sys2Proof.Machine.execTxStampAgeDiscard p s
  | .ppsOutput stamp tenErr => Sys2Proof.Machine.execPpsOutput stamp tenErr s
  | .stepPulse stamp => Sys2Proof.Machine.execStepPulse stamp s
  | .spulseEnable data => Sys2Proof.Machine.execSpulseEnable data s
  | .spulseRealign data => Sys2Proof.Machine.execSpulseRealign data s
  | .epochModeWrite tai => Sys2Proof.Machine.execEpochModeWrite tai s
  | .semAdd r ctx data => Sys2Proof.Machine.execSemAdd r ctx data s
  | .semSub r ctx data => Sys2Proof.Machine.execSemSub r ctx data s
  | .semSet r ctx data => Sys2Proof.Machine.execSemSet r ctx data s
  | .semTry r ctx data => Sys2Proof.Machine.execSemTry r ctx data s
  | .flagSet r ctx data => Sys2Proof.Machine.execFlagSet r ctx data s
  | .flagClr r ctx data => Sys2Proof.Machine.execFlagClr r ctx data s
  | .flagMode r ctx data => Sys2Proof.Machine.execFlagMode r ctx data s
  | .flagTry r ctx data => Sys2Proof.Machine.execFlagTry r ctx data s
  | .waitGe r ctx data => Sys2Proof.Machine.execWaitGe r ctx data s
  | .waitGeC r ctx data => Sys2Proof.Machine.execWaitGeC r ctx data s
  | .waitEq r ctx data => Sys2Proof.Machine.execWaitEq r ctx data s
  | .waitFlag r ctx data => Sys2Proof.Machine.execWaitFlag r ctx data s
  | .grantPass obj => Sys2Proof.Machine.execGrantPass obj s
  | .resultWordRead tile ctx => Sys2Proof.Machine.execResultWordRead tile ctx s
  | .soTimeout slot => Sys2Proof.Machine.execSoTimeout slot s
  | .objectWindowWrite r ctx obj data => Sys2Proof.Machine.execObjectWindowWrite r ctx obj data s
  | .waiterSlotCapture slot => Sys2Proof.Machine.execWaiterSlotCapture slot s
  | .tapPresent tap addr op val => Sys2Proof.Machine.execTapPresent tap addr op val s
  | .tapWack tap err => Sys2Proof.Machine.execTapWack tap err s
  | .tapValidLow tap => Sys2Proof.Machine.execTapValidLow tap s
  | .activate r ctx gen useGen => Sys2Proof.Machine.execActivate r ctx gen useGen s
  | .park r ctx freeze => Sys2Proof.Machine.execPark r ctx freeze s
  | .parkComplete ctx => Sys2Proof.Machine.execParkComplete ctx s
  | .resume r ctx keep => Sys2Proof.Machine.execResume r ctx keep s
  | .teardown r ctx => Sys2Proof.Machine.execTeardown r ctx s
  | .abandon r ctx => Sys2Proof.Machine.execAbandon r ctx s
  | .drainComplete ctx => Sys2Proof.Machine.execDrainComplete ctx s
  | .drainForced ctx => Sys2Proof.Machine.execDrainForced ctx s
  | .clearingDone ctx => Sys2Proof.Machine.execClearingDone ctx s
  | .functionDisable fn => Sys2Proof.Machine.execFunctionDisable fn s
  | .functionDrained fn => Sys2Proof.Machine.execFunctionDrained fn s
  | .functionForcedOff fn => Sys2Proof.Machine.execFunctionForcedOff fn s
  | .step ctx => Sys2Proof.Machine.execStep ctx s
  | .slack ctx => Sys2Proof.Machine.execSlack ctx s
  | .sop ctx => Sys2Proof.Machine.execSop ctx s
  | .swait ctx => Sys2Proof.Machine.execSwait ctx s
  | .sigout ctx => Sys2Proof.Machine.execSigout ctx s
  | .arriveInstruction ctx => Sys2Proof.Machine.execArriveInstruction ctx s
  | .arriveReadDone ctx ok => Sys2Proof.Machine.execArriveReadDone ctx ok s
  | .br ctx => Sys2Proof.Machine.execBr ctx s
  | .setlc ctx => Sys2Proof.Machine.execSetlc ctx s
  | .mark ctx => Sys2Proof.Machine.execMark ctx s
  | .halt ctx => Sys2Proof.Machine.execHalt ctx s
  | .nop ctx => Sys2Proof.Machine.execNop ctx s
  | .start o ctx pc s1 => Sys2Proof.Machine.execStart o ctx pc s1 s
  | .deadlineStep ctx => Sys2Proof.Machine.execDeadlineStep ctx s
  | .relwait ctx => Sys2Proof.Machine.execRelwait ctx s
  | .programDataAccess write data => Sys2Proof.Machine.execProgramDataAccess write data s
  | .stgOpen u o change kind scope sEff => Sys2Proof.Machine.execStgOpen u o change kind scope sEff s
  | .stgAdd u o change entries => Sys2Proof.Machine.execStgAdd u o change entries s
  | .stgPrepare u o change t fp => Sys2Proof.Machine.execStgPrepare u o change t fp s
  | .stgCommit u o change => Sys2Proof.Machine.execStgCommit u o change s
  | .stgAbort u o change => Sys2Proof.Machine.execStgAbort u o change s
  | .stgQuery u o change => Sys2Proof.Machine.execStgQuery u o change s
  | .stageApplicationPoint u set => Sys2Proof.Machine.execStageApplicationPoint u set s
  | .stageApplyEnd u set => Sys2Proof.Machine.execStageApplyEnd u set s
  | .stageOrphan u set => Sys2Proof.Machine.execStageOrphan u set s
  | .commitLeadExpired change => Sys2Proof.Machine.execCommitLeadExpired change s
  | .shelfPoll raw => Sys2Proof.Machine.execShelfPoll raw s
  | .pwrTelemLost => Sys2Proof.Machine.execPwrTelemLost s
  | .pollTakeover => Sys2Proof.Machine.execPollTakeover s
  | .pollResumeRequest => Sys2Proof.Machine.execPollResumeRequest s
  | .rampArm data => Sys2Proof.Machine.execRampArm data s
  | .rampStart => Sys2Proof.Machine.execRampStart s
  | .rampLevelStep => Sys2Proof.Machine.execRampLevelStep s
  | .pwrReqRise => Sys2Proof.Machine.execPwrReqRise s
  | .pwrSlot => Sys2Proof.Machine.execPwrSlot s
  | .pwrReqFall => Sys2Proof.Machine.execPwrReqFall s
  | .powerStateEntry => Sys2Proof.Machine.execPowerStateEntry s
  | .wake cause => Sys2Proof.Machine.execWake cause s
  | .burrowRelock => Sys2Proof.Machine.execBurrowRelock s
  | .ltrWrite data => Sys2Proof.Machine.execLtrWrite data s
  | .quietEntry => Sys2Proof.Machine.execQuietEntry s
  | .denOnlyRequest force => Sys2Proof.Machine.execDenOnlyRequest force s
  | .denOnlyWake cause => Sys2Proof.Machine.execDenOnlyWake cause s
  | .thermalSample tj => Sys2Proof.Machine.execThermalSample tj s
  | .combineClockChange => Sys2Proof.Machine.execCombineClockChange s
  | .halfExitTimer => Sys2Proof.Machine.execHalfExitTimer s
  | .thermalTrip => Sys2Proof.Machine.execThermalTrip s
  | .eventRecordWrite u ring ok => Sys2Proof.Machine.execEventRecordWrite u ring ok s
  | .recordAgeDrop u ring => Sys2Proof.Machine.execRecordAgeDrop u ring s
  | .ringEnable u ring => Sys2Proof.Machine.execRingEnable u ring s
  | .messageDelivery => Sys2Proof.Machine.execMessageDelivery s
  | .eoi proc msgSrc => Sys2Proof.Machine.execEoi proc msgSrc s
  | .msgRaise bits => Sys2Proof.Machine.execMsgRaise bits s
  | .irqPendClear u bits => Sys2Proof.Machine.execIrqPendClear u bits s
  | .denWatch u reason => Sys2Proof.Machine.execDenWatch u reason s
  | .ringDoorbell ring data => Sys2Proof.Machine.execRingDoorbell ring data s
  | .sqTailWrite u q tail => Sys2Proof.Machine.execSqTailWrite u q tail s
  | .cqDoorbell q data => Sys2Proof.Machine.execCqDoorbell q data s
  | .queueEnable u q => Sys2Proof.Machine.execQueueEnable u q s
  | .nopCmd u o => Sys2Proof.Machine.execNopCmd u o s
  | .identify u o => Sys2Proof.Machine.execIdentify u o s
  | .regRead u o off nm1 => Sys2Proof.Machine.execRegRead u o off nm1 s
  | .regWrite u o off mask data => Sys2Proof.Machine.execRegWrite u o off mask data s
  | .jobSubmit o job ctx change addr len dpDie tReq fp => Sys2Proof.Machine.execJobSubmit o job ctx change addr len dpDie tReq fp s
  | .jobChange o job ctx change addr len fp => Sys2Proof.Machine.execJobChange o job ctx change addr len fp s
  | .jobEnd o job change sLast => Sys2Proof.Machine.execJobEnd o job change sLast s
  | .barMove o job domain => Sys2Proof.Machine.execBarMove o job domain s
  | .discover o mask => Sys2Proof.Machine.execDiscover o mask s
  | .dieWake o port => Sys2Proof.Machine.execDieWake o port s
  | .txqSubmit o port addr d0 d1 => Sys2Proof.Machine.execTxqSubmit o port addr d0 d1 s
  | .txqStamp o port nm1 => Sys2Proof.Machine.execTxqStamp o port nm1 s
  | .healthRead o chip => Sys2Proof.Machine.execHealthRead o chip s
  | .owlPair o job en chipA chipB => Sys2Proof.Machine.execOwlPair o job en chipA chipB s
  | .rollback o job step => Sys2Proof.Machine.execRollback o job step s
  | .jrnlCopy o region off64 addr len => Sys2Proof.Machine.execJrnlCopy o region off64 addr len s
  | .capsuleRead o own chip addr len => Sys2Proof.Machine.execCapsuleRead o own chip addr len s
  | .hltTally rec => Sys2Proof.Machine.execHltTally rec s
  | .hltUnattributed job step => Sys2Proof.Machine.execHltUnattributed job step s
  | .hltRefWrite digest => Sys2Proof.Machine.execHltRefWrite digest s
  | .owlDigests k isOwl step digests => Sys2Proof.Machine.execOwlDigests k isOwl step digests s
  | .owlNostart k => Sys2Proof.Machine.execOwlNostart k s
  | .owlCleared k => Sys2Proof.Machine.execOwlCleared k s
  | .scoreDecay => Sys2Proof.Machine.execScoreDecay s
  | .ckptHandleWrite handle => Sys2Proof.Machine.execCkptHandleWrite handle s
  | .spareTrial k => Sys2Proof.Machine.execSpareTrial k s
  | .spareMapPresent tiles used => Sys2Proof.Machine.execSpareMapPresent tiles used s
  | .spareMapTake => Sys2Proof.Machine.execSpareMapTake s
  | .spareMapDone => Sys2Proof.Machine.execSpareMapDone s
  | .heartbeat u => Sys2Proof.Machine.execHeartbeat u s
  | .hbSummary => Sys2Proof.Machine.execHbSummary s
  | .denBeat => Sys2Proof.Machine.execDenBeat s
  | .fwVerify => Sys2Proof.Machine.execFwVerify s
  | .fwProgram => Sys2Proof.Machine.execFwProgram s
  | .fwConfig => Sys2Proof.Machine.execFwConfig s
  | .fwOpDone ok => Sys2Proof.Machine.execFwOpDone ok s
  | .monitorVerify img => Sys2Proof.Machine.execMonitorVerify img s
  | .monitorProgram img => Sys2Proof.Machine.execMonitorProgram img s
  | .monitorConfig blk => Sys2Proof.Machine.execMonitorConfig blk s
  | .monitorStatus => Sys2Proof.Machine.execMonitorStatus s
  | .elzmonId target => Sys2Proof.Machine.execElzmonId target s
  | .elzmonTime => Sys2Proof.Machine.execElzmonTime s
  | .elzmonRef => Sys2Proof.Machine.execElzmonRef s
  | .elzmonPorts => Sys2Proof.Machine.execElzmonPorts s
  | .elzmonBind => Sys2Proof.Machine.execElzmonBind s
  | .elzmonEvt count => Sys2Proof.Machine.execElzmonEvt count s
  | .elzmonRd off nm1 => Sys2Proof.Machine.execElzmonRd off nm1 s
  | .elzmonWr off data => Sys2Proof.Machine.execElzmonWr off data s
  | .elzmonGjRd target off => Sys2Proof.Machine.execElzmonGjRd target off s
  | .elzmonGjWr target off data => Sys2Proof.Machine.execElzmonGjWr target off data s
  | .elzmonGjObj target ctx obj wr => Sys2Proof.Machine.execElzmonGjObj target ctx obj wr s
  | .elzmonGjDb target ctx op data => Sys2Proof.Machine.execElzmonGjDb target ctx op data s
  | .elzmonGjCap target => Sys2Proof.Machine.execElzmonGjCap target s
  | .elzmonRst target level arg => Sys2Proof.Machine.execElzmonRst target level arg s
  | .elzmonFwStatus => Sys2Proof.Machine.execElzmonFwStatus s
  | .elzmonFwProgram img => Sys2Proof.Machine.execElzmonFwProgram img s
  | .blockTransmit u p => Sys2Proof.Machine.execBlockTransmit u p s
  | .digestValidLatch digest => Sys2Proof.Machine.execDigestValidLatch digest s
  | .evtInEdgeLatch pin falling => Sys2Proof.Machine.execEvtInEdgeLatch pin falling s
  | .gpllLockLoss u => Sys2Proof.Machine.execGpllLockLoss u s
  | .ptpMessageDue p kind => Sys2Proof.Machine.execPtpMessageDue p kind s
  | .announceReceiptTimeout p => Sys2Proof.Machine.execAnnounceReceiptTimeout p s
  | .moduleInputLoss => Sys2Proof.Machine.execModuleInputLoss s
  | .tapValidEarlyFall tap => Sys2Proof.Machine.execTapValidEarlyFall tap s
  | .cqReplyWritten u q ok => Sys2Proof.Machine.execCqReplyWritten u q ok s

end Sys2Proof.Machine
end

