-- ==== Sys2Proof/Machine/Idle.lean ====
section
/-!
DEFINITION. Sys2Proof/Machine/Idle.lean: what time does while no command waits: the clocks' edges, the progress counts (R383), and what the
parts do by themselves as soon as they can.
-/
namespace Sys2Proof.Machine

variable {pt : Part}

/-! ### Progress (R383) -/

/-- Records that a ring with room can take. -/
def Chip.recsReady (c : Chip pt) : Nat :=
  (c.ev.queue.filter (fun r => r.rings.any (fun k => c.ringOn k && c.ringFree k != 0))).length

/-- Packets for which a credit stands, and flits of packets begun. -/
def Chip.flitsReady (c : Chip pt) : Nat :=
  ((List.range 2).map (fun p =>
    let l := c.link p
    if c.up p then l.cur.length + b2n l.nextCls.isSome + l.resend.length else 0)).sum

/-- The work that subsystem s of Garja could act on: 0 for none. In the sequencer, the places of the contexts that may issue. -/
def Garja.workOf (g : Garja) (s : Nat) : Nat :=
  if g.c.subHeld s || !g.c.clocked || g.c.pw.st == .nap then 0
  else match s with
    | 4 => g.so.passes.length + g.so.intake.length
    | 5 => (((List.range 256).filter g.mayIssue).map (fun x => 1 + g.pc x + 4096 * (g.seq x).nxt)).sum
    | 7 => g.c.recsReady + b2n g.c.msgNext.isSome
    | 8 => g.c.flitsReady
    | _ => 0

/-- The work that subsystem s of Elzel could act on: what its engines can act on they do at once, but for event records. -/
def Elzel.workOf (e : Elzel) (s : Nat) : Nat := if s == 15 && e.c.clocked && !e.c.subHeld 15 then e.c.recsReady else 0

/-- The count of a subsystem goes on while its work stands: the work has not become less, and the sequencer is where it was. DESIGN
CHOICE (log entry 72). -/
def stallStep (now : Nat) (old : List (Nat × Nat × Nat)) (s w : Nat) : Nat × Nat × Nat :=
  match old.find? (fun x => x.1 == s) with
  | some x => if x.2.1 != 0 && (if s == 5 then x.2.1 == w else decide (w ≥ x.2.1)) then (s, w, x.2.2) else (s, w, now)
  | none => (s, w, now)

def Garja.progress (g : Garja) : Garja :=
  let ws := (List.range 8).map (fun i => stallStep g.c.now g.c.den.stall (i + 1) (g.workOf (i + 1)))
  g.onC (·.onDenSt (fun d => { d with stall := ws }))

def Elzel.progress (e : Elzel) : Elzel :=
  let ws := (List.range 7).map (fun i => stallStep e.c.now e.c.den.stall (i + 9) (e.workOf (i + 9)))
  e.onC (·.onDenSt (fun d => { d with stall := ws }))

/-! ### Time -/

/-- One edge of the clock that keeps Garja's time. -/
def Garja.edge (g : Garja) (mem : Mem) : Garja :=
  let n := g.onC Chip.edge
  let n := n.onBal (fun b => { b with lvlNs := b.lvlNs + g.level * (n.c.now - g.c.now) })
  let n := (n.onC Chip.denServe).takeQueues mem
  (n.onC (·.noteIdle n.idle)).progress

/-- One edge of the clock that keeps Elzel's time. -/
def Elzel.edge (e : Elzel) : Elzel :=
  let n := ((e.onC Chip.edge).monTick).onC Chip.denServe
  (n.onC (·.noteIdle n.idle)).progress

/-- Time passes when no command waits: one edge of each part's clock, after which the parts take commands from their queue pairs and
firmware does what is due (DESIGN CHOICE, log entry 4). -/
def State.idle (s : State) : State :=
  let t : State := { s with gj := s.gj.edge s.dieMem, ez := s.ez.edge }
  t.onEzCmd id

end Sys2Proof.Machine
end

