-- ==== Sys2Proof/Safety.lean ====
section
/-!
DEFINITION. Sys2Proof/Safety.lean: the words in which claims about a run are made: canonical memories, what reporting an event
may change, a part that takes register commands, and which parts a command leaves alone.
-/
namespace Sys2Proof.Machine

variable {pt : Part}

/-! ### Memories -/

/-- Both memories that the block writes are in canonical form. -/
def State.canon (s : State) : Bool := memWf s.dieMem && memWf s.hostMem

/-! ### Reporting -/

/-- Registers that raising an event or latching an interrupt source may change: the counters of the event subsystem, the drop
counts of the rings, IRQ_PEND; in Garja the wake counters, in Elzel the pending bits of the vectors and the counters of the
journal (R310, R325, R330, R333, R336, R356). -/
def evtReg : Part → Nat → Bool
  | .garja, o =>
    o == GJ.EVT_STATUS || o == GJ.IRQ_PEND || o == GJ.PST_STATUS
      || (decide (GJ.EVT_RING_CFG ≤ o) && decide (o < GJ.EVT_RING_CFG + 0x20 * 16) && (o - GJ.EVT_RING_CFG) % 0x20 == 0)
  | .elzel, o =>
    o == EZ.EVT_STATUS || o == EZ.IRQ_PEND || o == EZ.JRNL_CTL
      || (decide (EZ.EVT_RING_CFG ≤ o) && decide (o < EZ.EVT_RING_CFG + 0x20 * 64) && (o - EZ.EVT_RING_CFG) % 0x20 == 0)
      || (decide (EZ.MSIX_PBA ≤ o) && decide (o < EZ.MSIX_PBA + 8 * 18))
      || (decide (EZ.JRNL_REG_W1 ≤ o) && decide (o < EZ.JRNL_REG_W1 + 0x10 * 5) && (o - EZ.JRNL_REG_W1) % 0x10 == 0)

/-- How many event rings a part has (R322, R334). -/
def ringCount : Part → Nat
  | .garja => 16
  | .elzel => 64

/-- A part without its registers and what reporting an event may change beside them: records and vectors, EVENT packets in the
queues of the ports, the journal, and the power state that a wake ends. -/
def Chip.body (c : Chip pt) : Chip pt :=
  { c with regs := [], ev := {}, jrnl := [], traceStopped := false, pw := {},
           links := c.links.map (fun l => { l with txq := { l.txq with evt := [] } }) }

/-- d differs from c by reported events alone. -/
def Chip.Reported (c d : Chip pt) : Prop :=
  d.body = c.body ∧ (∀ o, evtReg pt o = false → d.get o = c.get o) ∧ d.clocked = c.clocked

/-- Registers of d outside the list, reporting apart, read as in c. -/
def Chip.Touches (c d : Chip pt) (l : List Nat) : Prop := ∀ o, o ∉ l → evtReg pt o = false → d.get o = c.get o

/-! ### Parts -/

/-- The part runs, so a register command acts on it at once. A Garja in NAP or BURROW is first woken (R310). -/
def State.running (s : State) (u : Part) : Prop := (s.chip u).pw.st = .run ∧ (s.chip u).den.dead = false

/-- The command completes, changes what all chips have on part u alone, and leaves there d and reported events. -/
def Yields (u : Part) (i : Instr) (s : State) (d : Chip u) : Prop :=
  ∃ t, exec i s = .next t ∧ t = s.onDen u (fun _ => t.chip u) ∧ d.Reported (t.chip u)

/-- No command stands in a submission queue of the part (R342). -/
def Chip.NoQueued (c : Chip pt) : Prop :=
  ∀ q, q < c.nQueues → c.rd (PT.QP_SQ_IDX_HEAD pt) q = c.rd (PT.QP_SQ_IDX_TAIL pt) q

/-- The requester may ask the Den of the part for a reset (R379). -/
def State.mayReset (s : State) : Part → Requester → Bool
  | .garja, .proc p => decide (p.toNat < s.gj.c.prm.nProc)
  | .garja, .elzel => true
  | .elzel, .elzel => true
  | .elzel, .host => true
  | _, .debug => true
  | _, _ => false

/-- Nothing waits in Garja: no context command for the end of a grant pass, no sequencer for an operation, a wait or a launch, no
operation in the intake, and no command in a submission queue. -/
def Garja.Calm (g : Garja) : Prop :=
  (∀ r ∈ g.ctxs, r.due = none) ∧ (∀ q ∈ g.seqs, q.ended = none ∧ q.waiting = false ∧ q.await_ = false) ∧ g.so.intake = [] ∧ g.c.NoQueued

/-- The data of a doorbell write (R168): the generation, VALUE or N, TO and OBJ. -/
def doorData (gen val to_ obj : Nat) : Word := w64 (put 63 56 gen + put 55 24 val + put 23 20 to_ + put 16 0 obj)

/-- The requester is a tile that no spare-map load moves, or a management processor that the build has (R169, R422). -/
def Garja.serves (g : Garja) : Requester → Bool
  | .tile _ => g.smap.isNone
  | .proc p => decide (p.toNat < g.c.prm.nProc)
  | _ => false

/-- The context is ACTIVE, the object lies in its window and in the build, and the sync object engine takes an operation on it at once: no
pass runs, no apply is under way, no fox window is open and no reset runs. -/
def Garja.EngineReady (g : Garja) (ctx obj : Nat) : Prop :=
  g.ctxState ctx = 1 ∧ obj < g.c.rd GJ.CTX_XLAT_SIZE ctx ∧ obj < g.objCount ∧ g.so.passes = [] ∧ g.c.applying = false
    ∧ g.c.foxCtx = none ∧ g.fox.undo = [] ∧ g.fox.squash = none ∧ g.c.den.run = none

/-- Garja takes the doorbell at once: it runs, nothing waits in it, and the doorbell function is on (R208). -/
def State.DoorReady (s : State) (r : Requester) (ctx obj : Nat) : Prop :=
  s.running .garja ∧ s.gj.Calm ∧ s.gj.serves r = true ∧ s.gj.EngineReady ctx obj ∧ s.gj.c.fnOn 0 = true

/-- The physical object of OBJ in a context's window (R165). -/
def Garja.physOf (g : Garja) (ctx obj : Nat) : Nat := g.c.rd GJ.CTX_XLAT_BASE ctx + obj

/-- Garja with object phys at word w, a status answered, and, where asked, a grant pass begun on it. -/
def Garja.withObj (g : Garja) (phys : Nat) (w : Word) (r : Requester) (st : Nat) (pass : Bool) : Garja :=
  { g with so := { g.so with objs := sparseSet g.so.objs phys w, answers := (r, st) :: g.so.answers,
                             passes := if pass then [{ phys := phys }] else [] } }

/-- Garja with a status answered. -/
def Garja.answered (g : Garja) (r : Requester) (st : Nat) : Garja := { g with so := { g.so with answers := (r, st) :: g.so.answers } }

/-- The outcome of a tile's wait in its result word (R174, R176): the outcome, NEW, the stamp and OBJ. -/
def Garja.withResult (g : Garja) (tile outcome obj : Nat) : Garja :=
  let w := w64 (put 63 56 outcome + 2 ^ 55 + put 48 17 g.c.stamp + put 16 0 obj)
  { g with so := { g.so with results := sparseSet g.so.results tile w } }

/-- Context x has no fox window, no ballast, no open accounting window and no wait, and no grant pass runs. -/
def Garja.Plain (g : Garja) (x : Nat) : Prop :=
  g.c.foxCtx = none ∧ g.c.rd GJ.PWR_CFG_CTX ≠ x ∧ g.c.tb.clkfixWait = none ∧ (∀ n, n < 64 → g.c.flag GJ.RGN_LOST_OPEN n = false)
    ∧ (∀ w ∈ g.so.waiters, w.ctx ≠ x) ∧ g.so.passes = []

/-- A context command reported done in GJ_CTX_CMDSTAT, which was last written with opcode op for context x (R196). -/
def Chip.cmdDone (c : Chip .garja) (st : Nat) : Chip .garja := (c.wr GJ.CTX_CMDSTAT_STATUS st).wr GJ.CTX_CMDSTAT_DONE 1

/-- GJ_CTX_CMDSTAT as a write of GJ_CTX_CMD with opcode op for context x leaves it (R196). -/
def Chip.cmdTaken (c : Chip .garja) (op x : Nat) : Chip .garja := c.set GJ.CTX_CMDSTAT (w64 (put 47 44 op + put 43 36 x))

/-- A context command may come from this requester: a processor of the build, an Elzel or the debug path (R204). -/
def Garja.commands (g : Garja) : Requester → Bool
  | .proc p => decide (p.toNat < g.c.prm.nProc)
  | .elzel => true
  | .debug => true
  | _ => false

/-- A context retires its generation and begins to drain (R194, R197): HIST, CUR, FROZEN and the barrier move's PEND. -/
def Chip.retired (c : Chip .garja) (x : Nat) : Chip .garja :=
  let cur := c.rd GJ.CTX_STATE_CUR x
  (((c.wr GJ.CTX_STATE_HIST (cur * 2 ^ 24 + c.rd GJ.CTX_STATE_HIST x / 256) x).wr GJ.CTX_STATE_CUR ((cur + 1) % 256) x).wr
    GJ.CTX_STATE_FROZEN 0 x).wr GJ.BDOM_PEND 0 x

/-- Nothing waits in Elzel's firmware: no submitted job, no change under way or to be tried again, no write to host memory and no
command in a submission queue; and no ramp, plan or admission that it holds has come to its end. -/
def Elzel.Calm (e : Elzel) : Prop :=
  e.mgr.planq = [] ∧ e.mgr.late = [] ∧ e.mgr.coords = [] ∧ e.mgr.toHost = [] ∧ e.c.NoQueued
    ∧ (∀ r ∈ e.mgr.ramps, e.c.gtInt < r.ends) ∧ (∀ p ∈ e.mgr.plans, ∀ t, p.endAt = some t → e.c.gtInt < t)
    ∧ (∀ x ∈ e.mgr.hlt.admits, e.c.gtInt < x.1)

/-- Elzel without its registers, what reporting an event may change, and what the summaries of R17 keep and send: the reports of the
ports, and the DISC_SUM packets of the uplinks and peer ports. -/
def Elzel.body (e : Elzel) : Elzel :=
  { e with
    c := { e.c.body with
      links := e.c.body.links.take 64 ++ (e.c.body.links.drop 64).map (fun l =>
        { l with txq := { l.txq with mgmt := l.txq.mgmt.filter (fun k => bits (k.flits.headD 0) 117 114 != 3) } }) }
    mgr := { e.mgr with sums := [], oks := [], sentSum := [] } }

/-- The command completes, changes Garja alone, and leaves there g and reported events. -/
def YieldsGj (i : Instr) (s : State) (g : Garja) : Prop :=
  ∃ t, exec i s = .next t ∧ t = { s with gj := t.gj } ∧ { t.gj with c := g.c } = g ∧ g.c.Reported t.gj.c

/-- The command completes, changes Elzel alone, and leaves there e, reported events, and what follows from the summaries (TREE_READY of
EZ_BOOT_STATUS among it, R460). -/
def YieldsEz (i : Instr) (s : State) (e : Elzel) : Prop :=
  ∃ t, exec i s = .next t ∧ t = { s with ez := t.ez } ∧ t.ez.body = e.body
    ∧ (∀ o, o ≠ EZ.BOOT_STATUS → evtReg .elzel o = false → t.ez.c.get o = e.c.get o) ∧ t.ez.c.clocked = e.c.clocked

/-- Context x is ACTIVE and its sequencer, in RUN, issues the instruction w at its PC (R249, R250, R263): no operation or wait of its own is
under way, no stage set is applied, no reset runs, no fox window is open and no PARK waits. -/
def Garja.Issues (g : Garja) (x : Nat) (q : SeqCtx) (w : Word) : Prop :=
  g.seqs[x]? = some q ∧ g.ctxState x = 1 ∧ g.c.rd GJ.SQ_CTX_STATE_STATE x = 1 ∧ q.busy = false ∧ q.pcOver = false ∧ q.ended = none
    ∧ q.waiting = false ∧ g.c.applying = false ∧ g.c.den.run = none ∧ g.c.foxCtx = none ∧ g.fox.squash = none ∧ (g.run x).park = none
    ∧ g.c.rd GJ.SQ_CTX_CFG_CODE_LO x ≤ g.c.rd GJ.SQ_CTX_STATE_PC x ∧ g.c.rd GJ.SQ_CTX_STATE_PC x ≤ g.c.rd GJ.SQ_CTX_CFG_CODE_HI x
    ∧ g.c.rd GJ.SQ_CTX_STATE_PC x < 4095 ∧ sparseGet g.prog (g.c.rd GJ.SQ_CTX_STATE_PC x) = w

/-- Garja with the instruction at the PC of context x issued: the PC moved on, that instruction's PC kept, and the sequencer's own state
changed by f. -/
def Garja.stepped (g : Garja) (x : Nat) (f : SeqCtx → SeqCtx) : Garja :=
  let pc := g.c.rd GJ.SQ_CTX_STATE_PC x
  { g with c := g.c.wr GJ.SQ_CTX_STATE_PC (pc + 1) x, seqs := upd g.seqs x (fun q => f { q with ipc := pc }) }

/-- Nothing waits in Garja but what the sequencer of context x waits for. -/
def Garja.CalmOff (g : Garja) (x : Nat) : Prop :=
  (∀ r ∈ g.ctxs, r.due = none) ∧ (∀ y q, g.seqs[y]? = some q → y ≠ x → q.ended = none ∧ q.waiting = false ∧ q.await_ = false) ∧ g.so.intake = []
    ∧ g.c.NoQueued

/-- Context x has no fox window, no ballast and no open accounting window. -/
def Garja.Bare (g : Garja) (x : Nat) : Prop :=
  g.c.foxCtx = none ∧ g.c.rd GJ.PWR_CFG_CTX ≠ x ∧ g.c.tb.clkfixWait = none ∧ (∀ n, n < 64 → g.c.flag GJ.RGN_LOST_OPEN n = false)

/-- The sequencer of context x stopped by a fault (R262): FAULT, the count, and nothing that it waits for. -/
def Garja.faulted (g : Garja) (x : Nat) : Garja :=
  { g with c := (g.c.wr GJ.SQ_CTX_STATE_STATE 6 x).inc GJ.SQ_CNT_FAULT
           seqs := upd g.seqs x (fun q => { q with await_ := false, waiting := false, ended := none, br := none, inStep := false }) }

/-- The launch time of the step that context x awaits (R257): G(S1) for the first, else T_L of the RELEASE of the step before. -/
def Garja.LaunchAt (g : Garja) (x : Nat) (q : SeqCtx) (t : Nat) : Prop :=
  let step := g.c.rd GJ.SQ_CTX_STATE_STEP x
  (q.first = true ∧ t = (g.c.rd GJ.SQ_CTX_ANCHOR_ANCHOR x + step * g.c.rd GJ.SQ_CTX_CFG_PERIOD x) % 2 ^ 64)
    ∨ (q.first = false ∧ ∃ r, q.rels.find? (fun r => r.step + 1 == step) = some r ∧ t = r.tl)

/-- Context x is ACTIVE and awaits the launch of its step at T: in WAIT_LAUNCH, with no PARK, no fox window and no other context awaiting
a launch. -/
def Garja.Launching (g : Garja) (x : Nat) (q : SeqCtx) (t : Nat) : Prop :=
  g.CalmOff x ∧ g.Bare x ∧ g.seqs[x]? = some q ∧ q.await_ = true ∧ q.ended = none ∧ q.waiting = false ∧ q.busy = false ∧ g.ctxState x = 1
    ∧ g.c.rd GJ.SQ_CTX_STATE_STATE x = 3 ∧ (g.run x).park = none ∧ g.c.pw.st = .run ∧ g.LaunchAt x q t

/-- The conditions of R257 hold: the lock state, no PAUSED, HOLDOVER within the budget, no SETTLE hold, and no stage set in the way. -/
def Garja.mayLaunch (g : Garja) (x : Nat) : Prop :=
  (g.c.lock = 2 ∨ (g.c.lock = 3 ∧ g.c.rd GJ.HOLD_BUDGET_BUDGET x ≠ 0)) ∧ g.c.flag GJ.HOLD_BUDGET_PAUSED x = false
    ∧ g.c.effTime ≤ g.c.rd GJ.HOLD_BUDGET_BUDGET x ∧ g.c.tb.settleUntil ≤ g.c.now
    ∧ (∀ k, k < 4 → g.c.rd GJ.STG_S_W0_STATE k = 0) ∧ g.c.applying = false

/-- A packet joins the transmit queue of its class on a port that is up. -/
def Chip.queued (c : Chip pt) (p : Nat) (k : Cls) (pkt : Pkt) (ctx : Option Nat := none) : Chip pt :=
  if c.up p then c.onLink p (fun l => { l with txq := l.txq.mod k (· ++ [{ flits := pkt, ctx := ctx }]) }) else c

/-- A packet received and waiting first in its class is taken, and its flits are freed (R81). -/
def Chip.taken (c : Chip pt) (p : Nat) (k : Cls) (pkt : Pkt) : Chip pt :=
  c.onLink p (fun l => { l with rx := l.rx.mod k (·.drop 1), freed := l.freed.mod k (fun n => (n + pkt.length) % 256) })

/-- Nothing disturbs the combining engine: Elzel's clocks run, nothing waits in its firmware, no apply and no reset is under way, no set holds a
step, no item waits and no chain is under way, and there is neither a pairing nor a replay. -/
def Elzel.Combining (e : Elzel) : Prop :=
  e.c.clocked = true ∧ e.Calm ∧ e.c.applying = false ∧ e.c.den.run = none ∧ (∀ k, k < 16 → e.c.rd EZ.STG_S_W0_STATE k = 0)
    ∧ (∀ p, p < 64 → (e.c.link p).barHeld = [] ∧ (e.c.link p).chain = []) ∧ (∀ k, k < 64 → e.c.flag EZ.HLT_OWL_W0_VALID k = false)
    ∧ e.cmb.replays = [] ∧ e.cmb.owlWait = [] ∧ e.cmb.moved = []

/-- A packet waits first in its class on a port that is UP and may receive its type (R79). -/
def Elzel.Receives (e : Elzel) (p : Nat) (k : Cls) (t : Nat) (pkt : Pkt) : Prop :=
  e.c.up p = true ∧ e.c.typeAllowed p t = true ∧ bits (pkt.headD 0) 127 124 = t ∧ ∃ rest, (e.c.link p).rx.at k = pkt :: rest

/-- The item with first flit f is one of the valid job j, for the descriptor d, which is VALID and of the item's FMT, in the window of R210. -/
def Elzel.ItemOf (e : Elzel) (j d : Nat) (f : Flit) : Prop :=
  e.c.jobValid j = true ∧ bits f 97 88 < e.c.rd EZ.CMB_JOB_W1_BAR_CNT j ∧ d = e.c.rd EZ.CMB_JOB_W1_BAR_BASE j + bits f 97 88
    ∧ d < 16384 ∧ e.c.flag EZ.CMB_BDESC_W0_VALID d = true ∧ e.c.rd EZ.CMB_BDESC_W0_FMT d = bits f 32 29
    ∧ redSupported (bits f 32 29) (e.c.rd EZ.CMB_BDESC_W0_OP d) = true ∧ e.c.relNext j ≤ bits f 87 40 ∧ bits f 87 40 < e.c.relNext j + 4

/-- An instance after an item of port p (R219, R220): the port complete, the item counted, and its digest and values taken in. -/
def Inst.took (i : Inst) (dig op p : Nat) (pkt : Pkt) : Inst :=
  let f := pkt.headD 0
  let n := bits f 28 10
  let d := (bits (pkt.getD 1 0) 127 64)
  let up := bits f 127 124 == 3 && bit (pkt.getD 1 0) 63
  let v := if bits f 32 29 = 0 then none else some (Lanes.ofPayload (bits f 32 29) op (bytesOfFlits ((pkt.drop 2).take 4)))
  { i with
    digest := if dig = 1 then (i.digest + d) % 2 ^ 64 else if dig = 2 ∧ i.items = 0 then d else i.digest
    mis := if dig = 2 then (if i.items = 0 then up else i.mis || up || decide (d ≠ i.digest)) else i.mis
    lanes := match i.lanes, v with | some a, some b => some (a.merge i.fmt op b) | none, b => b | a, none => a
    ports := i.ports ++ [{ port := p, sum := n }]
    items := i.items + 1
    count := i.count + n }

/-- Elzel once the item of port p has been taken into instance i of job j, where `old` are the instances with i among them (R218): a sett
whose member ports are now all complete is COMPLETE at the apex and sends its partial below it. -/
def Elzel.tookItem (e : Elzel) (old : List Inst) (i : Inst) (d p : Nat) (pkt : Pkt) : Elzel :=
  let op := e.c.rd EZ.CMB_BDESC_W0_OP d
  let i2 := i.took (e.c.rd EZ.CMB_BDESC_W0_DIG d) op p pkt
  let c := e.c.taken p .bar pkt
  let c := if i2.mis && !i.mis then c.inc EZ.CMB_CNT1_DIG_MIS else c
  let all := (e.c.members i.job i.step).all (fun q => q == p || i.portDone (e.c.dies i.job i.step q) q)
  let put := fun (x : Inst) => old.map (fun y => if y.job == i.job && y.step == i.step then x else y)
  if !all then { e with c := c, cmb := { e.cmb with insts := put i2 } }
  else
    let i3 := { i2 with st := .complete, done := e.c.gtInt }
    if e.c.isApex i.job then { e with c := c, cmb := { e.cmb with insts := put i3 } }
    else
      let pkts := partialPkts i3 op (e.c.sumDies i.job i.step)
      { e with
        c := pkts.foldl (fun c k => c.queued e.c.uplink .bar k) c
        cmb := { e.cmb with insts := put { i3 with st := .sent }, kept := e.cmb.kept ++ pkts.map (fun k => { job := i.job, step := i.step, pkt := k }) } }

/-- A RELEASE of a step passed down (R218): sent on every member port, what the step held freed, and REL_THRU raised. -/
def Elzel.passed (e : Elzel) (c : Chip .elzel) (job step : Nat) (pkt : Pkt) : Elzel :=
  let c := (e.c.members job step).foldl (fun c p => c.queued p .rel pkt) c
  { e with
    c := { c.wr EZ.CMB_JOB_W2_REL_THRU step job with fresh := c.fresh.filter (· != job) }
    cmb := { e.cmb with insts := e.cmb.insts.filter (fun i => !(i.job == job && decide (i.step ≤ step)))
                        recs := e.cmb.recs.filter (fun r => !(r.1 == job && decide (r.2 ≤ step)))
                        kept := e.cmb.kept.filter (fun k => !(k.job == job && decide (k.step ≤ step)))
                        tls := e.cmb.tls.filter (fun t => !(t.1 == job && decide (t.2.1 ≤ step))) } }

/-- Part u serves commands at once: it runs, nothing waits in it, no reset runs, no command or reply is under way, and in Elzel firmware runs
(R338, R350). -/
def State.Serves (s : State) (u : Part) : Prop :=
  s.running u ∧ (s.chip u).den.run = none ∧ (s.chip u).cmd = {}
    ∧ (match u with | .garja => s.gj.Calm | .elzel => s.ez.Calm ∧ s.ez.c.rd EZ.BOOT_STATUS_STAGE = 4)

/-- Part u takes the command o of a queue pair at once: the pair is enabled and the protocol level is one that the part speaks (R342, R346). -/
def State.Takes (s : State) (u : Part) (o : Order) : Prop :=
  s.Serves u ∧ o.routed = false
    ∧ (s.chip u).rd (PT.CMD_CAP_LVL_MIN u) ≤ o.lvl.toNat ∧ o.lvl.toNat ≤ (s.chip u).rd (PT.CMD_CAP_LVL_MAX u)
    ∧ (∃ q, o.src = .queue q ∧ (s.chip u).flag (PT.QP_CFG_EN u) q.toNat = true)

/-- The command completes, changes part u alone, and leaves c there. -/
def YieldsPart (u : Part) (i : Instr) (s : State) (c : Chip u) : Prop :=
  match u, c with
  | .garja, c => YieldsGj i s { s.gj with c := c }
  | .elzel, c => YieldsEz i s { s.ez with c := c }

/-- Nothing waits in part u. -/
def State.calm (s : State) (u : Part) : Prop := match u with | .garja => s.gj.Calm | .elzel => s.ez.Calm

/-- The reply of a command waits for its completion queue (R341, R342); Garja counts what it refuses. -/
def Chip.replied {u : Part} (c : Chip u) (o : Order) (op : Nat) (a : Ans) : Chip u :=
  let ws := replyWords o op a.st a.detail a.index c.stamp a.body
  let c : Chip u := match o.src with
    | .queue q => { c with cmd := { c.cmd with replies := c.cmd.replies ++ [{ q := q.toNat, words := ws }] } }
    | .port _ => c
  match u, c with
  | .garja, c => if a.st = 0 then c else c.inc GJ.CMD_STATUS_REFUSED
  | .elzel, c => c

/-- The command completes, changes part u alone, and leaves there c with the reply a to the order o of opcode op. -/
def Answers (u : Part) (i : Instr) (s : State) (o : Order) (op : Nat) (c : Chip u) (a : Ans) : Prop :=
  match u, c with
  | .garja, c => YieldsGj i s { s.gj with c := c.replied o op a }
  | .elzel, c => YieldsEz i s { s.ez with c := c.replied o op a }

/-- Set k of a part is the one that holds CHANGE (R279). -/
def Chip.holds (c : Chip pt) (k change : Nat) : Prop :=
  k < c.nSets ∧ ∀ j, j < c.nSets → (c.rd (PT.STG_S_W0_STATE pt) j ≠ 0 ∧ c.rd (PT.STG_S_W0_CHANGE pt) j = change ↔ j = k)

/-- No set of a part holds CHANGE. -/
def Chip.holdsNot (c : Chip pt) (change : Nat) : Prop :=
  ∀ j, j < c.nSets → c.rd (PT.STG_S_W0_STATE pt) j = 0 ∨ c.rd (PT.STG_S_W0_CHANGE pt) j ≠ change

/-- Set k free again, with its change among the last 16 that ended (R354). -/
def Chip.setEnded (c : Chip pt) (k : Nat) (applied : Bool) : Chip pt :=
  let off := (PT.STG_S_W0_STATE pt).off + 0x20 * k
  let r : StageEnd := { change := c.rd (PT.STG_S_W0_CHANGE pt) k, applied := applied, set_ := k, t := w64 (c.rd (PT.STG_S_W1_T pt) k),
                        sEff := c.rd (PT.STG_S_W2_S_EFF pt) k }
  { ((c.set off 0).set (off + 8) 0).set (off + 16) 0 with stage := upd c.stage k (fun _ => {}), stageEnds := (r :: c.stageEnds).take 16 }

/-- The block with part u, and the memory in which u's rings stand, replaced. -/
def State.withRings (s : State) (u : Part) (d : Chip u) (m : Mem) : State :=
  match u, d with
  | .garja, d => { s with gj := { s.gj with c := d }, dieMem := m }
  | .elzel, d => { s with ez := { s.ez with c := d }, hostMem := m }

/-- The memory in which the rings and queue pairs of a part stand. -/
def State.memOf (s : State) (u : Part) : Mem := match u with | .garja => s.dieMem | .elzel => s.hostMem

/-- A register command of the target port reached a part that runs: idle time ends (R307). -/
def Chip.touched {u : Part} (c : Chip u) : Chip u :=
  match u, c with
  | .garja, c => { c with pw := { c.pw with idleSince := none } }
  | .elzel, c => c

/-- The domain-A root may plan: it takes the command, every stage set is free, no other plan, ramp or tag is there, the journal is off, the lead of a
change is at least the R281 minimum for Elzel, and the levels that it speaks are known. -/
def State.Plans (s : State) (o : Order) (plans : List Plan) : Prop :=
  let e := s.ez
  s.Takes .elzel o ∧ e.c.rd EZ.ROLE_ROLE = 3 ∧ e.c.rd EZ.ROLE_DOMAIN = 0 ∧ (∀ k, k < 16 → e.c.rd EZ.STG_S_W0_STATE k = 0) ∧ e.mgr.plans = plans
    ∧ (∀ p ∈ plans, p.endAt = none) ∧ e.mgr.ramps = [] ∧ e.mgr.pool = [] ∧ e.mgr.hlt.admits = [] ∧ e.c.flag EZ.JRNL_CTL_EN = false
    ∧ 250 ≤ e.c.rd EZ.STG_CFG_LEAD ∧ e.c.applying = false ∧ e.cmb.replays = [] ∧ (∀ k, k < 64 → e.c.flag EZ.HLT_OWL_W0_VALID k = false)
    ∧ (∀ k, k < 64 → e.c.flag EZ.HLT_SPARE_RESERVED k = false)

/-- The header of a plan block of n entries for the root itself (R286, R348). -/
def Elzel.ownHdr (e : Elzel) (n : Nat) : Word :=
  w64 (2 ^ 63 + put 62 62 (e.c.rd EZ.ROLE_DOMAIN) + put 61 60 3 + put 59 42 (e.c.rd EZ.ROLE_PREFIX) + put 15 0 n)

/-- The entry of a plan that sets the anchor that Elzel keeps for a job (R277, R302). -/
def anchorEntry (job : Nat) (data : Word) : StgEntry := ⟨w64 (put 47 24 (EZ.LNC_JOB_W1 + 0x10 * job)), w64 (2 ^ 64 - 1), data⟩

end Sys2Proof.Machine
end

