-- ==== Sys2Proof/Certificates/Slice0/Obligations.lean ====
section
/-!
DEFINITION. Sys2Proof/Certificates/Slice0/Obligations.lean: what is claimed of the block, one Prop for each claim. A claim about a
command names its rules; "yields" is `Yields`: the command completes, changes only what all chips have on the part named, and
leaves there the registers and fields written in the claim, and reported events.
-/
open Sys2Proof Sys2Proof.Machine

/-! ### Time base (02) -/

/-- R30, R34, R51, R127: reads of the time hold its fraction, and direct writes of the increment and of the steering. The increment is
clamped to its bounds, a clamped or locked-out write is counted in Garja's WR_IGN, and PEND belongs to the servo while
SERVO_EN = 1 (INTERVAL is taken all the same: log entry 33). R29, R35, R117, R118: FORCE_HOLD, the end of HOLDOVER, the GJ_REFCLK measurement, the pause of a context whose holdover budget is
spent, and the loss of the GPLL's lock. -/
def Obligations.TimeRegistersActAndHoldoverRuns : Prop :=
  ((∀ s : State, s.running .garja → Yields .garja .gtRead s (s.gj.c.wr GJ.TB_FRAC_FRAC (s.gj.c.gt % 2 ^ 32)))
   ∧ (∀ s : State, s.ez.c.clocked = true →
       Yields .elzel .htSecRead s ((s.ez.c.wr EZ.HT_NS_NS s.ez.c.htNs).wr EZ.HT_NS_FRAC s.ez.c.htFrac))
   ∧ (∀ (u : Part) (s : State) (d : Word), s.running u →
       let c := s.chip u
       let v := d.toNat % 2 ^ 36
       let put := fun w : Nat => (c.wr (PT.TB_INCR_INT u) (w / 2 ^ 32)).wr (PT.TB_INCR_FRAC u) (w % 2 ^ 32)
       let ign := fun c : Chip u => match u with | .garja => c.inc GJ.TB_STATUS_WR_IGN | .elzel => c
       Yields u (.tbIncrWrite u d) s
         (if c.flag (PT.TB_CTL_SERVO_EN u) then ign c
          else if v < 0x0FFF2E48F then ign (put 0x0FFF2E48F)
          else if v > 0x1000D1B71 then ign (put 0x1000D1B71)
          else put v))
   ∧ (∀ (u : Part) (s : State) (d : Word), s.running u →
       let c := (s.chip u).wr (PT.TB_STEER_INTERVAL u) (bits d 47 40)
       let ign := match u, c with | .garja, c => c.inc GJ.TB_STATUS_WR_IGN | .elzel, c => c
       Yields u (.tbSteerWrite u d) s
         (if (s.chip u).flag (PT.TB_CTL_SERVO_EN u) then ign else c.wr (PT.TB_STEER_PEND u) (bits d 63 48))))
  ∧ ((∀ (u : Part) (s : State), s.running u → (s.chip u).lock = 2 →
         ∃ t, exec (.forceHoldWrite u true) s = .next t ∧ t = s.onDen u (fun _ => t.chip u)
           ∧ (t.chip u).flag (PT.TB_CTL_FORCE_HOLD u) = true ∧ (t.chip u).lock = 3 ∧ (t.chip u).input = (s.chip u).input
           ∧ (t.chip u).tb.holdSince = (s.chip u).now ∧ (t.chip u).gt = (s.chip u).gt
           ∧ (s.chip u).Touches (t.chip u) [(PT.TB_CTL_FORCE_HOLD u).off, (PT.TS_STATUS_SWITCHES u).off, GJ.TB_STATUS_LOCK.off, GJ.CLK_STATUS_GPLL_SRC.off])
     ∧ (∀ (u : Part) (s : State) (v : Bool), s.running u → (s.chip u).lock ≠ 2 → (s.chip u).lock ≠ 3 →
         Yields u (.forceHoldWrite u v) s ((s.chip u).wr (PT.TB_CTL_FORCE_HOLD u) (b2n v)))
     ∧ (∀ (u : Part) (s : State), (s.chip u).clocked = true → (s.chip u).lock = 3 →
         let held := ((s.chip u).now - (s.chip u).tb.holdSince) / 1000
         (s.chip u).rd (PT.TB_LOCKCFG_HOLD_LIMIT u) * 1000 < held → held < 2 ^ 32 →
         ∃ t, exec (.holdExpired u) s = .next t ∧ t = s.onDen u (fun _ => t.chip u) ∧ (t.chip u).lock = 0
           ∧ (s.chip u).Touches (t.chip u) [(PT.TS_STATUS_SWITCHES u).off, GJ.TB_STATUS_LOCK.off, GJ.CLK_STATUS_GPLL_SRC.off])
     ∧ (∀ (s : State) (ratio : BitVec 32), s.gj.c.clocked = true → s.gj.c.lock = 2 →
         Yields .garja (.refclkMeasure ratio) s ((s.gj.c.wr GJ.TB_REFMEAS_VALID 1).wr GJ.TB_REFMEAS_RATIO ratio.toNat))
     ∧ (∀ (s : State) (ctx : BitVec 8), s.gj.c.clocked = true → s.gj.c.tb.effNs / 1000 < 2 ^ 32 →
         s.gj.c.rd GJ.HOLD_BUDGET_BUDGET ctx.toNat < s.gj.c.tb.effNs / 1000 → s.gj.c.flag GJ.HOLD_BUDGET_PAUSED ctx.toNat = false →
         Yields .garja (.holdPause ctx) s (s.gj.c.wr GJ.HOLD_BUDGET_PAUSED 1 ctx.toNat))
     ∧ (∀ s : State, s.gj.c.clocked = true → s.gj.c.flag GJ.CLK_STATUS_GPLL_LOCK = true →
         Yields .garja (.gpllLockLoss .garja) s ((s.gj.c.wr GJ.CLK_STATUS_GPLL_LOCK 0).inc GJ.CLK_STATUS_RELOCK_CNT)))

/-- R32, R34, R123: a steering step, a direct step of the time, and an update of a servo in LOCKED that stays within UNLOCK_THR.
The step of the time leaves the interpolators as R58, R64 and R67 say (`Chip.tdcStep`). -/
def Obligations.SteeringAndStepsMoveTime : Prop :=
  (∀ (u : Part) (s : State), (s.chip u).clocked = true →
      let c := s.chip u
      let pend := c.rdS (PT.TB_STEER_PEND u)
      let d : Int := if pend > 0 then 1 else -1
      let net := unsx 32 ((c.rd (PT.TB_STEER_TURNS u) * 128 + c.rd (PT.TB_STEER_PHASE u) : Nat) + d)
      pend ≠ 0 → 40 ≤ c.tb.sinceStep → c.rd (PT.TB_STEER_INTERVAL u) ≤ c.tb.sinceStep →
      Yields u (.steerStep u) s
        { ((c.wrS (PT.TB_STEER_PEND u) (pend - d)).wr (PT.TB_STEER_TURNS u) (net / 128)).wr (PT.TB_STEER_PHASE u) (net % 128) with
          tb := { c.tb with sinceStep := 0 } })
  ∧ (∀ (s : State) (d : Word), s.running .garja → s.gj.c.flag GJ.TB_CTL_SERVO_EN = false → s.gj.c.anyCtx = false →
      Yields .garja (.tbAdjWrite .garja d) s
        (({ s.gj.c with gt := (((s.gj.c.gt : Int) + d.toInt * ((2 ^ 32 : Nat) : Int)) % ((2 ^ 96 : Nat) : Int)).toNat } : Chip .garja).tdcStep
          (d.toInt * ((2 ^ 32 : Nat) : Int))))
  ∧ (∀ (s : State) (d : Word), s.running .elzel → s.ez.c.flag EZ.TB_CTL_SERVO_EN = false → s.ez.c.anyJob = false →
      let ns : Int := (s.ez.c.htSec : Int) * 1000000000 + (s.ez.c.htNs : Int) + d.toInt
      Yields .elzel (.tbAdjWrite .elzel d) s
        (({ s.ez.c with gt := (((s.ez.c.gt : Int) + d.toInt * ((2 ^ 32 : Nat) : Int)) % ((2 ^ 96 : Nat) : Int)).toNat,
                        htSec := (ns / 1000000000 % ((2 ^ 48 : Nat) : Int)).toNat, htNs := (ns % 1000000000).toNat,
                        steps := (s.ez.c.steps + 1) % 4 } : Chip .elzel).tdcStep (d.toInt * ((2 ^ 32 : Nat) : Int))))
  ∧ (∀ (u : Part) (s : State) (p : BitVec 7) (theta : BitVec 48), (s.chip u).clocked = true →
      let c := s.chip u
      let x : Int := theta.toInt + (c.link p.toNat).ext * ((2 ^ 48 : Nat) : Int)
      let pend := c.rdS (PT.TB_STEER_PEND u)
      let ps : Int := ((2 ^ 76 : Nat) : Int)
      let stp : Int := 125 * ((2 ^ 72 : Nat) : Int)
      let r : Int := x * 125 * ((2 ^ 63 : Nat) : Int) - pend * stp
      let i := c.tb.sI + r / ((2 ^ c.rd (PT.TS_CTL_KI_SHIFT u) : Nat) : Int)
      let i := if i > 100 * ps then 100 * ps else if i < -(100 * ps) then -(100 * ps) else i
      let a := c.tb.sA + r / ((2 ^ c.rd (PT.TS_CTL_KP_SHIFT u) : Nat) : Int) + i
      let n := divNear a (125 * 2 ^ 72)
      c.portInput p.toNat = some c.input → c.rangeValid p.toNat = true → c.lock = 2 → c.flag (PT.TB_CTL_SERVO_EN u) = true →
      r.natAbs ≤ c.rd (PT.TB_LOCKCFG_UNLOCK_THR u) * 2 ^ 76 →
      Yields u (.servoUpdate u p theta) s
        { c.wrS (PT.TB_STEER_PEND u) (clampS 16 (pend + n)) with tb := { c.tb with sI := i, sA := a - n * stp, outCnt := 0 } })

/-- R40, R47, R126, R128: EPOCH_MARK goes to every enabled ring; a carry of HT seconds at a TCLK edge at which GT agrees with HT; and
GJ_CLKFIX, which follows its bit at once while no accounting window is open and otherwise waits. -/
def Obligations.MarksCarriesAndClkfix : Prop :=
  (∀ (u : Part) (s : State), (s.chip u).clocked = true → (s.chip u).gtInt % 2 ^ 29 = 0 → (s.chip u).tb.markAt ≠ some (s.chip u).gtInt →
      Yields u (.epochMark u) s { s.chip u with tb := { (s.chip u).tb with markAt := some (s.chip u).gtInt } })
  ∧ (∀ (u : Part) (s : State), (s.chip u).clocked = true → (s.chip u).gtInt % 2 ^ 29 = 0 → (s.chip u).tb.markAt ≠ some (s.chip u).gtInt →
      (s.chip u).ev.queue.length < (s.chip u).queueCap →
      let rings := (List.range (ringCount u)).filter (fun r => (s.chip u).flag (PT.EVT_RING_CFG_EN u) r)
      rings ≠ [] →
      ∃ t, exec (.epochMark u) s = .next t ∧ ∃ e ∈ (t.chip u).ev.queue, e.rings = rings
        ∧ e.words.take 3 = [w64 (put 63 54 (EV.EPOCH_MARK u) + put 31 0 (s.chip u).stamp), 0, w64 ((s.chip u).gtInt / 2 ^ 32 % 2 ^ 32 * 2 ^ 32)])
  ∧ (∀ s : State, s.ez.c.clocked = true →
      let c := s.ez.c
      let inc := c.rd EZ.TB_INCR_INT * 2 ^ 32 + c.rd EZ.TB_INCR_FRAC
      let f := c.htFrac + inc % 2 ^ 32
      let ns := c.htNs + inc / 2 ^ 32 + f / 2 ^ 32
      let gt := (c.gt + inc) % 2 ^ 96
      let sec := (c.htSec + 1) % 2 ^ 48
      1000000000 ≤ ns → gt / 2 ^ 32 % 2 ^ 64 = (sec * 1000000000 + (ns - 1000000000)) % 2 ^ 64 →
      Yields .elzel .htCarry s
        { c with gt := gt, now := c.now + 1, htSec := sec, htNs := ns - 1000000000, htFrac := f % 2 ^ 32,
                 tb := { c.tb with sinceStep := c.tb.sinceStep + 1 } })
  ∧ (∀ (s : State) (v : Bool), s.running .garja → s.gj.c.flag GJ.TB_CTL_CLKFIX = !v → s.gj.c.anyCtx = false →
      let c := s.gj.c.wr GJ.TB_CTL_CLKFIX (b2n v)
      Yields .garja (.clkfixWrite v) s
        (if s.gj.c.anyWindow then { c with tb := { c.tb with clkfixWait := some v } }
         else if s.gj.c.flag GJ.TB_STATUS_CLKFIX_ACT == v then { c with tb := { c.tb with clkfixWait := none } }
         else { c.wr GJ.TB_STATUS_CLKFIX_ACT (b2n v) with
           tb := { c.tb with clkfixWait := none, settleUntil := c.now + c.rd GJ.RGN_CTL_SETTLE } }))

/-! ### Edge interpolator (03) -/

/-- R53 to R57, R310, R330: an edge of the selected polarity is stamped, its record enters the queue of its channel and the hold-off
starts; an edge well within the hold-off is dropped and counted; reading the queue removes its oldest record, and a record that
has waited 2^39 ns is removed and counted in OVF; an edge on GJ_EVT_IN latches its source, and with its enable wakes the die. -/
def Obligations.InterpolatorStampsEdges : Prop :=
  (∀ (u : Part) (s : State) (ch : BitVec 7) (e : TdcEdge) (t : Tdc), (s.chip u).clocked = true →
      let c := s.chip u
      let n := ch.toNat
      let st := c.stampOf n e
      let w := w64 (2 ^ 63 + b2n e.falling * 2 ^ 62 + b2n (c.lock == 2) * 2 ^ 61 + b2n (c.flag (PT.TDC_STATUS_UNCAL u) n) * 2 ^ 60
        + (st / 65536 % 2 ^ 40) * 65536 + st % 65536)
      n < c.nCh → c.flag (PT.TDC_CTL_EN u) n = true → c.polarityOk n e.falling = true → c.tdc[n]? = some t → t.holdEnd = none →
      t.freq = none → (∀ x ∈ c.tdc, x.ss = .idle) → t.fifo.length < 16 → c.flag (PT.TDC_CTL_NOFIFO u) n = false →
      Yields u (.tdcEdge u ch e) s
        { c with free := c.free + 1,
                 tdc := upd c.tdc n (fun t => { t with holdEnd := some (st + max 1 (c.rd (PT.TDC_CTL_HOLDOFF u) n) * 65536),
                                                       fifo := t.fifo ++ [(w, st / 65536)] }) })
  ∧ (∀ (u : Part) (s : State) (ch : BitVec 7) (e : TdcEdge) (t : Tdc) (h : Nat), (s.chip u).clocked = true →
      let c := s.chip u
      let n := ch.toNat
      n < c.nCh → c.flag (PT.TDC_CTL_EN u) n = true → c.polarityOk n e.falling = true → c.tdc[n]? = some t → t.holdEnd = some h →
      t.freq = none → 13 * c.stampOf n e + 2 ^ 18 < 13 * h →
      Yields u (.tdcEdge u ch e) s ({ c with free := c.free + 1 }.inc (PT.TDC_STATUS_DROP u) n))
  ∧ (∀ (u : Part) (s : State) (ch : BitVec 7) (t : Tdc) (w : Word) (st : Nat) (rest : List (Word × Nat)), (s.chip u).clocked = true →
      let c := s.chip u
      let n := ch.toNat
      n < c.nCh → c.tdc[n]? = some t → t.fifo = (w, st) :: rest →
      (c.gtInt ≥ st + 2 ^ 39 → Yields u (.stampAgeDiscard u ch) s
        { c.inc (PT.TDC_STATUS_OVF u) n with tdc := upd c.tdc n (fun t => { t with fifo := rest }) })
      ∧ (s.running u → Yields u (.tdcFifoRead u ch) s { c with tdc := upd c.tdc n (fun t => { t with fifo := rest }) }))
  ∧ (∀ (s : State) (pin : BitVec 1) (falling : Bool), s.gj.c.polarityOk (2 + pin.toNat) falling = true →
      ∃ t, exec (.evtInEdgeLatch pin falling) s = .next t ∧ t = s.onDen .garja (fun _ => t.gj.c)
        ∧ (t.gj.c.rd GJ.IRQ_PEND_PEND).testBit (10 + pin.toNat) = true
        ∧ (s.gj.c.pw.st ≠ .burrow → s.gj.c.Reported t.gj.c)
        ∧ ((if pin = 0 then s.gj.c.flag GJ.PST_WAKE_EVT0 else s.gj.c.flag GJ.PST_WAKE_EVT1) = true →
            s.gj.c.pw.st = .nap ∨ s.gj.c.pw.st = .burrow → t.gj.c.pw.st = .run ∧ t.gj.c.rd GJ.PST_STATUS_CAUSE = 7))

/-- R59 to R62, R64, R67, R72: a calibration starts on a channel that runs and calibrates no line; a forced one starts on every enabled
channel; one that succeeds leaves its table for the swap, one that fails is counted with its reason and the line has no table;
the swap makes the calibrated line live; and a channel disabled with nothing armed only loses EN and its calibration. R63 to R67, R70: arming an interval or a frequency measurement of a channel that software owns (Garja's channels 2 and 3); on any
other the write is refused and counted; a stop or a sample that does not come in time ends the measurement with status 1. -/
def Obligations.InterpolatorCalibratesAndMeasures : Prop :=
  ((∀ (u : Part) (s : State) (ch : BitVec 7) (code : BitVec 10), (s.chip u).clocked = true →
       let c := s.chip u
       ch.toNat < c.nCh → c.flag (PT.TDC_CTL_EN u) ch.toNat = true → c.flag (PT.TDC_STATUS_CALIB u) ch.toNat = false →
       Yields u (.calibrationStart u ch code) s
         (((c.wr (PT.TDC_CAL_DLL_CODE u) code.toNat).wr (PT.TDC_CAL_DLL_LOCK u) 1).wr (PT.TDC_STATUS_CALIB u) 1 ch.toNat))
   ∧ (∀ (u : Part) (s : State), s.running u →
       ∃ t, exec (.tdcCalForce u) s = .next t ∧ t = s.onDen u (fun _ => t.chip u) ∧ (t.chip u).body = (s.chip u).body
         ∧ (∀ n, n < (s.chip u).nCh → (t.chip u).flag (PT.TDC_STATUS_CALIB u) n
             = ((s.chip u).flag (PT.TDC_CTL_EN u) n || (s.chip u).flag (PT.TDC_STATUS_CALIB u) n))
         ∧ (s.chip u).Touches (t.chip u) ((List.range (s.chip u).nCh).map (fun n => (PT.TDC_STATUS_CALIB u).off + (PT.TDC_STATUS_CALIB u).stride * n)))
   ∧ (∀ (u : Part) (s : State) (ch : BitVec 7) (hits : List (BitVec 24)), (s.chip u).clocked = true →
       let c := s.chip u
       let n := ch.toNat
       let h := hits.map (·.toNat)
       let log := min 24 (max 20 (c.rd (PT.TDC_CAL_LOG2N u)))
       n < c.nCh → c.flag (PT.TDC_STATUS_CALIB u) n = true →
       ((∀ f, f < 90 → h.getD f 0 ≠ 0) → (∀ f, f < 96 → binWidth (h.getD f 0) log ≤ 524) →
         Yields u (.calibrationDone u ch hits true true) s
           { c.wr (PT.TDC_STATUS_CALIB u) 0 n with tdc := upd c.tdc n (fun t => { t with newTab := some { hits := h, log2n := log } }) })
       ∧ (∀ inTime : Bool,
         Yields u (.calibrationDone u ch hits false inTime) s
           { ((c.wr (PT.TDC_STATUS_CALIB u) 0 n).inc (PT.TDC_STATUS_CALFAIL u) n).wr (PT.TDC_STATUS_REASON u) 1 n with
             tdc := upd c.tdc n (fun t => if c.flag (PT.TDC_STATUS_LIVE u) n then { t with tabX := {} } else { t with tabY := {} }) }))
   ∧ (∀ (u : Part) (s : State) (ch : BitVec 7) (t : Tdc) (tab : TdcTable), (s.chip u).clocked = true →
       let c := s.chip u
       let n := ch.toNat
       let y := c.flag (PT.TDC_STATUS_LIVE u) n
       n < c.nCh → c.tdc[n]? = some t → t.newTab = some tab →
       Yields u (.lineSwap u ch) s
         { (c.wr (PT.TDC_STATUS_LIVE u) (b2n (!y)) n).wr (PT.TDC_STATUS_UNCAL u) 0 n with
           tdc := upd c.tdc n (fun t =>
             let t := { t with newTab := none, madeAt := c.now, madeCode := c.rd (PT.TDC_CAL_DLL_CODE u) }
             if y then { t with tabX := tab } else { t with tabY := tab }) })
   ∧ (∀ (u : Part) (s : State) (ch : BitVec 7), s.running u →
       let c := s.chip u
       let n := ch.toNat
       n < c.nCh → (∀ x ∈ c.tdc, x.ss = .idle ∧ x.freq = none) →
       Yields u (.tdcDisable u ch) s ((c.wr (PT.TDC_CTL_EN u) 0 n).wr (PT.TDC_STATUS_CALIB u) 0 n)))
  ∧ ((∀ (s : State) (ch : BitVec 7) (r : Requester) (d : Word), s.running .garja → ch.toNat = 2 ∨ ch.toNat = 3 → bit d 63 = true →
         let c := s.gj.c
         let n := ch.toNat
         (c.flag GJ.TDC_SS_ARM n = false → c.flag GJ.TDC_FREQ_ARM n = false →
           Yields .garja (.ssArmWrite .garja ch r d) s
             { (((c.wr GJ.TDC_SS_REPEAT (bits d 62 62) n).wr GJ.TDC_SS_STOP (bits d 59 58) n).wr GJ.TDC_SS_TIMEOUT (bits d 31 0) n).wr GJ.TDC_SS_ARM 1 n with
               tdc := upd c.tdc n (fun t => { t with ss := .waitStart }) })
         ∧ (c.flag GJ.TDC_SS_ARM n = false → c.flag GJ.TDC_FREQ_ARM n = false →
           Yields .garja (.freqArmWrite .garja ch r d) s
             { ((c.wr GJ.TDC_FREQ_M (bits d 60 40) n).wr GJ.TDC_FREQ_D (bits d 39 24) n).wr GJ.TDC_FREQ_ARM 1 n with
               tdc := upd c.tdc n (fun t => { t with freq := some ⟨0, 0, 0, 0, 0, 0, 0⟩ }) }))
     ∧ (∀ (u : Part) (s : State) (ch : BitVec 7) (r : Requester) (d : Word), s.running u → ch.toNat < (s.chip u).nCh →
         (u = .elzel ∨ (ch.toNat ≠ 2 ∧ ch.toNat ≠ 3)) →
         Yields u (.ssArmWrite u ch r d) s ((s.chip u).inc (PT.TDC_STATUS_WRIGN u) ch.toNat)
         ∧ Yields u (.freqArmWrite u ch r d) s ((s.chip u).inc (PT.TDC_STATUS_WRIGN u) ch.toNat))
     ∧ (∀ (u : Part) (s : State) (ch : BitVec 7) (t : Tdc) (start : Nat), (s.chip u).clocked = true →
         let c := s.chip u
         let n := ch.toNat
         n < c.nCh → c.tdc[n]? = some t → t.ss = .waitStop start → c.flag (PT.TDC_SSRES_DONE u) n = false → c.flag (PT.TDC_SS_REPEAT u) n = false →
         start + max 1000 (c.rd (PT.TDC_SS_TIMEOUT u) n) * 65536 ≤ c.gtInt * 65536 →
         Yields u (.ssTimeout u ch) s
           { (((c.wr (PT.TDC_SSRES_DONE u) 1 n).wr (PT.TDC_SSRES_STATUS u) 1 n).wr (PT.TDC_SSRES_INTERVAL u) 0 n).wr (PT.TDC_SS_ARM u) 0 n with
             tdc := upd c.tdc n (fun t => { t with ss := .idle }) })
     ∧ (∀ (u : Part) (s : State) (ch : BitVec 7) (t : Tdc) (f : FreqRun), (s.chip u).clocked = true →
         let c := s.chip u
         let n := ch.toNat
         n < c.nCh → c.tdc[n]? = some t → t.freq = some f → f.k ≠ 0 →
         f.last + max 1000 (c.rd (PT.TDC_SS_TIMEOUT u) n) * 65536 < c.gtInt * 65536 →
         Yields u (.freqTimeout u ch) s
           { ((c.wr (PT.TDC_FRES_DONE u) 1 n).wr (PT.TDC_FRES_STATUS u) 1 n).wr (PT.TDC_FREQ_ARM u) 0 n with
             tdc := upd c.tdc n (fun t => { t with freq := none }) }))

/-! ### Step link (04) -/

/-- R89, R90: the states of a port from DISABLED to PARAM and back. Every entry to a state starts its time and forgets TRAIN. R81, R89, R90, R98: a TRAIN with SEEN = 1 takes a port in PARAM to UP at the level that the initiator names, with the credits of the
far end; and a port that leaves UP goes to DETECT, discards what it holds and says why. -/
def Obligations.PortsTrainEnterAndLeaveUp : Prop :=
  (∀ (u : Part) (s : State) (p : BitVec 7),
     let c := s.chip u
     let q := p.toNat
     let st := c.rd (PT.SL_STATUS_STATE u) q
     let enter := fun (c : Chip u) (new : Nat) => { c.wr (PT.SL_STATUS_STATE u) new q with
       links := upd c.links q (fun l => { l with since := c.now, trainSeen := false, seenSent := false, trainDue := none, badSync := 0 }) }
     q < c.nPorts → c.clocked = true →
     (s.running u → c.portUsed q = true → st = 0 → Yields u (.portEnWrite u p true) s (enter (c.wr (PT.SL_CTL_EN u) 1 q) 1))
     ∧ (s.running u → c.portUsed q = true → st ≠ 0 → st ≠ 5 → Yields u (.portEnWrite u p false) s (enter (c.wr (PT.SL_CTL_EN u) 0 q) 0))
     ∧ (s.running u → st = 6 → Yields u (.retrain u p) s (enter c 1))
     ∧ (st = 1 → Yields u (.signalDetect u p) s (enter c 2))
     ∧ (st = 2 → Yields u (.cdrLock u p) s (enter c 3))
     ∧ (st = 3 → q < c.links.length → ∃ t, exec (.alignDone u p) s = .next t ∧ t = s.onDen u (fun _ => t.chip u)
         ∧ (t.chip u).rd (PT.SL_STATUS_STATE u) q = 4 ∧ ((t.chip u).link q).since = c.now ∧ ((t.chip u).link q).trainDue.isSome
         ∧ c.Touches (t.chip u) [(PT.SL_STATUS_STATE u).off + (PT.SL_STATUS_STATE u).stride * q])
     ∧ (st = 4 → Yields u (.trainSend u p) s
         { c with links := upd c.links q (fun l => { l with trainDue := some (c.trainPkt q), seenSent := l.seenSent || l.trainSeen }) })
     ∧ (1 ≤ st → st ≤ 4 → (c.link q).since + (if st = 4 then 1000000 else 100000) ≤ c.now →
         Yields u (.trainTimeout u p) s (enter (c.inc (PT.SL_STATUS_TRAIN_TO u) q) 1)))
  ∧ ((∀ (u : Part) (s : State) (p : BitVec 7) (h b : Flit),
       let c := s.chip u
       let q := p.toNat
       let fmin := bits b 127 120
       let fmax := bits b 119 112
       let run := if c.initiates q then min (c.rd EZ.SL_CTL_LVL_CAP q) (min c.lvlMax fmax) else bits b 111 104
       q < c.nPorts → q < c.links.length → c.clocked = true → c.rd (PT.SL_STATUS_STATE u) q = 4 → bit b 99 = true → (c.link q).seenSent = true →
       run ≠ 0 → c.lvlMin ≤ run → fmin ≤ run → run ≤ c.lvlMax → run ≤ fmax →
       ∃ t, exec (.train u p [h, b]) s = .next t ∧ (t.chip u).rd (PT.SL_STATUS_STATE u) q = 5 ∧ (t.chip u).rd (PT.SL_STATUS_LVL_RUN u) q = run
         ∧ (t.chip u).rd (PT.SL_STATUS_FAR_LVL_MIN u) q = fmin ∧ (t.chip u).rd (PT.SL_STATUS_FAR_LVL_MAX u) q = fmax
         ∧ ((t.chip u).link q).far = ⟨bits b 95 88, bits b 87 80, bits b 79 72, bits b 71 64, bits b 63 56⟩
         ∧ ((t.chip u).link q).calDue = true ∧ t.dieMem = s.dieMem ∧ t.hostMem = s.hostMem)
     ∧ (∀ (u : Part) (s : State) (p : BitVec 7) (reason : BitVec 4),
       let c := s.chip u
       let q := p.toNat
       q < c.nPorts → q < c.links.length → c.rd (PT.SL_STATUS_STATE u) q = 5 →
       (c.clocked = true → ∃ t, exec (.lossOfSignal u p reason) s = .next t ∧ t = s.onDen u (fun _ => t.chip u)
         ∧ (t.chip u).rd (PT.SL_STATUS_STATE u) q = 1 ∧ (t.chip u).rd (PT.SL_STATUS_DOWN_REASON u) q = reason.toNat
         ∧ (t.chip u).rd (PT.SL_STATUS_RANGE_VALID u) q = 0
         ∧ ((t.chip u).link q).txq.mgmt = [] ∧ ((t.chip u).link q).txq.bar = [] ∧ ((t.chip u).link q).retry = [] ∧ ((t.chip u).link q).rx = ⟨[], [], [], [], []⟩)
       ∧ (s.running u → ∃ t, exec (.retrain u p) s = .next t ∧ t = s.onDen u (fun _ => t.chip u)
         ∧ (t.chip u).rd (PT.SL_STATUS_STATE u) q = 1 ∧ (t.chip u).rd (PT.SL_STATUS_DOWN_REASON u) q = 5 ∧ ((t.chip u).link q).retry = [])))

/-- R76, R82 to R87: a sequenced block that arrives in order with a right CRC and seven IDLE flits advances the expected SEQ and takes the
trailer's freed counts; a block with a wrong CRC is counted and answered with NAK; a block of the retry buffer is sent again
before anything else; a packet that has credit starts at the head of a new block, which the retry buffer keeps. -/
def Obligations.BlocksCarryPackets : Prop :=
  ∀ (u : Part) (s : State) (p : BitVec 7) (l : Link),
    let c := s.chip u
    let q := p.toNat
    q < c.nPorts → c.clocked = true → c.rd (PT.SL_STATUS_STATE u) q = 5 → c.links[q]? = some l →
    (∀ t : Flit, bit t 113 = false → bit t 114 = false → bit t 115 = false → l.need = 0 → l.resend = [] →
      crcOk (crcSeq l.seqRx) (List.replicate 7 0) t = true →
      Yields u (.blockReceived u p 0 (List.replicate 7 0) t) s
        { c with links := upd c.links q (fun l => { l with
            badSync := 0, seqRx := (l.seqRx + 1) % 4096, nAcc := min 64 (l.nAcc + 1), failing := false,
            farFreed := ⟨bits t 111 104, bits t 103 96, bits t 95 88, bits t 87 80, bits t 79 72⟩ }) })
    ∧ (∀ (fs : List Flit) (t : Flit), bit t 113 = false → l.nAcc = 0 → l.failing = false → crcOk (crcSeq l.seqRx) fs t = false →
      Yields u (.blockReceived u p 0 fs t) s
        { c.inc (PT.SL_ERR_CRC_ERR u) q with links := upd c.links q (fun l => { l with badSync := 0, failing := true, nak := true }) })
    ∧ (∀ (b : TxBlock) (r : List TxBlock), l.retry = b :: r → l.resend = [] → l.resends < 8 → c.rangeValid q = false → b.since + 25000 ≤ c.now →
      Yields u (.replayTimer u p) s { c with links := upd c.links q (fun l => { l with resend := l.retry, resends := l.resends + 1 }) })
    ∧ ((∀ x ∈ s.gj.seqs, x.sigs = []) → l.idleUntil ≤ c.now →
      (∀ (b : TxBlock) (r : List TxBlock), l.resend = b :: r →
        ∃ t, exec (.blockTransmit u p) s = .next t ∧ ((t.chip u).link q).lastTx.take b.flits.length = b.flits ∧ ((t.chip u).link q).resend = r
          ∧ (t.chip u).rd (PT.SL_ERR_RESENT u) q = satU ((PT.SL_ERR_RESENT u).hi + 1 - (PT.SL_ERR_RESENT u).lo) (c.rd (PT.SL_ERR_RESENT u) q + 1)
          ∧ t.dieMem = s.dieMem ∧ t.hostMem = s.hostMem)
      ∧ (∀ f : Flit, l.resend = [] → l.retry = [] → l.cur = [] → l.tickDue = none → l.calDue = false → l.trainDue = none →
        l.txq = ⟨[], [], [], [{ flits := [f] }], []⟩ → 1 ≤ l.credit .mgmt →
        ∃ t, exec (.blockTransmit u p) s = .next t ∧ ((t.chip u).link q).lastTx.take 7 = f :: List.replicate 6 0
          ∧ ((t.chip u).link q).retry = [{ seq := l.seqTx, flits := f :: List.replicate 6 0, since := c.now, ends := [.mgmt] }]
          ∧ ((t.chip u).link q).seqTx = (l.seqTx + 1) % 4096 ∧ ((t.chip u).link q).spent.mgmt = (l.spent.mgmt + 1) % 256
          ∧ ((t.chip u).link q).txq.mgmt = [] ∧ t.dieMem = s.dieMem ∧ t.hostMem = s.hostMem))

/-- R92 to R94, R116, R125, R472: the initiator's TICK; the responder's answer to a first TICK; the initiator's first sample of DELAY and
THETA, with both ends calibrated and no asymmetry; CAL due, and what a CAL says of the far end. -/
def Obligations.TicksRangeThePort : Prop :=
  ∀ (u : Part) (s : State) (p : BitVec 7) (l : Link),
    let c := s.chip u
    let q := p.toNat
    q < c.nPorts → c.clocked = true → c.up q = true → c.links[q]? = some l →
    (∀ depart : BitVec 80, c.initiates q = true →
      ∃ t f, exec (.tickDue u p depart) s = .next t ∧ t = s.onDen u (fun _ => t.chip u) ∧ (t.chip u).regs = c.regs
        ∧ ((t.chip u).link q).tickDue = some f ∧ flitType f = 1 ∧ bits f 115 108 = l.tickId % 256 ∧ bits f 95 48 = depart.toNat % 2 ^ 48
        ∧ ((t.chip u).link q).tickId = (l.tickId + 1) % 256)
    ∧ (∀ (f : Flit) (stamp depart : BitVec 80), c.initiates q = false → l.ownTick = none → l.tickId % 256 ≠ 0 → bit f 98 = false →
      u = .elzel ∨ c.lock ≠ 2 →
      ∃ t g, exec (.tick u p f stamp depart) s = .next t ∧ t = s.onDen u (fun _ => t.chip u)
        ∧ ((t.chip u).link q).farTick = some ⟨bits f 115 108, stamp.toNat % 2 ^ 48, c.flag (PT.TDC_STATUS_UNCAL u) q⟩
        ∧ ((t.chip u).link q).tickDue = some g ∧ flitType g = 1 ∧ bits g 107 100 = bits f 115 108 ∧ bit g 99 = true
        ∧ bits g 47 0 = stamp.toNat % 2 ^ 48 ∧ bits g 95 48 = depart.toNat % 2 ^ 48)
    ∧ (∀ (f : Flit) (stamp depart : BitVec 80) (o : TickRec), u = .elzel → q < 64 → l.ownTick = some o → l.have_ = false → l.good < 15 →
      bit f 99 = true → bit f 98 = false → bits f 107 100 = o.id → c.rdS EZ.SL_ASYM_ASYM q = 0 → c.rangeValid q = false →
      let d := sdiff 48 (bits f 47 0) o.stamp
      let half := (d + sdiff 48 (stamp.toNat % 2 ^ 48) (bits f 95 48)) * 128
      ∃ t, exec (.tick u p f stamp depart) s = .next t ∧ t = s.onDen u (fun _ => t.chip u) ∧ ((t.chip u).link q).delay = half
        ∧ (t.chip u).rd (PT.SL_OFFSET_THETA u) q = unsx 48 (divNear (d * 256 - half) 256)
        ∧ (t.chip u).rd (PT.SL_OFFSET_SAMPLES u) q = (c.rd (PT.SL_OFFSET_SAMPLES u) q + 1) % 2 ^ 16)
    ∧ Yields u (.calDue u p) s { c with links := upd c.links q (fun l => { l with calDue := true }) }
    ∧ (∀ f : Flit, c.initiates q = true →
      Yields u (.cal u p f) s
        { (((c.wr (PT.SL_LAT_FAR_TX_LAT u) (bits f 111 96) q).wr (PT.SL_LAT_FAR_RX_LAT u) (bits f 95 80) q).wr
            (PT.SL_STATUS_FAR_LOCK u) (bits f 63 62) q).wr (PT.SL_STATUS_FAR_UNCAL u) (bits f 61 61) q with
          links := upd c.links q (fun l => { l with rxOwn := l.rxOwn.erase [f], calSeen := true, farAsym := sx 16 (bits f 79 64) }) })
    ∧ (∀ f : Flit, c.initiates q = false →
      ∃ t, exec (.cal u p f) s = .next t ∧ t = s.onDen u (fun _ => t.chip u)
        ∧ (t.chip u).rd (PT.SL_LAT_FAR_TX_LAT u) q = bits f 111 96 ∧ (t.chip u).rd (PT.SL_LAT_FAR_RX_LAT u) q = bits f 95 80
        ∧ (t.chip u).rd (PT.SL_STATUS_FAR_LOCK u) q = bits f 63 62 ∧ (t.chip u).rd (PT.SL_STATUS_FAR_UNCAL u) q = bits f 61 61
        ∧ (t.chip u).rd (PT.SL_RANGE_ASYM u) q = bits f 79 64 ∧ ((t.chip u).link q).calSeen = true)

/-! ### The hall (01) -/

/-- R8, R17, R18: discovery. A child takes the coordinate that DISC_DOWN gives it and answers; the parent takes a report that agrees
with its binding and holds a port whose number is not the one expected; a summary from below replaces the last one of its port;
a report that is 10 µs late is remembered. The layouts of the messages are the model's choice (log entry 20). -/
def Obligations.DiscoveryPlacesParts : Prop :=
  (∀ (s : State) (p : BitVec 7) (h b : Flit),
    let q := p.toNat
    let reg := if q = 0 then GJ.TREE_A else GJ.TREE_B
    let role := bits b 127 126
    let depth := bits b 124 123
    let shift := if role = 2 then 6 else if role = 3 then (if depth = 3 then 12 else if depth = 2 then 6 else 0) else 0
    let coord := (bits b 122 105 + bits b 104 97 * 2 ^ shift) % 2 ^ 18
    q < 2 → s.gj.c.up q = true → q < s.gj.c.links.length → flitType h = 6 → (mgmtOf h).cls = 1 → (mgmtOf h).routed = false → bit b 95 = false →
    ∃ t, exec (.discDown .garja p [h, b]) s = .next t ∧ t = s.onGj (fun g => { g with c := t.gj.c })
      ∧ t.gj.c.get reg = w64 (2 ^ 63 + depth * 2 ^ 61 + bits b 96 96 * 2 ^ 60 + coord)
      ∧ (∃ k ∈ (t.gj.c.link q).txq.mgmt, (mgmtOf (k.flits.headD 0)).cls = 2
          ∧ k.flits.drop 1 = [f128 (s.gj.c.rd GJ.CHIP_VALID * 2 ^ 126 + s.gj.c.rd GJ.CHIP_CHIP * 2 ^ 108)])
      ∧ s.gj.c.Touches t.gj.c [reg])
  ∧ (∀ (s : State) (p : BitVec 7) (h b : Flit),
    let role := bits b 127 126
    let shift := if role = 2 then 6 else if role = 3 then (if bits b 124 123 = 3 then 12 else if bits b 124 123 = 2 then 6 else 0) else 0
    s.ez.c.clocked = true → p.toNat = s.ez.c.uplink → s.ez.c.isRoot = false → s.ez.c.up p.toNat = true →
    flitType h = 6 → (mgmtOf h).cls = 1 → (mgmtOf h).routed = false → bit b 95 = false →
    ∃ t, exec (.discDown .elzel p [h, b]) s = .next t ∧ t = s.onEz (fun _ => t.ez)
      ∧ t.ez.c.rd EZ.ROLE_PREFIX = (bits b 122 105 + bits b 104 97 * 2 ^ shift) % 2 ^ 18
      ∧ s.ez.c.Touches t.ez.c [EZ.ROLE_PREFIX.off])
  ∧ (∀ (s : State) (p : BitVec 7) (h b : Flit),
    let q := p.toNat
    s.ez.c.clocked = true → s.ez.c.rd EZ.ROLE_ROLE = 1 → q < 64 → s.ez.c.up q = true → flitType h = 6 → (mgmtOf h).cls = 2 →
    (mgmtOf h).routed = false → bit b 127 = false → bit b 126 = true → s.ez.c.flag EZ.BIND_VALID q = true → s.ez.c.flag EZ.BIND_KIND q = false →
    s.ez.mgr.oks = [] → s.ez.mgr.plans = [] →
    ∃ t, exec (.discUp p [h, b]) s = .next t ∧ t = s.onEz (fun _ => t.ez) ∧ t.ez.c.flag EZ.BIND_SEEN q = true
      ∧ t.ez.c.rd EZ.BIND_REPORTED q = bits b 125 108
      ∧ t.ez.c.flag EZ.BIND_HELD q = decide (bits b 125 108 ≠ s.ez.c.rd EZ.BIND_EXPECTED q)
      ∧ (bits b 125 108 ≠ s.ez.c.rd EZ.BIND_EXPECTED q → (t.ez.c.rd EZ.IRQ_PEND_PEND).testBit 11 = true))
  ∧ (∀ (s : State) (p : BitVec 7) (h : Flit) (body : List Flit),
    let q := p.toNat
    let ws := wordsOf body
    s.ez.c.clocked = true → q < 64 → s.ez.c.up q = true → flitType h = 6 → (mgmtOf h).cls = 3 → (mgmtOf h).routed = true →
    (mgmtOf h).level = s.ez.c.rd EZ.ROLE_ROLE → bit (ws.headD 0) 62 = true → s.ez.mgr.plans = [] →
    ∃ t, exec (.discSum p (h :: body)) s = .next t ∧ t = s.onEz (fun _ => t.ez)
      ∧ (q, ((ws.drop 1).take (bits (ws.headD 0) 15 0)).map (fun w => (⟨bits w 63 46, bits w 45 28, bit w 27⟩ : SumEnt))) ∈ t.ez.mgr.sums
      ∧ (q, bit (ws.headD 0) 63, bit (ws.headD 0) 61) ∈ t.ez.mgr.oks)
  ∧ (∀ (s : State) (p : BitVec 7) (l : Link) (t0 : Nat),
    s.ez.c.clocked = true → p.toNat < 64 → s.ez.c.up p.toNat = true → s.ez.c.links[p.toNat]? = some l → l.discAt = some t0 → l.discLate = false →
    t0 + 10000 ≤ s.ez.c.now →
    Yields .elzel (.discTimeout p) s { s.ez.c with links := upd s.ez.c.links p.toNat (fun l => { l with discLate := true }) })

/-! ### Start, resets and the Den (19, 22, 23) -/

/-- R389, R391, R416, R452, R454 to R458: GJ_PORST_N leaves every register of Garja at its reset value but those of its GPLL, of the port
channels and of the ports; EZ_PORST_N ends in the boot ROM monitor with the REASON of what failed first, and otherwise in RUN with
the levels of the image, and the SEQ of the block in the flash header. The boot is one step (log entry 61). -/
def Obligations.PartsStart : Prop :=
  (∀ s : State, ∃ t, exec .gjPorstN s = .next t ∧ t = s.onGj (fun _ => t.gj) ∧ t.gj.c.gt = 0 ∧ t.gj.so = {} ∧ t.gj.c.pw.st = .run
    ∧ t.gj.c.flag GJ.CLK_STATUS_GPLL_LOCK = true
    ∧ ∀ o, o ∉ [GJ.CLK_STATUS_GPLL_LOCK.off, 0x300, 0x308, 0x340, 0x348, GJ.SL_STATUS_STATE.off, GJ.SL_STATUS_STATE.off + GJ.SL_STATUS_STATE.stride] →
        t.gj.c.get o = gjReset s.gj.c.prm o)
  ∧ (∀ (s : State) (straps : BitVec 8) (brk hbm : Bool) (reason : Nat),
    (straps.toNat % 4 = 1 ∨ straps.toNat % 4 = 2 → reason = 1) →
    (straps.toNat % 4 = 0 ∨ straps.toNat % 4 = 3 → brk = true → reason = 2) →
    (straps.toNat % 4 = 0 ∨ straps.toNat % 4 = 3 → brk = false → s.ez.flash.headerOk = false ∧ reason = 3
      ∨ s.ez.flash.headerOk = true ∧ (∀ i, s.ez.flash.image = some i → i.digestOk = false ∨ i.sigOk = false) ∧ reason = 4
      ∨ s.ez.flash.headerOk = true ∧ (∃ i, s.ez.flash.image = some i ∧ i.digestOk = true ∧ i.sigOk = true)
          ∧ (∀ b, s.ez.flash.config = some b → b.sigOk = false ∨ b.seq < s.ez.flash.seqMax ∨ b.entries = [] ∨ 2048 < b.entries.length) ∧ reason = 6) →
    ∃ t, exec (.ezPorstN straps brk hbm) s = .next t ∧ t = { s with ez := t.ez } ∧ t.ez.c.rd EZ.BOOT_STATUS_STAGE = 5
      ∧ t.ez.c.rd EZ.BOOT_STATUS_REASON = reason ∧ t.ez.c.rd EZ.BOOT_STATUS_STRAPS = straps.toNat ∧ t.ez.c.gt = 0
      ∧ t.ez.c.rd EZ.TS_STATUS_STATE = 0 ∧ ∀ p, p < 68 → t.ez.c.rd EZ.SL_STATUS_STATE p = 0)
  ∧ (∀ (s : State) (straps : BitVec 8) (hbm : Bool) (img : FwImage) (b : FwConfig) (w d : Word),
    straps.toNat % 4 = 0 ∨ straps.toNat % 4 = 3 → s.ez.flash.headerOk = true → s.ez.flash.image = some img → img.digestOk = true → img.sigOk = true →
    s.ez.flash.config = some b → b.sigOk = true → s.ez.flash.seqMax ≤ b.seq →
    b.entries = [⟨w64 (put 47 24 EZ.TB_LOCKCFG_LOCK_THR.off), w, d⟩] → formatOk .elzel EZ.TB_LOCKCFG_LOCK_THR.off w = true →
    ∃ t, exec (.ezPorstN straps false hbm) s = .next t ∧ t = { s with ez := t.ez } ∧ t.ez.flash.seqMax = b.seq
      ∧ t.ez.c.get EZ.TB_LOCKCFG_LOCK_THR.off = mergeBits (ezReset EZ.TB_LOCKCFG_LOCK_THR.off) d w
      ∧ (if hbm then t.ez.c.rd EZ.BOOT_STATUS_STAGE = 4 ∧ t.ez.c.rd EZ.BOOT_STATUS_BOOT_MS = 231 ∧ t.ez.c.rd EZ.BOOT_STATUS_FW_LEVEL = img.level.toNat
          ∧ t.ez.c.rd EZ.CMD_CAP_LVL_MIN = img.lvlMin.toNat ∧ t.ez.c.rd EZ.CMD_CAP_LVL_MAX = img.lvlMax.toNat
        else t.ez.c.rd EZ.BOOT_STATUS_STAGE = 5 ∧ t.ez.c.rd EZ.BOOT_STATUS_REASON = 8))
  ∧ (∀ s : State, s.ez.c.pw.st = .denOnly → s.ez.th.tripped = false → s.ez.flash.headerOk = false → s.ez.c.rd EZ.BOOT_STATUS_STRAPS % 4 = 0 →
    ∃ t, exec (.denOnlyWake 1) s = .next t ∧ t = { s with ez := t.ez } ∧ t.ez.c.pw.st = .run ∧ t.ez.c.gt = s.ez.c.gt ∧ t.ez.c.htSec = s.ez.c.htSec
      ∧ t.ez.c.htNs = s.ez.c.htNs ∧ t.ez.c.htFrac = s.ez.c.htFrac ∧ t.ez.c.jrnl = s.ez.c.jrnl ∧ t.ez.flash = s.ez.flash
      ∧ t.ez.c.rd EZ.PST_STATUS_DEN_TIME = satU 32 ((s.ez.c.now - s.ez.c.pw.entryAt) / 1000000000) ∧ t.ez.c.rd EZ.BOOT_STATUS_REASON = 3)
  ∧ (∀ (s : State) (r : RstRun), s.gj.c.den.run = some r → r.level = 4 → r.capturing = false → r.started = true → s.gj.c.lock ≠ 2 →
    ∃ t, exec (.powerGoodTimeout .garja) s = .next t ∧ t = s.onGj (fun _ => t.gj) ∧ t.gj.c.den.run = some { r with fails := r.fails + 1 }
      ∧ t.gj.c.den.dead = decide (1 ≤ r.fails) ∧ t.gj.c.gt = 0
      ∧ (1 ≤ r.fails → t.gj.c.rd GJ.RST_STATUS_STATUS = 7 ∧ t.gj.c.clocked = false ∧ t.gj.c.flag GJ.CLK_STATUS_GPLL_LOCK = false))
  ∧ (∀ s : State, s.ez.mgr.toHost = [] → exec (.powerGoodTimeout .elzel) s = .next s)

/-- R205, R376, R379, R380, R393: a reset that is accepted while none runs is noted in the status register and runs; one of level 2 to 4
and a capture first write a capsule to the slot of the older one. A tile is refused. -/
def Obligations.ResetsBegin : Prop :=
  (∀ (u : Part) (s : State) (r : Requester) (part : BitVec 8), s.running u → (s.chip u).den.run = none → s.mayReset u r = true →
    s.ez.mgr.toHost = [] →
    let c := s.chip u
    let slot : Nat := if ((c.den.caps[0]?).map (·.seq)).getD 0 ≤ ((c.den.caps[1]?).map (·.seq)).getD 0 then 0 else 1
    ∀ x ∈ [(Instr.resetPartition u r part, 2, part.toNat), (.resetUnit u r, 3, 0), (.coldReset u r, 4, 0), (.captureOnly u r, 7, 0)],
      (x.2.1 = 2 → part.toNat < 4) → ∃ ws : List (Nat × Word),
        let d := ((((c.wr (PT.RST_STATUS_LEVEL u) x.2.1).wr (PT.RST_STATUS_STATUS u) 0).wr (PT.RST_STATUS_DONE u) 0).wr (PT.RST_STATUS_BUSY u) 1).wr (PT.RST_STATUS_OVER u) 0
        let d := if x.2.1 = 7 then d else d.inc (PT.RST_STATUS_RESETS u)
        let d := if x.2.1 = 4 then d.inc (PT.RST_STATUS_COLDS u) else d
        (1, w64 c.gtInt) ∈ ws ∧ Yields u x.1 s { d with den := { c.den with
          run := some { level := x.2.1, part := x.2.2, by_ := ownerCode r, at_ := c.now, capturing := true },
          caps := upd c.den.caps slot (fun _ => { seq := c.den.capSeq + 1, words := ws }) } })
  ∧ (∀ (s : State) (r : Requester), s.running .garja → s.gj.c.den.run = none → s.mayReset .garja r = true → s.gj.Calm → s.gj.c.applying = false →
    let c := s.gj.c
    let d := (((((c.wr GJ.RST_STATUS_LEVEL 0).wr GJ.RST_STATUS_STATUS 0).wr GJ.RST_STATUS_DONE 0).wr GJ.RST_STATUS_BUSY 1).wr GJ.RST_STATUS_OVER 0).inc GJ.RST_STATUS_RESETS
    YieldsGj (.resetEngine .garja r 6) s { s.gj with
      c := { d with den := { c.den with run := some { level := 0, sub := 6, by_ := ownerCode r, at_ := c.now, started := true } } }
      lane := { s.gj.lane with reads := [] } })
  ∧ (∀ (s : State) (r : Requester), s.running .elzel → s.ez.c.den.run = none → s.mayReset .elzel r = true → s.ez.mgr.toHost = [] → s.ez.c.applying = false →
    let c := s.ez.c
    let d := (((((c.wr EZ.RST_STATUS_LEVEL 0).wr EZ.RST_STATUS_STATUS 0).wr EZ.RST_STATUS_DONE 0).wr EZ.RST_STATUS_BUSY 1).wr EZ.RST_STATUS_OVER 0).inc EZ.RST_STATUS_RESETS
    Yields .elzel (.resetEngine .elzel r 14) s { d.wr EZ.PWR_CTL_EN 0 with
      den := { c.den with run := some { level := 0, sub := 14, by_ := ownerCode r, at_ := c.now, started := true } } })
  ∧ (∀ (s : State) (r : Requester) (ctx : BitVec 8), s.running .garja → s.gj.c.den.run = none → s.mayReset .garja r = true → s.gj.Calm →
    s.gj.c.applying = false → s.gj.ctxState ctx.toNat = 0 →
    let c := s.gj.c
    let d := (((((c.wr GJ.RST_STATUS_LEVEL 1).wr GJ.RST_STATUS_STATUS 0).wr GJ.RST_STATUS_DONE 0).wr GJ.RST_STATUS_BUSY 1).wr GJ.RST_STATUS_OVER 0).inc GJ.RST_STATUS_RESETS
    (∀ k, k < 4 → s.gj.c.rd GJ.STG_S_W0_STATE k = 0) →
    YieldsGj (.resetContext .garja r ctx) s { s.gj with
      c := { d with den := { c.den with run := some { level := 1, ctx := ctx.toNat, by_ := ownerCode r, at_ := c.now, started := true } } } })
  ∧ (∀ (s : State) (t : BitVec 12) (x : Instr), x ∈ [Instr.resetEngine .garja (.tile t) 4, .resetContext .garja (.tile t) 0, .resetPartition .garja (.tile t) 0,
      .resetUnit .garja (.tile t), .coldReset .garja (.tile t), .captureOnly .garja (.tile t)] →
    exec x s = .next (s.onGj (fun g => g.onSo (fun e => { e with answers := (.tile t, 6) :: e.answers }))))
  ∧ (∀ (s : State) (r : Requester) (ctx : BitVec 8), s.running .elzel → s.mayReset .elzel r = true → s.ez.mgr.toHost = [] →
    Yields .elzel (.resetContext .elzel r ctx) s ((s.ez.c.wr EZ.RST_STATUS_LEVEL 1).wr EZ.RST_STATUS_STATUS 3))

/-- R376, R380, R389, R394: a capture that was asked for alone ends; after the capture of a COLD the part starts anew with the Den's
registers kept; a reset that is done, and one past its bound. R332, R384 to R386: the watcher of a record that has waited, a heartbeat of each part, the summary of a leaf, and DEN_BEAT. -/
def Obligations.ResetsEndAndHeartbeatsRun : Prop :=
  ((∀ (s : State) (r : RstRun) (cap : CapSlot), s.running .garja → s.gj.c.den.run = some r → r.capturing = true → r.level = 7 → r.orders = [] →
     s.gj.c.den.queued = none → s.gj.c.den.caps[1]? = some cap →
     let c := s.gj.c
     let seq := c.den.capSeq + 1
     let slot : Nat := if cap.seq = seq then 1 else 0
     let f := if slot = 0 then GJ.CAP_CTL_UNREAD0 else GJ.CAP_CTL_UNREAD1
     let d := if c.flag f then c.inc GJ.CAP_CTL_LOST else c
     let d := ((((d.wr f 1).wr GJ.CAP_CTL_NEWEST slot).wr GJ.RST_STATUS_DONE 1).wr GJ.RST_STATUS_BUSY 0).wr GJ.RST_STATUS_ELAPSED (satU 18 ((c.now - r.at_) / 1000))
     Yields .garja (.capsuleCaptureDone .garja) s { d with den := { c.den with capSeq := seq, run := none } })
   ∧ (∀ (s : State) (r : RstRun), s.running .elzel → s.ez.c.den.run = some r → r.capturing = true → r.level = 7 → r.orders = [] →
     s.ez.c.den.queued = none →
     ∃ t, exec (.capsuleCaptureDone .elzel) s = .next t ∧ t.gj = s.gj ∧ t.dieMem = s.dieMem ∧ t.ez.c.den.run = none ∧ t.ez.c.den.capSeq = s.ez.c.den.capSeq + 1
       ∧ t.ez.c.rd EZ.RST_STATUS_DONE = 1 ∧ t.ez.c.rd EZ.RST_STATUS_BUSY = 0)
   ∧ (∀ (s : State) (r : RstRun), s.running .garja → s.gj.c.den.run = some r → r.capturing = true → r.level = 4 → s.gj.c.applying = false →
     s.gj.c.den.queued = none →
     ∃ t, exec (.capsuleCaptureDone .garja) s = .next t ∧ t = s.onGj (fun _ => t.gj)
       ∧ t.gj.c.den.run = some { r with capturing := false, started := true } ∧ t.gj.c.den.capSeq = s.gj.c.den.capSeq + 1
       ∧ t.gj.c.gt = 0 ∧ t.gj.so = {} ∧ t.gj.c.now = s.gj.c.now ∧ t.gj.c.rd GJ.RST_STATUS_BUSY = s.gj.c.rd GJ.RST_STATUS_BUSY
       ∧ t.gj.c.get GJ.CTX_STATE_STATE.off = gjReset s.gj.c.prm GJ.CTX_STATE_STATE.off)
   ∧ (∀ (u : Part) (s : State) (r : RstRun), s.running u → (s.chip u).den.run = some r → r.capturing = false → r.started = true → r.level = 0 →
     r.orders = [] → s.ez.Calm →
     ∃ t, exec (.resetDone u) s = .next t ∧ (u = .elzel → t.gj = s.gj) ∧ (u = .garja → t.ez = s.ez)
       ∧ t.dieMem = s.dieMem ∧ t.hostMem = s.hostMem
       ∧ (t.chip u).den = { (s.chip u).den with run := none } ∧ (t.chip u).rd (PT.RST_STATUS_DONE u) = 1 ∧ (t.chip u).rd (PT.RST_STATUS_BUSY u) = 0
       ∧ (t.chip u).rd (PT.RST_STATUS_ELAPSED u) = satU 18 (((s.chip u).now - r.at_) / 1000)
       ∧ (s.chip u).Touches (t.chip u) [(PT.RST_STATUS_DONE u).off, EZ.BOOT_STATUS])
   ∧ (∀ (u : Part) (s : State) (r : RstRun), (s.chip u).den.run = some r → r.level = 0 → r.at_ + 10000 ≤ (s.chip u).now →
     Yields u (.resetBoundOver u) s ((s.chip u).wr (PT.RST_STATUS_OVER u) 1)))
  ∧ ((∀ (u : Part) (s : State) (e : EvRec) (rest : List EvRec), s.running u → (s.chip u).den.run = none → (s.chip u).ev.queue = e :: rest →
       let c := s.chip u
       c.rd (PT.DEN_WATCH_WATCH_US u) ≠ 0 → (c.rd (PT.IRQ_PEND_PEND u)).testBit 9 = false →
       e.at_ + c.rd (PT.DEN_WATCH_WATCH_US u) * 1000 ≤ c.now → c.ev.denFrom + c.rd (PT.DEN_WATCH_WATCH_US u) * 1000 ≤ c.now →
       Yields u (.denWatch u 1) s
         ((((c.wr (PT.DEN_WATCH_FIRED u) 1).wr (PT.DEN_WATCH_REASON u) 1).wr (PT.DEN_WATCH_TYPE u) (bits (e.words.headD 0) 63 54)).wr
           (PT.DEN_WATCH_STAMP u) (bits (e.words.headD 0) 31 0)))
     ∧ (∀ s : State, s.running .garja → s.gj.c.flag GJ.RST_HBCFG_HB_EN = true →
       s.gj.c.den.beatAt + max 100 (s.gj.c.rd GJ.RST_HBCFG_HB_INT) * 1000 ≤ s.gj.c.now →
       Yields .garja (.heartbeat .garja) s { s.gj.c.wr GJ.RST_BEAT_BEAT (s.gj.c.rd GJ.RST_BEAT_BEAT + 1) with den := { s.gj.c.den with beatAt := s.gj.c.now } })
     ∧ (∀ s : State, s.running .elzel → s.ez.c.den.run = none → s.ez.c.flag EZ.RST_HBCFG_HB_EN = true →
       s.ez.c.den.beatAt + max 100 (s.ez.c.rd EZ.RST_HBCFG_HB_INT) * 1000 ≤ s.ez.c.now →
       Yields .elzel (.heartbeat .elzel) s { s.ez.c.wr EZ.RST_BEAT_FW_BEAT (s.ez.c.rd EZ.RST_BEAT_FW_BEAT + 1) with den := { s.ez.c.den with beatAt := s.ez.c.now } })
     ∧ (∀ s : State, s.running .elzel → s.ez.c.rd EZ.ROLE_ROLE = 1 → s.ez.c.flag EZ.RST_HBCFG_HB_EN = true →
       s.ez.c.den.sumAt + max 100 (s.ez.c.rd EZ.RST_HBCFG_HB_INT) * 1000 ≤ s.ez.c.now →
       Yields .elzel .hbSummary s { s.ez.c with den := { s.ez.c.den with sumAt := s.ez.c.now } })
     ∧ (∀ s : State, s.ez.c.den.denAt + max 100 (s.ez.c.rd EZ.RST_HBCFG_HB_INT) * 1000 ≤ s.ez.c.now →
       Yields .elzel .denBeat s { s.ez.c.wr EZ.RST_BEAT_DEN_BEAT (s.ez.c.rd EZ.RST_BEAT_DEN_BEAT + 1) with den := { s.ez.c.den with denAt := s.ez.c.now } }))

/-- R454, R455, R461 to R464: firmware operations begin with STATE = BUSY and the status of their check, and end with STATE = DONE; a
programmed image stands in the flash. The monitor serves UART0 where the straps select it. -/
def Obligations.FirmwareOperations : Prop :=
  (∀ s : State, s.running .elzel → s.ez.fw = none → 1 ≤ s.ez.c.rd EZ.FW_CTL_LEN → s.ez.c.rd EZ.FW_CTL_LEN ≤ 65536 →
    let c := s.ez.c
    let bs := memReadBytes s.hostMem (c.rd EZ.FW_ADDR_ADDR * 64) (c.rd EZ.FW_CTL_LEN)
    let img := Config.readImage bs
    let blk := Config.readConfig bs
    (img.digestOk = false ∨ img.sigOk = false → blk.sigOk = false →
      exec .fwVerify s = .next { s with ez := { s.ez with fw := some { op := 1, status := 3 }, c := c.wr EZ.FW_CTL_STATE 1 } })
    ∧ (img.digestOk = true → img.sigOk = true →
      exec .fwVerify s = .next { s with ez := { s.ez with fw := some { op := 1 }, c := c.wr EZ.FW_CTL_STATE 1 } })
    ∧ (exec .fwProgram s = .next { s with ez := { s.ez with
        fw := some { op := 2, img := some img, status :=
          if img.digestOk && img.sigOk then
            (if (List.range 68).any (fun p => c.rd EZ.SL_STATUS_STATE p == 5 &&
                (decide (c.rd EZ.SL_STATUS_LVL_RUN p < img.lvlMin.toNat) || decide (img.lvlMax.toNat < c.rd EZ.SL_STATUS_LVL_RUN p))) then 12 else 0)
          else 3 }
        c := c.wr EZ.FW_CTL_STATE 1 } })
    ∧ (blk.sigOk = false ∨ blk.seq < s.ez.flash.seqMax ∨ blk.entries = [] →
      exec .fwConfig s = .next { s with ez := { s.ez with fw := some { op := 3, blk := some blk, status := 3 }, c := c.wr EZ.FW_CTL_STATE 1 } }))
  ∧ (∀ (s : State) (ok : Bool) (r : FwRun), s.running .elzel → s.ez.fw = some r → r.status ≠ 0 →
    exec (.fwOpDone ok) s = .next { s with ez := { s.ez with fw := none, c := (s.ez.c.wr EZ.FW_CTL_STATE 2).wr EZ.FW_CTL_STATUS r.status } })
  ∧ (∀ (s : State) (r : FwRun) (i : FwImage), s.running .elzel → s.ez.fw = some r → r.status = 0 → r.op = 2 → r.img = some i →
    s.ez.c.rd EZ.BOOT_STATUS_STAGE = 4 →
    exec (.fwOpDone true) s = .next { s with ez := { s.ez with fw := none, flash := { s.ez.flash with image := some i },
                                                               c := (s.ez.c.wr EZ.FW_CTL_STATE 2).wr EZ.FW_CTL_STATUS 0 } })
  ∧ (∀ (s : State) (i : FwImage) (b : FwConfig), s.running .elzel → s.ez.c.rd EZ.BOOT_STATUS_STAGE = 5 → s.ez.c.rd EZ.BOOT_STATUS_STRAPS % 4 = 2 →
    exec .monitorStatus s = .next { s with ez := { s.ez with console := .words [s.ez.c.get EZ.BOOT_STATUS, s.ez.c.get EZ.FW_CTL] :: s.ez.console } }
    ∧ (s.ez.fw = none → i.digestOk = false ∨ i.sigOk = false → b.sigOk = false →
      exec (.monitorVerify i) s = .next { s with ez := { s.ez with fw := some { op := 1, status := 3 }, c := s.ez.c.wr EZ.FW_CTL_STATE 1 } }
      ∧ exec (.monitorProgram i) s = .next { s with ez := { s.ez with fw := some { op := 2, img := some i, status := 3 }, c := s.ez.c.wr EZ.FW_CTL_STATE 1 } }
      ∧ exec (.monitorConfig b) s = .next { s with ez := { s.ez with fw := some { op := 3, blk := some b, status := 3 }, c := s.ez.c.wr EZ.FW_CTL_STATE 1 } })
    ∧ (s.ez.fw = none → i.digestOk = true → i.sigOk = true → (∀ p, p < 68 → s.ez.c.rd EZ.SL_STATUS_STATE p ≠ 5) →
      exec (.monitorVerify i) s = .next { s with ez := { s.ez with fw := some { op := 1 }, c := s.ez.c.wr EZ.FW_CTL_STATE 1 } }
      ∧ exec (.monitorProgram i) s = .next { s with ez := { s.ez with fw := some { op := 2, img := some i }, c := s.ez.c.wr EZ.FW_CTL_STATE 1 } }))

/-! ### Sync objects (08) -/

/-- R167, R173, R183: the signal operations and FLAG_MODE of a doorbell: the object's new word, the answer, and the grant pass. A sum above
the greatest count and a difference below 0 stop there, and FLAG_SET of a set flag stays: they saturate, mark the word and count. -/
def Obligations.DoorbellsSignal : Prop :=
  ∀ (s : State) (r : Requester) (ctx : BitVec 8) (obj : BitVec 17) (val : BitVec 32), s.DoorReady r ctx.toNat obj.toNat →
    let g := s.gj
    let phys := g.physOf ctx.toNat obj.toNat
    let w := g.obj phys
    let v := bits w 31 0
    let n := val.toNat
    let d := doorData (g.c.rd GJ.CTX_STATE_CUR ctx.toNat) n 0 obj.toNat
    let d0 := doorData (g.c.rd GJ.CTX_STATE_CUR ctx.toNat) 0 0 obj.toNat
    let sat : Garja := { g with c := g.c.inc GJ.SO_CNT_SAT }
    (g.flagBuild = false →
      (v + n ≤ 0xFFFFFFFF → YieldsGj (.semAdd r ctx d) s (g.withObj phys (setBits w 31 0 (v + n)) r 0 (n != 0)))
      ∧ (v + n > 0xFFFFFFFF → YieldsGj (.semAdd r ctx d) s
          (sat.withObj phys (setBits (setBits w 31 0 0xFFFFFFFF) 63 63 1) r 8 (v != 0xFFFFFFFF)))
      ∧ (n ≤ v → YieldsGj (.semSub r ctx d) s (g.withObj phys (setBits w 31 0 (v - n)) r 0 (n != 0)))
      ∧ (n > v → YieldsGj (.semSub r ctx d) s (sat.withObj phys (setBits (setBits w 31 0 0) 62 62 1) r 8 (v != 0)))
      ∧ YieldsGj (.semSet r ctx d) s (g.withObj phys (setBits w 31 0 n) r 0 (n != v)))
    ∧ (g.flagBuild = true →
      (bit w 0 = false → YieldsGj (.flagSet r ctx d0) s (g.withObj phys (setBits w 0 0 1) r 0 true))
      ∧ (bit w 0 = true → YieldsGj (.flagSet r ctx d0) s (sat.withObj phys (setBits w 63 63 1) r 8 true))
      ∧ YieldsGj (.flagClr r ctx d0) s (g.withObj phys (setBits w 0 0 0) r 0 (bit w 0))
      ∧ YieldsGj (.flagMode r ctx d) s (g.withObj phys (setBits w 62 62 (n % 2)) r 0 false))

/-- R167, R171 to R176, R181: SEM_TRY and FLAG_TRY answer OK and take what they ask, or BUSY; a wait that is met at once is granted with its
result word and NEW, or by a pass where it takes the count; another takes the slot of its tile. R165, R168 to R170, R198: a doorbell that is refused: an operation of the other build, a context that is FREE, a generation that is not CUR, a
context that takes no operation, and an object outside the window, in that order. The engine is left alone and the refusal counted. -/
def Obligations.DoorbellsTryWaitAndAreRefused : Prop :=
  (∀ (s : State) (r : Requester) (ctx : BitVec 8) (obj : BitVec 17) (val : BitVec 32), s.DoorReady r ctx.toNat obj.toNat →
     let g := s.gj
     let x := ctx.toNat
     let phys := g.physOf x obj.toNat
     let w := g.obj phys
     let v := bits w 31 0
     let n := val.toNat
     let gen := g.c.rd GJ.CTX_STATE_CUR x
     let d := doorData gen n 0 obj.toNat
     let d0 := doorData gen 0 0 obj.toNat
     (g.flagBuild = false →
       (n ≤ v → YieldsGj (.semTry r ctx d) s (g.withObj phys (setBits w 31 0 (v - n)) r 0 (n != 0)))
       ∧ (v < n → YieldsGj (.semTry r ctx d) s (g.answered r 1))
       ∧ (∀ p : BitVec 3, r = .proc p → g.so.waiters = [] → v < n → YieldsGj (.waitGe r ctx d) s { g.answered r 0 with so := { (g.answered r 0).so with
           waiters := [{ slot := 4352, ctx := x, obj := obj.toNat, phys := phys, cond := 0, n := n, to_ := 0, deadline := none, stamp := g.c.stamp, proc := p.toNat }] } })
       ∧ ∀ t : BitVec 12, r = .tile t → (∀ y ∈ g.so.waiters, y.slot ≠ t.toNat) →
         let wt : Waiter := { slot := t.toNat, ctx := x, obj := obj.toNat, phys := phys, cond := 0, n := n, to_ := 0, deadline := none, stamp := g.c.stamp }
         let waits := fun (k : Nat) => { g.answered r 0 with so := { (g.answered r 0).so with waiters := insertWaiter { wt with cond := k } g.so.waiters } }
         (n ≤ v → YieldsGj (.waitGe r ctx d) s ((g.withResult t.toNat 0 obj.toNat).answered r 0))
         ∧ (v < n → YieldsGj (.waitGe r ctx d) s (waits 0))
         ∧ (n ≤ v → 0 < n → YieldsGj (.waitGeC r ctx d) s { g with so := { g.so with
             objs := sparseSet g.so.objs phys (setBits w 31 0 (v - n)), passes := [{ phys := phys, early := [{ wt with cond := 1 }], answers := [(r, 0)] }] } })
         ∧ (v < n → YieldsGj (.waitGeC r ctx d) s (waits 1))
         ∧ (n = v → YieldsGj (.waitEq r ctx d) s ((g.withResult t.toNat 0 obj.toNat).answered r 0))
         ∧ (n ≠ v → YieldsGj (.waitEq r ctx d) s (waits 2))
         ∧ (∀ to_ : BitVec 4, to_ ≠ 0 → g.c.rd GJ.SO_TMO_NS to_.toNat ≠ 0 → v < n →
           YieldsGj (.waitGe r ctx (doorData gen n to_.toNat obj.toNat)) s { g.answered r 0 with so := { (g.answered r 0).so with
             waiters := insertWaiter { wt with to_ := to_.toNat, deadline := some ((g.c.gtInt + g.c.rd GJ.SO_TMO_NS to_.toNat) % 2 ^ 64) } g.so.waiters } }))
     ∧ (g.flagBuild = true →
       (bit w 0 = true → bit w 62 = false → YieldsGj (.flagTry r ctx d0) s (g.withObj phys w r 0 false))
       ∧ (bit w 0 = true → bit w 62 = true → YieldsGj (.flagTry r ctx d0) s (g.withObj phys (setBits w 0 0 0) r 0 true))
       ∧ (bit w 0 = false → YieldsGj (.flagTry r ctx d0) s (g.answered r 1))
       ∧ ∀ t : BitVec 12, r = .tile t → (∀ y ∈ g.so.waiters, y.slot ≠ t.toNat) →
         (bit w 0 = true → bit w 62 = false → YieldsGj (.waitFlag r ctx d0) s ((g.withResult t.toNat 0 obj.toNat).answered r 0))
         ∧ (bit w 0 = true → bit w 62 = true → YieldsGj (.waitFlag r ctx d0) s { g with so := { g.so with
             objs := sparseSet g.so.objs phys (setBits w 0 0 0),
             passes := [{ phys := phys, early := [{ slot := t.toNat, ctx := x, obj := obj.toNat, phys := phys, cond := 3, n := 0, to_ := 0, deadline := none, stamp := g.c.stamp }],
                          answers := [(r, 0)] }] } })
         ∧ (bit w 0 = false → YieldsGj (.waitFlag r ctx d0) s { g.answered r 0 with so := { (g.answered r 0).so with
             waiters := insertWaiter { slot := t.toNat, ctx := x, obj := obj.toNat, phys := phys, cond := 3, n := 0, to_ := 0, deadline := none, stamp := g.c.stamp }
               g.so.waiters } })))
  ∧ (∀ (s : State) (r : Requester) (ctx : BitVec 8) (data : Word), s.running .garja → s.gj.Calm → s.gj.serves r = true → s.gj.c.den.run = none →
       s.gj.flagBuild = false → s.gj.c.fnOn 0 = true →
       let g := s.gj
       let x := ctx.toNat
       let no := fun (f : Fld) (st : Nat) => ({ g with c := g.c.inc f } : Garja).answered r st
       YieldsGj (.flagSet r ctx data) s (no GJ.SO_DROP_BADOP 2)
       ∧ (g.ctxState x = 0 → YieldsGj (.semAdd r ctx data) s (no GJ.SO_DROP_NOCTX 4))
       ∧ (g.ctxState x ≠ 0 → bits data 63 56 ≠ g.c.rd GJ.CTX_STATE_CUR x → YieldsGj (.semAdd r ctx data) s (no GJ.SO_DROP_STALE 5))
       ∧ (g.ctxState x = 3 ∨ g.ctxState x = 4 → bits data 63 56 = g.c.rd GJ.CTX_STATE_CUR x → YieldsGj (.semAdd r ctx data) s (no GJ.SO_DROP_NOCTX 6))
       ∧ (g.ctxState x = 1 → bits data 63 56 = g.c.rd GJ.CTX_STATE_CUR x → g.c.rd GJ.CTX_XLAT_SIZE x ≤ bits data 16 0 →
           YieldsGj (.semAdd r ctx data) s (no GJ.SO_DROP_BADPARAM 3)))

/-- R171, R173 to R176, R181, R182, R189, R190: a grant pass delivers its grants in ascending slots and ends; reading a result word clears NEW; a
wait whose deadline is due ends with TIMEOUT; an object-window write sets the word and is counted; a capture shows a waiter's slot. -/
def Obligations.GrantsAndOutcomes : Prop :=
  (∀ (s : State) (obj : BitVec 17) (x : Nat) (a b : Waiter), s.running .garja → s.gj.Calm → s.gj.flagBuild = false → s.gj.fox.undo = [] → s.gj.fox.squash = none →
    let g := s.gj
    let phys := obj.toNat
    let w := g.obj phys
    let v := bits w 31 0
    g.so.passes = [{ phys := phys }] → g.so.waiters = [a, b] → a.slot < b.slot → b.slot < 4096 → a.phys = phys → b.phys = phys →
    a.cond = 1 → b.cond = 1 → a.parked = false → b.parked = false → a.step = none → b.step = none → a.ctx = x → a.n ≤ v →
    (v - a.n < b.n → YieldsGj (.grantPass obj) s
      { g.withResult a.slot 0 a.obj with so := { (g.withResult a.slot 0 a.obj).so with
          objs := sparseSet g.so.objs phys (setBits w 31 0 (v - a.n)), passes := [], waiters := [b] } })
    ∧ (b.n ≤ v - a.n → YieldsGj (.grantPass obj) s
      { (g.withResult a.slot 0 a.obj).withResult b.slot 0 b.obj with so := { ((g.withResult a.slot 0 a.obj).withResult b.slot 0 b.obj).so with
          objs := sparseSet g.so.objs phys (setBits w 31 0 (v - a.n - b.n)), passes := [], waiters := [] } }))
  ∧ (∀ (s : State) (tile : BitVec 12) (ctx : BitVec 8), s.running .garja →
    YieldsGj (.resultWordRead tile ctx) s { s.gj with so := { s.gj.so with
      results := sparseSet s.gj.so.results tile.toNat (setBits (sparseGet s.gj.so.results tile.toNat) 55 55 0) } })
  ∧ (∀ (s : State) (slot : BitVec 13) (w : Waiter) (d : Nat), s.running .garja → s.gj.Calm → s.gj.c.applying = false → s.gj.so.passes = [] →
    s.gj.so.waiters = [w] → w.slot = slot.toNat → slot.toNat < 4096 → w.deadline = some d → w.parked = false → 0 ≤ sdiff 64 s.gj.c.gtInt d →
    YieldsGj (.soTimeout slot) s { ({ s.gj with c := s.gj.c.inc GJ.SO_CNT_TMO } : Garja).withResult w.slot 7 w.obj with
      so := { (s.gj.withResult w.slot 7 w.obj).so with waiters := [] } })
  ∧ (∀ (s : State) (p : BitVec 3) (ctx : BitVec 8) (obj : BitVec 17) (data : Word), s.running .garja → s.gj.Calm → p.toNat < s.gj.c.prm.nProc →
    s.gj.EngineReady ctx.toNat obj.toNat → s.gj.c.fnOn 1 = true → s.gj.flagBuild = false →
    let g := s.gj
    let phys := g.physOf ctx.toNat obj.toNat
    YieldsGj (.objectWindowWrite (.proc p) ctx obj data) s
      (({ g with c := g.c.inc GJ.SO_CNT_HAND } : Garja).withObj phys (w64 (bits data 63 62 * 2 ^ 62 + bits data 31 0)) (.proc p) 0
        (bits data 31 0 != bits (g.obj phys) 31 0)))
  ∧ (∀ (s : State) (t : BitVec 12) (ctx : BitVec 8) (obj : BitVec 17) (data : Word), s.running .garja → s.gj.Calm → s.gj.smap = none → s.gj.c.den.run = none →
    s.gj.ctxState ctx.toNat = 1 →
    YieldsGj (.objectWindowWrite (.tile t) ctx obj data) s (({ s.gj with c := s.gj.c.inc GJ.SO_DROP_NOCTX } : Garja).answered (.tile t) 6))
  ∧ (∀ (s : State) (slot : BitVec 13), (∀ w ∈ s.gj.so.waiters, w.slot ≠ slot.toNat) →
    YieldsGj (.waiterSlotCapture slot) s
      { s.gj with c := (((s.gj.c.wr GJ.SO_WIDX_SLOT slot.toNat).set GJ.SO_WDATA0 0).set GJ.SO_WDATA1 0).set GJ.SO_WDATA2 0 })
  ∧ (∀ (s : State) (slot : BitVec 13) (w : Waiter), s.gj.so.waiters = [w] → w.slot = slot.toNat → slot.toNat < 4096 →
    YieldsGj (.waiterSlotCapture slot) s
      { s.gj with c := (((s.gj.c.wr GJ.SO_WIDX_SLOT slot.toNat).set GJ.SO_WDATA0
          (w64 (2 ^ 63 + put 60 59 w.cond + put 58 58 (b2n w.parked) + put 57 50 w.ctx + put 49 36 slot.toNat + put 35 33 w.proc + put 16 0 w.obj))).set
        GJ.SO_WDATA1 (w64 (put 63 32 w.n + put 31 28 w.to_))).set GJ.SO_WDATA2 (w64 (w.deadline.getD 0)) })

/-- R24, R50, R79, R184, R185, R200, R430, R431: a tap that is on takes a signal, applies it at its write-acknowledged and then waits for VALID to
fall; an error, and VALID that falls early, lose the signal; SIG is taken for the own chip only. -/
def Obligations.SignalsArrive : Prop :=
  (∀ (s : State) (tap : BitVec 4) (addr : Word) (op : BitVec 8) (val : BitVec 32) (x : Tap), s.gj.tapOpen tap.toNat = true →
    s.gj.taps[tap.toNat]? = some x → x.sig = none → x.done = false →
    YieldsGj (.tapPresent tap addr op val) s
      { s.gj with taps := upd s.gj.taps tap.toNat (fun t => { t with sig := some { addr := addr, op := op.toNat, val := val.toNat } }) })
  ∧ (∀ (s : State) (tap : BitVec 4) (x : Tap) (y : TapSig), s.gj.Calm → s.gj.taps[tap.toNat]? = some x → x.sig = some y → x.done = false →
    let g := s.gj
    let ended := upd g.taps tap.toNat (fun t => { t with done := true })
    (y.cut = false → YieldsGj (.tapWack tap true) s { g with taps := ended, c := g.c.inc GJ.SO_STATUS_LOST })
    ∧ (∀ ctx obj : Nat, y.cut = false → y.op = 1 → ctx < 256 → obj < 131072 → g.flagBuild = false → g.c.flag GJ.CHIP_VALID = true → g.EngineReady ctx obj →
        y.addr = w64 (put 63 56 (g.c.rd GJ.CTX_STATE_CUR ctx) + put 42 25 (g.c.rd GJ.CHIP_CHIP) + put 24 17 ctx + put 16 0 obj) →
        let phys := g.physOf ctx obj
        let w := g.obj phys
        bits w 31 0 + y.val ≤ 0xFFFFFFFF → 0 < y.val →
        YieldsGj (.tapWack tap false) s { g with
          so := { g.so with objs := sparseSet g.so.objs phys (setBits w 31 0 (bits w 31 0 + y.val)), passes := [{ phys := phys }] }, taps := ended })
    ∧ YieldsGj (.tapValidEarlyFall tap) s { g with taps := upd g.taps tap.toNat (fun _ => {}), c := g.c.inc GJ.SO_STATUS_LOST })
  ∧ (∀ (s : State) (tap : BitVec 4) (x : Tap), s.gj.taps[tap.toNat]? = some x → x.done = true →
    YieldsGj (.tapValidLow tap) s { s.gj with taps := upd s.gj.taps tap.toNat (fun _ => {}) })
  ∧ (∀ (s : State) (p : BitVec 7) (f : Flit) (ctx obj : Nat), p.toNat < 2 → s.gj.Calm → s.gj.flagBuild = false → s.gj.c.flag GJ.CHIP_VALID = true →
    s.gj.EngineReady ctx obj → ctx < 256 → obj < 131072 → s.gj.c.fnOn (2 + p.toNat) = true →
    let g : Garja := { s.gj with c := s.gj.c.take p.toNat .sig [f] }
    let phys := g.physOf ctx obj
    let w := g.obj phys
    (bits f 63 0 = (w64 (put 63 56 (g.c.rd GJ.CTX_STATE_CUR ctx) + put 42 25 (g.c.rd GJ.CHIP_CHIP) + put 24 17 ctx + put 16 0 obj)).toNat →
      bits f 117 110 = 3 → bits f 95 64 ≠ bits w 31 0 →
      YieldsGj (.sig p f) s { g with so := { g.so with objs := sparseSet g.so.objs phys (setBits w 31 0 (bits f 95 64)), passes := [{ phys := phys }] } })
    ∧ (bits f 42 25 ≠ g.c.rd GJ.CHIP_CHIP → YieldsGj (.sig p f) s { g with c := g.c.inc GJ.SO_DROP_NOCTX }))

/-! ### Contexts and functions (09) -/

/-- R193, R195, R196, R204: ACTIVATE takes a FREE context whose window fits, and is refused with BADPARAM where it does not; a command in a state
that gives it no row is refused with DENIED. -/
def Obligations.ContextsActivate : Prop :=
  (∀ (s : State) (r : Requester) (ctx gen : BitVec 8) (useGen : Bool), s.running .garja → s.gj.Calm → s.gj.commands r = true →
    let g := s.gj
    let x := ctx.toNat
    let b := g.c.rd GJ.CTX_XLAT_BASE x
    let n := g.c.rd GJ.CTX_XLAT_SIZE x
    g.ctxState x = 0 → g.c.ctxLocked x = false →
    ((∀ i, i < 4 → useGen = true → natBits (g.c.rd GJ.CTX_STATE_HIST x) (8 * i + 7) (8 * i) ≠ gen.toNat) → n ≠ 0 → b + n ≤ g.objCount →
      (∀ y, y < 256 → y ≠ x → g.ctxState y ≠ 0 → g.c.rd GJ.CTX_XLAT_BASE y + g.c.rd GJ.CTX_XLAT_SIZE y ≤ b ∨ b + n ≤ g.c.rd GJ.CTX_XLAT_BASE y) →
      (∀ t, (g.run x).freeAt = some t → t + g.c.rd GJ.CTX_CFG_REUSE_NS ≤ g.c.now) →
      let c := ((g.c.cmdTaken 1 x).wr GJ.CTX_STATE_OWNER (ownerCode r) x).wr GJ.CHIP_LOCK 1
      let c := if useGen then c.wr GJ.CTX_STATE_CUR gen.toNat x else c
      YieldsGj (.activate r ctx gen useGen) s { g with c := (c.wr GJ.CTX_STATE_STATE 1 x).cmdDone 0 })
    ∧ (n = 0 ∨ g.objCount < b + n → YieldsGj (.activate r ctx gen useGen) s { g with c := (g.c.cmdTaken 1 x).cmdDone 3 }))
  ∧ (∀ (s : State) (r : Requester) (ctx gen : BitVec 8) (i : Instr) (k : Nat), s.running .garja → s.gj.Calm → s.gj.commands r = true →
    let g := s.gj
    let x := ctx.toNat
    (g.run x).park = none → g.c.ctxLocked x = false →
    (i = .activate r ctx gen false ∧ k = 1 ∧ g.ctxState x ≠ 0) ∨ (i = .park r ctx false ∧ k = 2 ∧ g.ctxState x ≠ 1)
      ∨ (i = .resume r ctx false ∧ k = 3 ∧ g.ctxState x ≠ 2) ∨ (i = .teardown r ctx ∧ k = 4 ∧ g.ctxState x ≠ 1 ∧ g.ctxState x ≠ 2)
      ∨ (i = .abandon r ctx ∧ k = 5 ∧ (g.ctxState x = 0 ∨ g.ctxState x = 4)) ∨ (i = .teardown r ctx ∧ k = 4 ∧ ownerCode r < 8 ∧ ownerCode r ≠ g.c.rd GJ.CTX_STATE_OWNER x) →
    YieldsGj i s { g with c := (g.c.cmdTaken k x).cmdDone 6 })

/-- R201 to R203, R273: PARK stays pending until the sequencer stops, then parks the waits and completes; RESUME with KEEP returns them to
service and without it finds none to end. -/
def Obligations.ContextsParkAndResume : Prop :=
  (∀ (s : State) (r : Requester) (ctx : BitVec 8) (freeze : Bool), s.running .garja → s.gj.Calm → s.gj.commands r = true →
    let g := s.gj
    let x := ctx.toNat
    g.ctxState x = 1 → g.c.ctxLocked x = false → (g.run x).park = none → 8 ≤ ownerCode r ∨ ownerCode r = g.c.rd GJ.CTX_STATE_OWNER x →
    g.c.foxCtx = none → g.so.passes = [] →
    YieldsGj (.park r ctx freeze) s { g with c := g.c.cmdTaken 2 x
                                             ctxs := upd g.ctxs x (fun z => { z with park := some { kind := .park, by_ := ownerCode r, via := .reg, flag := freeze } }) })
  ∧ (∀ (s : State) (ctx : BitVec 8) (z : CtxRun) (k : CtxCmd), s.gj.Calm →
    let g := s.gj
    let x := ctx.toNat
    g.ctxs[x]? = some z → z.park = some k → k.via = .reg → (g.seq x).inStep = false → (g.seq x).busy = false → g.fox.squash = none → g.sqState x = 0 →
    g.c.rd GJ.CTX_CMDSTAT_OP = 2 → g.c.rd GJ.CTX_CMDSTAT_CTX = x → g.c.rd GJ.PWR_CFG_CTX ≠ x → g.c.tb.clkfixWait = none →
    (∀ n, n < 64 → g.c.flag GJ.RGN_LOST_OPEN n = false) →
    YieldsGj (.parkComplete ctx) s { g with
      c := ((g.c.wr GJ.CTX_STATE_FROZEN (b2n k.flag) x).wr GJ.CTX_STATE_STATE 2 x).cmdDone 0
      so := { g.so with waiters := g.so.waiters.map (fun w => if w.ctx == x then { w with parked := true } else w) }
      ctxs := upd g.ctxs x (fun z => { z with park := none }) })
  ∧ (∀ (s : State) (r : Requester) (ctx : BitVec 8), s.running .garja → s.gj.Calm → s.gj.commands r = true →
    let g := s.gj
    let x := ctx.toNat
    g.ctxState x = 2 → g.c.ctxLocked x = false → (g.run x).park = none → 8 ≤ ownerCode r ∨ ownerCode r = g.c.rd GJ.CTX_STATE_OWNER x →
    g.so.passes = [] → g.sqState x ≠ 5 → (g.seq x).last = none →
    ((∀ w ∈ g.so.waiters, w.ctx ≠ x) → YieldsGj (.resume r ctx false) s
      { g with c := (((g.c.cmdTaken 3 x).wr GJ.CTX_STATE_FROZEN 0 x).wr GJ.CTX_STATE_STATE 1 x).cmdDone 0 })
    ∧ (∀ w : Waiter, g.flagBuild = false → g.so.waiters = [w] → w.ctx = x → w.parked = true → w.cond = 0 → w.deadline = none →
        bits (g.obj w.phys) 31 0 < w.n → YieldsGj (.resume r ctx true) s { g with
      c := (((g.c.cmdTaken 3 x).wr GJ.CTX_STATE_FROZEN 0 x).wr GJ.CTX_STATE_STATE 1 x).cmdDone 0
      so := { g.so with waiters := [{ w with parked := false }], objs := sparseSet g.so.objs w.phys (setBits (g.obj w.phys) 31 0 (bits (g.obj w.phys) 31 0)) } }))

/-- R194, R196 to R200, R205, R206: TEARDOWN and ABANDON retire the generation and drain; with nothing in flight the drain is complete; a drain that
takes too long is forced, and its packets are lost; clearing frees the context. -/
def Obligations.ContextsEnd : Prop :=
  (∀ (s : State) (r : Requester) (ctx : BitVec 8) (z : CtxRun), s.running .garja → s.gj.Calm → s.gj.commands r = true →
    let g := s.gj
    let x := ctx.toNat
    g.ctxState x = 1 ∨ g.ctxState x = 2 → g.c.ctxLocked x = false → g.ctxs[x]? = some z → z.park = none →
    8 ≤ ownerCode r ∨ ownerCode r = g.c.rd GJ.CTX_STATE_OWNER x → g.Plain x →
    let gone := fun (c : Chip .garja) => { g with
      c := ((c.retired x).wr GJ.CTX_STATE_STATE 3 x).cmdDone 0
      taps := g.taps.map (fun t => { t with sig := t.sig.map (fun y => if bits y.addr 24 17 == x then { y with old := true } else y) })
      lane := { g.lane with reads := g.lane.reads.filter (fun d => d.ctx != x) }
      seqs := upd g.seqs x (fun q => { q with await_ := false, inStep := false, waiting := false, br := none })
      ctxs := upd g.ctxs x (fun z => { z with park := none, by_ := ownerCode r, drainAt := g.c.now }) }
    YieldsGj (.teardown r ctx) s (gone (g.c.cmdTaken 4 x)) ∧ YieldsGj (.abandon r ctx) s (gone ((g.c.cmdTaken 5 x).inc GJ.CTX_CNT_ABANDON)))
  ∧ (∀ (s : State) (ctx : BitVec 8), s.gj.Calm →
    let g := s.gj
    let x := ctx.toNat
    g.ctxState x = 3 → (∀ t ∈ g.taps, t.sig = none) →
    (g.inflOut x = 0 → YieldsGj (.drainComplete ctx) s { g with c := (g.c.wr GJ.CTX_STATE_FORCED 0 x).wr GJ.CTX_STATE_STATE 4 x })
    ∧ (g.inflOut x ≠ 0 → (g.run x).drainAt + g.c.rd GJ.CTX_CFG_DRAIN_NS ≤ g.c.now →
      let c := (((g.c.inc GJ.SO_STATUS_LOST 0 (g.inflOut x)).wr GJ.CTX_STATE_FORCED 1 x).inc GJ.CTX_CNT_FORCED).wr GJ.CTX_STATE_STATE 4 x
      YieldsGj (.drainForced ctx) s { g with
        c := { c with links := c.links.map (fun l => { l with txq := { l.txq with
          sig := l.txq.sig.filter (fun p => p.ctx != some x), evt := l.txq.evt.filter (fun p => p.ctx != some x) } }) }
        seqs := upd g.seqs x (fun q => { q with sigs := [] }) }))
  ∧ (∀ (s : State) (ctx : BitVec 8), s.gj.Calm →
    let g := s.gj
    let x := ctx.toNat
    g.ctxState x = 4 → (g.run x).freeing = [] →
    let d := g.c.set (GJ.BDOM + 8 * x) (gjReset g.c.prm (GJ.BDOM + 8 * x))
    let d := d.set (GJ.SO_RLN_CTX + 8 * x) (gjReset g.c.prm (GJ.SO_RLN_CTX + 8 * x))
    let d := d.set (GJ.HOLD_BUDGET + 8 * x) (gjReset g.c.prm (GJ.HOLD_BUDGET + 8 * x))
    let d := d.set (GJ.EVT_CTXRING + 8 * x) (gjReset g.c.prm (GJ.EVT_CTXRING + 8 * x))
    let d := ((d.inc GJ.CTX_CNT_TEAR).wr GJ.SQ_CTX_STATE_STATE 0 x).wr GJ.CTX_STATE_STATE 0 x
    let b := g.c.rd GJ.CTX_XLAT_BASE x
    let n := g.c.rd GJ.CTX_XLAT_SIZE x
    YieldsGj (.clearingDone ctx) s { g with
      c := if d.anyCtx then d else d.wr GJ.CHIP_LOCK 0
      so := { g.so with objs := g.so.objs.filter (fun o => !(decide (b ≤ o.1) && decide (o.1 < b + n))), waiters := g.so.waiters.filter (fun w => w.ctx != x) }
      lane := { g.lane with store := g.lane.store.filter (fun e => e.ctx != x) }
      seqs := upd g.seqs x (fun _ => {})
      ctxs := upd g.ctxs x (fun _ => { freeAt := some g.c.now }) })

/-- R208: a function whose enable clears drains, is off when its work is done, and is forced off after DRAIN_NS with its operations answered
DENIED and its tap cut off. -/
def Obligations.FunctionsDrain : Prop :=
  (∀ (s : State) (fn : BitVec 5) (i : Nat), i < 4 → fn.toNat = i →
    let g := s.gj
    (bit (g.c.get GJ.FN_CTL) (63 - i) = true → bits (g.c.get GJ.FN_STATUS) (63 - 2 * i) (62 - 2 * i) ≠ 1 →
      let c := g.c.set GJ.FN_CTL (setBits (g.c.get GJ.FN_CTL) (63 - i) (63 - i) 0)
      YieldsGj (.functionDisable fn) s { g with c := c.set GJ.FN_STATUS (setBits (c.get GJ.FN_STATUS) (63 - 2 * i) (62 - 2 * i) 1)
                                                fnAt := upd g.fnAt i (fun _ => g.c.now) })
    ∧ (bits (g.c.get GJ.FN_STATUS) (63 - 2 * i) (62 - 2 * i) = 1 →
      (g.so.intake = [] → YieldsGj (.functionDrained fn) s { g with c := g.c.set GJ.FN_STATUS (setBits (g.c.get GJ.FN_STATUS) (63 - 2 * i) (62 - 2 * i) 0) })
      ∧ (∀ (o : SoOp) (r : Requester), i = 0 → g.so.intake = [o] → o.path = .door r → r ≠ .debug → (g.fnAt.getD 0 0) + g.c.rd GJ.FN_CTL_DRAIN_NS ≤ g.c.now →
        bit (g.c.get GJ.FN_CTL) 63 = false →
        YieldsGj (.functionForcedOff fn) s { g with
          c := ((g.c.set GJ.FN_STATUS (setBits (g.c.get GJ.FN_STATUS) 63 62 2)).inc GJ.SO_STATUS_LOST).inc GJ.FN_STATUS_FORCED
          so := { g.so with intake := [], answers := (r, 6) :: g.so.answers } })))
  ∧ (∀ (s : State) (fn : BitVec 5) (n : Nat), n < 16 → fn.toNat = 16 + n →
    let g := s.gj
    (bit (g.c.get GJ.SO_TAP) n = true → bits (g.c.get GJ.FN_STATUS) (25 + 2 * n) (24 + 2 * n) ≠ 1 →
      let c := g.c.set GJ.SO_TAP (setBits (g.c.get GJ.SO_TAP) n n 0)
      YieldsGj (.functionDisable fn) s { g with c := c.set GJ.FN_STATUS (setBits (c.get GJ.FN_STATUS) (25 + 2 * n) (24 + 2 * n) 1)
                                                fnAt := upd g.fnAt (4 + n) (fun _ => g.c.now) })
    ∧ (∀ (t : Tap) (y : TapSig), bits (g.c.get GJ.FN_STATUS) (25 + 2 * n) (24 + 2 * n) = 1 → g.so.intake = [] → g.taps[n]? = some t → t.sig = some y →
      (t.done = true → YieldsGj (.functionDrained fn) s { g with c := g.c.set GJ.FN_STATUS (setBits (g.c.get GJ.FN_STATUS) (25 + 2 * n) (24 + 2 * n) 0) })
      ∧ (t.done = false → bit (g.c.get GJ.SO_TAP) n = false → (g.fnAt.getD (4 + n) 0) + g.c.rd GJ.FN_CTL_DRAIN_NS ≤ g.c.now →
        YieldsGj (.functionForcedOff fn) s { g with
          c := (g.c.set GJ.FN_STATUS (setBits (g.c.get GJ.FN_STATUS) (25 + 2 * n) (24 + 2 * n) 2)).inc GJ.FN_STATUS_FORCED
          taps := upd g.taps n (fun t => { t with sig := some { y with cut := true } }) })))

/-! ### Sequencer (12) and collective lane (10) -/

/-- R251, R253 to R255, R263: NOP, SETLC and BR move the PC, LOOP counting down; a BR on P waits for the RELEASE; STEP begins the next step and awaits its
launch, in WAIT_REL while that needs a RELEASE. -/
def Obligations.SequencerSteps : Prop :=
  ∀ (s : State) (ctx : BitVec 8) (q : SeqCtx) (w : Word), s.gj.Calm →
    let g := s.gj
    let x := ctx.toNat
    let pc := g.c.rd GJ.SQ_CTX_STATE_PC x
    g.Issues x q w →
    (bits w 63 58 = 11 → bits w 57 0 = 0 → YieldsGj (.nop ctx) s (g.stepped x id))
    ∧ (bits w 63 58 = 8 → bits w 57 32 = 0 → YieldsGj (.setlc ctx) s (g.stepped x (fun q => { q with lc := bits w 31 0 })))
    ∧ (bits w 63 58 = 7 → bits w 54 12 = 0 →
      let go := fun (b : Bool) (f : SeqCtx → SeqCtx) => YieldsGj (.br ctx) s
        { g.stepped x f with c := g.c.wr GJ.SQ_CTX_STATE_PC (if b then bits w 11 0 else pc + 1) x }
      (bits w 57 55 = 0 → go true id)
      ∧ (∀ (t : Nat) (r : RelTaken), q.last = some t → q.rels.find? (fun r => r.step == t) = some r →
          (bits w 57 55 = 1 → go r.p id) ∧ (bits w 57 55 = 2 → go (!r.p) id))
      ∧ (∀ t : Nat, q.last = some t → q.rels = [] → bits w 57 55 = 1 ∨ bits w 57 55 = 2 → YieldsGj (.br ctx) s
          { g.stepped x (fun q => { q with br := some (bits w 57 55 == 1, bits w 11 0) }) with
            c := (g.c.wr GJ.SQ_CTX_STATE_PC (pc + 1) x).wr GJ.SQ_CTX_STATE_STATE 4 x })
      ∧ (bits w 57 55 = 3 → go q.try_ id) ∧ (bits w 57 55 = 4 → go (!q.try_) id)
      ∧ (bits w 57 55 = 5 → go (decide (2 ≤ q.lc)) (fun q => { q with lc := q.lc - 1 })))
    ∧ (bits w 63 58 = 1 → bits w 23 0 = 0 → bits w 51 50 ≠ 3 → q.begun = false ∨ q.arrived = true →
      let begin_ := fun (st : Nat) => YieldsGj (.step ctx) s
        { g.stepped x (fun q => { q with
            nxt := (q.nxt + 1) % 2 ^ 48, begun := true, arrived := false, cls := bits w 51 50, nospec := bit w 49, dl := bits w 48 24,
            mask := g.c.rd GJ.SQ_LMASK_GROUPS (bits w 57 52), await_ := true, stepPc := pc, workAt := g.c.now, dlDone := false }) with
          c := ((g.c.wr GJ.SQ_CTX_STATE_STEP q.nxt x).wr GJ.SQ_CTX_STATE_PC (pc + 1) x).wr GJ.SQ_CTX_STATE_STATE st x }
      q.nxt < 2 ^ 48 →
      (q.first = true → begin_ 3) ∧ (q.first = false → q.rels.any (fun r => r.step + 1 == q.nxt) = true → begin_ 3)
      ∧ (q.first = false → q.rels = [] → q.unrel = [] → begin_ 4))

/-- R45, R166, R167, R171, R181, R251, R252: SLACK writes its range of GJ_RGN_SLACK; SOP acts on its object, and a try sets TRY; SWAIT goes on where its condition
holds and takes the context's slot where it does not; SIGOUT queues its SIG on the barrier port; MARK raises SQ_MARK. -/
def Obligations.SequencerOperates : Prop :=
  ∀ (s : State) (ctx : BitVec 8) (q : SeqCtx) (w : Word), s.gj.Calm →
    let g := s.gj
    let x := ctx.toNat
    let slack := fun c : Chip .garja => (List.range 64).foldl (fun c n =>
      if bits w 57 52 ≤ n ∧ n ≤ bits w 51 46 then c.wr GJ.RGN_SLACK_SLACK (bits w 23 0) n else c) c
    g.Issues x q w →
    (bits w 63 58 = 2 → bits w 45 24 = 0 → YieldsGj (.slack ctx) s
      { g.stepped x id with c := slack (g.stepped x id).c })
    ∧ (bits w 63 58 = 9 → bits w 57 32 = 0 → YieldsGj (.mark ctx) s (g.stepped x id))
    ∧ (bits w 63 58 = 5 → bits w 41 32 = 0 → isSignal (bits w 57 50) = true → q.sigs = [] →
      let p := g.c.rd GJ.BDOM_PORT x
      let sig := [sigFlit (bits w 57 50) (bits w 31 0) (g.c.get (GJ.SQ_ADDR + 8 * bits w 49 42))]
      ((g.c.link p).txq.sig.length < 16 → YieldsGj (.sigout ctx) s
        { g.stepped x id with c := (g.stepped x id).c.queued p .sig sig (some x) })
      ∧ (16 ≤ (g.c.link p).txq.sig.length → YieldsGj (.sigout ctx) s
        { g with seqs := upd g.seqs x (fun q => { q with ipc := g.c.rd GJ.SQ_CTX_STATE_PC x }) }))
    ∧ (let obj := bits w 49 33
      let ph := g.physOf x obj
      let v := bits (g.obj ph) 31 0
      let n := bits w 31 0
      let act := fun (f : SeqCtx → SeqCtx) (v' : Nat) => YieldsGj (.sop ctx) s
        { g.stepped x f with so := { g.so with objs := sparseSet g.so.objs ph (setBits (g.obj ph) 31 0 v'),
                                               passes := if v = v' then [] else [{ phys := ph }] } }
      bits w 63 58 = 3 → bit w 32 = false → g.EngineReady x obj → g.flagBuild = false →
      (bits w 57 50 = 1 → v + n < 2 ^ 32 → act id (v + n)) ∧ (bits w 57 50 = 2 → n ≤ v → act id (v - n)) ∧ (bits w 57 50 = 3 → act id n)
      ∧ (bits w 57 50 = 4 → n ≤ v → act (fun q => { q with try_ := true }) (v - n))
      ∧ (bits w 57 50 = 4 → v < n → YieldsGj (.sop ctx) s (g.stepped x (fun q => { q with try_ := false }))))
    ∧ (let obj := bits w 48 32
      let ph := g.physOf x obj
      let v := bits (g.obj ph) 31 0
      let n := bits w 31 0
      let cond := bits w 57 56
      let to_ := bits w 55 52
      let ns := g.c.rd GJ.SO_TMO_NS to_
      let wt : Waiter := { slot := 4096 + x, ctx := x, obj := obj, phys := ph, cond := cond, n := n, to_ := to_, stamp := g.c.stamp,
                           deadline := if to_ = 0 ∨ ns = 0 then none else some ((g.c.gtInt + ns) % 2 ^ 64) }
      bits w 63 58 = 4 → bits w 51 49 = 0 → g.EngineReady x obj → g.flagBuild = false → (∀ y ∈ g.so.waiters, y.slot ≠ 4096 + x) →
      (cond = 0 → n ≤ v → YieldsGj (.swait ctx) s (g.stepped x id)) ∧ (cond = 2 → n = v → YieldsGj (.swait ctx) s (g.stepped x id))
      ∧ (((cond = 0 ∨ cond = 1) ∧ v < n) ∨ (cond = 2 ∧ n ≠ v) → YieldsGj (.swait ctx) s
        { g.stepped x (fun q => { q with waiting := true }) with
          c := (g.stepped x id).c.wr GJ.SQ_CTX_STATE_STATE 2 x,
          so := { g.so with waiters := insertWaiter wt g.so.waiters } }))

/-- R213, R251, R253, R261, R262, R361: ARRIVE closes the step, takes its snapshot, and either builds the ARRIVE, which the resend store keeps, or starts the reads; HALT
stops; an instruction that R251 does not define, and a PC outside the code range, are faults. R37, R257 to R262: at T, with every condition met, the launch drives the step's groups; a HARD step more than 1 ns late does not launch; a deadline passed before
the ARRIVE is a local miss; a RELEASE that does not come is a fault. -/
def Obligations.SequencerArrivesStopsAndLaunches : Prop :=
  (∀ (s : State) (ctx : BitVec 8) (q : SeqCtx) (w : Word), s.gj.Calm →
     let g := s.gj
     let x := ctx.toNat
     let t := g.c.rd GJ.SQ_CTX_STATE_STEP x
     g.Issues x q w → g.Bare x →
     (bits w 63 58 = 6 → bits w 22 0 = 0 → q.begun = true → q.arrived = false → q.rels.any (fun r => r.step == t) = false →
       q.unrel.any (fun e => e.1 == t) = false → (∀ k, k < 4 → g.c.rd GJ.STG_S_W0_STATE k ≠ 3) →
       g.lane.store.any (fun e => e.ctx == x && e.step == t) = false →
       let i := t % 64
       let age := match g.telemAt with | some a => satU 32 ((g.c.now - a) / 1000) | none => 2 ^ 32 - 1
       let c := ((g.c.wr GJ.HLT_SNAP_W0_CTX x i).wr GJ.HLT_SNAP_W0_VALID 1 i).wr GJ.HLT_SNAP_W0_STEP t i
       let c := ((c.wr GJ.HLT_SNAP_W1_TJ (g.c.rd GJ.HLT_TELEM_TJ) i).wr GJ.HLT_SNAP_W1_VDD (g.c.rd GJ.HLT_TELEM_VDD) i).wr GJ.HLT_SNAP_W1_STRETCH 0 i
       let c := ((c.wr GJ.HLT_SNAP_W2_REMAPS (g.c.rd GJ.HLT_STATUS_REMAPS) i).wr GJ.HLT_SNAP_W2_DLREG 0 i).wr GJ.HLT_SNAP_W2_TELEM_AGE age i
       let c := c.wr GJ.SQ_CTX_STATE_PC (g.c.rd GJ.SQ_CTX_STATE_PC x + 1) x
       let done := fun (q : SeqCtx) => { q with arrived := true, inStep := false, last := some t, workAt := g.c.now, unrel := q.unrel ++ [(t, g.c.now)] }
       (bits w 47 44 = 0 → bit w 43 = true →
         let pkt := arrivePkt x (bits w 57 48) t 0 g.lane.digest []
         YieldsGj (.arriveInstruction ctx) s
           { g.stepped x (fun q => { done q with sent := some (max t (q.sent.getD 0)) }) with
             c := c.queued (g.c.rd GJ.BDOM_PORT x) .bar pkt, lane := { g.lane with store := insertStore { ctx := x, step := t, pkt := pkt } g.lane.store } })
       ∧ (¬ (bits w 47 44 = 0 ∧ bit w 43 = true) → YieldsGj (.arriveInstruction ctx) s
           { g.stepped x done with
             c := c,
             lane := { g.lane with reads := g.lane.reads ++ [({
               ctx := x, step := t, bar := bits w 57 48, fmt := bits w 47 44,
               addr := (bits (g.c.get (GJ.SQ_CTX_ABASE + 0x20 * x)) 63 6 * 64 + 64 * bits w 42 23) % 2 ^ 64,
               port := if bit w 43 then some g.lane.digest else none } : LaneRead)] } }))
     ∧ (bits w 63 58 = 10 → bits w 57 0 = 0 → YieldsGj (.halt ctx) s
         { g.stepped x id with c := (g.stepped x id).c.wr GJ.SQ_CTX_STATE_STATE 7 x })
     ∧ (∀ i : Instr, i = .nop ctx ∨ i = .step ctx ∨ i = .halt ctx → bits w 63 58 = 0 ∨ 12 ≤ bits w 63 58 →
         YieldsGj i s ({ g with seqs := upd g.seqs x (fun q => { q with ipc := g.c.rd GJ.SQ_CTX_STATE_PC x }) }.faulted x)))
  ∧ (∀ (s : State) (ctx : BitVec 8) (q : SeqCtx) (t : Nat),
       let g := s.gj
       let x := ctx.toNat
       let step := g.c.rd GJ.SQ_CTX_STATE_STEP x
       (g.Launching x q t → g.mayLaunch x → g.launch = none → (∀ n, n < 64 → (g.c.rd GJ.RGN_EN_EN).testBit n = false) →
         0 ≤ sdiff 64 g.c.gtInt t → sdiff 64 g.c.gtInt t ≤ 1 → YieldsGj (.launch ctx) s
         { g with c := g.c.wr GJ.SQ_CTX_STATE_STATE 1 x, launch := some (w64 q.mask, g.c.gtInt)
                  seqs := upd g.seqs x (fun q => { q with await_ := false, first := false, inStep := true, launchGt := g.c.gtInt, dlDone := false }) })
       ∧ (g.Launching x q t → q.cls = 2 → 1 < sdiff 64 g.c.gtInt t →
         YieldsGj (.launchMissed ctx) s ({ g with c := g.c.inc GJ.SQ_CNT_LATE }.faulted x))
       ∧ (g.Calm → g.Bare x → g.seqs[x]? = some q → g.c.rd GJ.SQ_CTX_STATE_STATE x = 1 → q.inStep = true → q.dl ≠ 0 → q.dlDone = false →
         0 ≤ sdiff 64 g.c.gtInt (q.launchGt + q.dl) →
         (q.cls = 0 → YieldsGj (.deadlineStep ctx) s { g with seqs := upd g.seqs x (fun q => { q with dlDone := true }) })
         ∧ (q.cls = 1 → YieldsGj (.deadlineStep ctx) s { g with seqs := upd g.seqs x (fun q => { q with dlDone := true, firm := some (max step (q.firm.getD 0)) }) })
         ∧ (q.cls = 2 → YieldsGj (.deadlineStep ctx) s ({ g with seqs := upd g.seqs x (fun q => { q with dlDone := true }) }.faulted x)))
       ∧ (∀ e ∈ q.unrel, g.CalmOff x → g.Bare x → g.seqs[x]? = some q → g.ctxState x = 1 → e.2 + g.c.rd GJ.SQ_CFG_REL_WAIT * 1000 ≤ g.c.now →
         (∀ n ∈ [0, 5, 6], g.c.rd GJ.SQ_CTX_STATE_STATE x ≠ n) → YieldsGj (.relwait ctx) s (g.faulted x)))

/-- R42 to R48, R270: a tick and a stretch of a region; and the restore after a squash, which puts back the words that speculative operations
changed. -/
def Obligations.RegionsTickAndSquashesRestore : Prop :=
  (∀ (s : State) (n : BitVec 6) (stretch : Bool), s.gj.Calm → s.gj.c.clocked = true →
    let g := s.gj
    let i := n.toNat
    let c := if stretch then g.c.inc GJ.RGN_STR_TICKS i else g.c
    let gt := (g.c.gtInt + 2 ^ 64 - 2) % 2 ^ 64
    (g.c.flag GJ.RGN_LOST_OPEN i = false → YieldsGj (.regionTick n stretch) s { g with c := c })
    ∧ (∀ r : Region, g.regions[i]? = some r → g.c.flag GJ.RGN_LOST_OPEN i = true → (g.c.rd GJ.RGN_EN_EN).testBit i = true →
      let st := r.stretched + b2n stretch
      (r.t0 = none → YieldsGj (.regionTick n stretch) s
        { g with c := c, regions := upd g.regions i (fun r => { r with t0 := some gt, k := 0, stretched := st }) })
      ∧ (∀ t0 : Nat, r.t0 = some t0 →
        let lost := divZero (((gt : Int) - (t0 : Int)) * 65536 - (((r.k + 1) * 16 * r.pnom : Nat) : Int)) 65536
        let to_ := fun (c : Chip .garja) => YieldsGj (.regionTick n stretch) s
          { g with c := c, regions := upd g.regions i (fun r => { r with k := r.k + 1, stretched := st }) }
        (lost ≤ (g.c.rd GJ.RGN_SLACK_SLACK i : Nat) → to_ (c.wrS GJ.RGN_LOST_LOST lost i))
        ∧ ((g.c.rd GJ.RGN_SLACK_SLACK i : Nat) < lost → g.c.flag GJ.RGN_LOST_FAULT i = false → (g.seq r.ctx).cls = 0 →
            to_ ((c.wrS GJ.RGN_LOST_LOST lost i).wr GJ.RGN_LOST_FAULT 1 i)))))
  ∧ (∀ (s : State) (n : BitVec 6), s.gj.c.clocked = true →
    let c := s.gj.c.inc GJ.RGN_STR_EPISODES n.toNat
    Yields .garja (.rgnStretchRise n) s (if s.gj.c.flag GJ.TB_STATUS_CLKFIX_ACT then c.inc GJ.RGN_CTL_VIOL_CNT else c))
  ∧ (∀ (s : State) (ctx : BitVec 8) (z : Squash) (p u w : Nat) (e : UndoEntry),
    let g := s.gj
    g.fox.squash = some z → z.ctx = ctx.toNat → z.at_ + 3 + g.c.rd GJ.SQ_CFG_SQUASH_NS ≤ g.c.now → g.so.intake = [] →
    g.fox.undo = [{ phys := p, base := true, word := w }, e] → e.phys = p → e.base = false → e.step = some u →
    YieldsGj (.squashRestore ctx) s { g with
      so := { g.so with objs := sparseSet g.so.objs p (w64 w) }
      fox := { g.fox with undo := [], squash := none, hold := g.fox.hold.filter (fun h => !z.steps.contains h.1) }
      c := g.c.inc GJ.SQ_CNT_SQUASH })

/-- R135, R136, R211 to R213, R228, R249, R269, R432: programme memory; the latched digest; an ARRIVE built when its reads end; a RELEASE matched, or counted where nothing
matches it; its record, after whose write the sequencer has taken it. -/
def Obligations.LaneCarriesSteps : Prop :=
  (∀ (s : State) (data : Word) (write : Bool), s.running .garja →
    let g := s.gj
    let a := g.c.rd GJ.SQ_PIDX_ADDR
    let on := fun (c : Chip .garja) => c.wr GJ.SQ_PIDX_ADDR ((a + 1) % 4096)
    let used := ∃ x, x < 256 ∧ g.ctxState x ≠ 0 ∧ g.c.rd GJ.SQ_CTX_CFG_CODE_LO x ≤ a ∧ a ≤ g.c.rd GJ.SQ_CTX_CFG_CODE_HI x
    (write = false → YieldsGj (.programDataAccess write data) s { g with c := on g.c })
    ∧ (write = true → ¬ used → YieldsGj (.programDataAccess write data) s { g with c := on g.c, prog := sparseSet g.prog a data })
    ∧ (write = true → used → YieldsGj (.programDataAccess write data) s { g with c := on (g.c.inc GJ.SQ_STATUS_WR_IGN) }))
  ∧ (∀ (s : State) (d : Word), YieldsGj (.digestValidLatch d) s { s.gj with lane := { s.gj.lane with digest := d } })
  ∧ (∀ (s : State) (ctx : BitVec 8) (r : LaneRead) (rest : List LaneRead), s.gj.Calm → s.gj.c.applying = false → s.gj.lane.reads = r :: rest → r.ctx = ctx.toNat →
    let g := s.gj
    let x := ctx.toNat
    let digest := match r.port with | some d => d | none => memReadWord s.dieMem (if r.fmt = 0 then r.addr else r.addr + 64)
    let pkt := arrivePkt x r.bar r.step r.fmt digest (memReadBytes s.dieMem r.addr 64)
    YieldsGj (.arriveReadDone ctx true) s { g with
      lane := { g.lane with reads := rest, store := insertStore { ctx := x, step := r.step, pkt := pkt } g.lane.store }
      seqs := upd g.seqs x (fun q => { q with sent := some (max r.step (q.sent.getD 0)) })
      c := g.c.queued (g.c.rd GJ.BDOM_PORT x) .bar pkt }
    ∧ YieldsGj (.arriveReadDone ctx false) s { g with lane := { g.lane with reads := rest }, c := g.c.inc GJ.CL_STATUS_IO_FAULT })
  ∧ (∀ (s : State) (p : BitVec 7) (f : Flit) (fs : Pkt) (rest : List Pkt), p.toNat < 2 → s.gj.c.applying = false →
    (s.gj.c.link p.toNat).rx.rel = (f :: fs) :: rest →
    let g := s.gj
    let x := bits f 105 98
    let step := bits f 87 40
    let c := g.c.taken p.toNat .rel (f :: fs)
    g.ctxState x ≠ 2 →
    (g.c.rd GJ.BDOM_PORT x ≠ p.toNat → YieldsGj (.release p (f :: fs)) s { g with c := c.inc GJ.SL_DROP_DIR_DROP p.toNat })
    ∧ (g.c.rd GJ.BDOM_PORT x = p.toNat →
      (g.ctxState x ≠ 1 ∨ (g.lane.store = [] ∧ bits f 39 32 = 0) → YieldsGj (.release p (f :: fs)) s { g with c := c.inc GJ.CL_STATUS_UNMATCHED })
      ∧ (g.ctxState x = 1 → g.lane.store.any (fun e => e.ctx == x && e.step == step) = true → fs ≠ [] →
        YieldsGj (.release p (f :: fs)) s { g with
          c := c
          lane := { g.lane with
            store := g.lane.store.filter (fun e => !(e.ctx == x && e.step == step))
            records := g.lane.records ++ [({
              ctx := x, step := step, status := bits f 39 32, p := bit f 31, tl := bits (fs.headD 0) 127 64
              addr := bits (g.c.get (GJ.CL_CTX + 8 * x)) 63 7 * 128 + 128 * (step % 4)
              bytes := ((bytesOfFlits ((f :: fs).take 2) ++ bytesOfFlits (if bits f 123 118 = 1 then [] else (fs.drop 1).take 4)
                ++ List.replicate 96 0).take 96) ++ bytesBE 8 g.c.gtInt ++ List.replicate 24 0 } : RelRecord)] } })))
  ∧ (∀ (s : State) (ctx : BitVec 8) (r : RelRecord) (rest : List RelRecord) (q : SeqCtx) (n : Nat), s.gj.c.applying = false →
    let g := s.gj
    let x := ctx.toNat
    g.lane.records = r :: rest → r.ctx = x → g.CalmOff x → g.Bare x → g.seqs[x]? = some q →
    (r.failed = false → YieldsGj (.releaseRecordAck ctx false) s { g with lane := { g.lane with records := { r with failed := true } :: rest } })
    ∧ (r.status = 0 → g.ctxState x = 1 → q.unrel = [(r.step, n)] → q.rels.any (fun y => y.step == r.step) = false → q.br = none → q.ended = none →
      q.waiting = false → g.fox.spec = [] → g.c.rd GJ.SO_RLN_CTX_PERIOD x = 0 → g.c.flag GJ.TB_STATUS_CLKFIX_ACT = false →
      let q' := { q with unrel := [], rels := ({ step := r.step, p := r.p, tl := r.tl } :: q.rels).take 8, relAt := g.c.now }
      let h := { g with lane := { g.lane with records := rest }, seqs := upd g.seqs x (fun _ => q') }
      (g.c.rd GJ.SQ_CTX_STATE_STATE x = 1 → q.await_ = false → ∃ t, exec (.releaseRecordAck ctx true) s = .next t
        ∧ t = { s with gj := h, dieMem := memWriteBytes s.dieMem r.addr r.bytes })
      ∧ (g.c.rd GJ.SQ_CTX_STATE_STATE x = 4 → q.await_ = true → q.first = false → g.c.rd GJ.SQ_CTX_STATE_STEP x = r.step + 1 →
        ∃ t, exec (.releaseRecordAck ctx true) s = .next t
          ∧ t = { s with gj := { h with c := g.c.wr GJ.SQ_CTX_STATE_STATE 3 x }, dieMem := memWriteBytes s.dieMem r.addr r.bytes })))

/-! ### Barriers, signals and events in the tree (04, 10, 11, 16) -/

/-- R25, R210, R211, R214, R218 to R220: an Elzel takes an ARRIVE of a member die, writes the job into it, and accounts it in the sett of its instance, taking one if
there is none; what it does not take is dropped and counted. R211, R219, R225, R244, R245: an Elzel above takes the partial of a subtree whose COUNT is that of its members; an item that finds no sett free is forwarded with
its ORIGIN where bypassing is on; a stream of limbs waits for its last segment, and one that stands alone out of order is a decode fault. -/
def Obligations.SettsTakeArrivesAndPartials : Prop :=
  (∀ (s : State) (p : BitVec 7) (pkt : Pkt) (j d : Nat), s.ez.Combining →
     let e := s.ez
     let q := p.toNat
     let f := pkt.headD 0
     let step := bits f 87 40
     q < 64 → e.Receives q .bar 2 pkt → e.c.farElzel q = false →
     let c := e.c.taken q .bar pkt
     let drop := fun (c : Chip .elzel) => YieldsEz (.arrive p pkt) s { e with c := c }
     (e.c.jobs = [] → drop (c.inc EZ.SL_DROP_DIR_DROP q))
     ∧ (e.c.jobs = [j] → e.c.rd EZ.CMB_JOB_W0_CTX j ≠ bits f 105 98 ∨ e.c.dies j step q ≠ 1 → drop (c.inc EZ.SL_DROP_DIR_DROP q))
     ∧ (e.c.jobs = [j] → e.c.jobValid j = true → e.c.rd EZ.CMB_JOB_W0_CTX j = bits f 105 98 → e.c.dies j step q = 1 →
       (step < e.c.relNext j → drop (c.inc EZ.CMB_CNT0_LATE_ITEM))
       ∧ (e.c.relNext j + 4 ≤ step → drop ((c.inc EZ.CMB_CNT0_AHEAD).inc EZ.CMB_CNT1_FAULT))
       ∧ (e.c.relNext j ≤ step → step < e.c.relNext j + 4 → e.c.rd EZ.CMB_JOB_W1_BAR_CNT j ≤ bits f 97 88 → drop (c.inc EZ.CMB_CNT1_FAULT)))
     ∧ (e.c.jobs = [j] → e.ItemOf j d f → e.c.rd EZ.CMB_JOB_W0_CTX j = bits f 105 98 → e.c.dies j step q = 1 → bit f 39 = false →
       pkt.length = (if bits f 32 29 = 0 then 2 else 6) →
       (∀ i, e.instOf j step = some i → i.st = .open_ → i.job = j → i.step = step → i.port q = none →
         (bits f 28 10 = 1 → YieldsEz (.arrive p pkt) s (e.tookItem e.cmb.insts i d q pkt))
         ∧ (bits f 28 10 ≠ 1 → drop (c.inc EZ.CMB_CNT1_FAULT)))
       ∧ (∀ i a, e.instOf j step = some i → i.st = .open_ → i.port q = some a → a.byp = false → drop (c.inc EZ.CMB_CNT0_DUP))
       ∧ (e.instOf j step = none → e.cmb.recs = [] → e.cmb.insts = [] → bits f 28 10 = 1 →
         e.c.rd EZ.CMB_JOB_W0_RESERVE j ≤ 16384 →
         let i : Inst := { job := j, step := step, bar := bits f 97 88, ctx := bits f 105 98, fmt := bits f 32 29,
                           setts := if bits f 32 29 = 4 then 4 else 1 }
         YieldsEz (.arrive p pkt) s (e.tookItem [i] i d q pkt))))
  ∧ (∀ (s : State) (p : BitVec 7) (pkt : Pkt) (j d : Nat), s.ez.Combining →
       let e := s.ez
       let q := p.toNat
       let f := pkt.headD 0
       let step := bits f 87 40
       q < 64 → e.Receives q .bar 3 pkt → bits f 117 106 = j → e.ItemOf j d f → e.c.dies j step q ≠ 0 →
       let c := e.c.taken q .bar pkt
       (bits f 32 29 = 0 ∨ e.c.rd EZ.CMB_BDESC_W0_OP d ≠ 0 → bit f 39 = false → pkt.length = (if bits f 32 29 = 0 then 2 else 6) →
         (∀ i, e.instOf j step = some i → i.st = .open_ → i.job = j → i.step = step → i.port q = none →
           (bits f 28 10 = e.c.dies j step q → YieldsEz (.arriveX p pkt) s (e.tookItem e.cmb.insts i d q pkt))
           ∧ (bits f 28 10 ≠ e.c.dies j step q → YieldsEz (.arriveX p pkt) s { e with c := c.inc EZ.CMB_CNT1_FAULT }))
         ∧ (e.instOf j step = none → e.cmb.recs = [] → e.room j = 0 → e.c.isApex j = false → e.c.flag EZ.CMB_CTL_BYP_EN = true →
           let up := setFlit (setFlit f 39 39 1) 38 33 q :: pkt.tail
           YieldsEz (.arriveX p pkt) s { e with
             c := (c.inc EZ.CMB_CNT0_BYPASS).queued e.c.uplink .bar up
             cmb := { e.cmb with recs := [(j, step)], kept := e.cmb.kept ++ [{ job := j, step := step, pkt := up }] } }))
       ∧ (bits f 32 29 ≠ 0 → e.c.rd EZ.CMB_BDESC_W0_OP d = 0 → 3 ≤ pkt.length →
         (bits (pkt.getD 2 0) 126 120 = 0 → bit (pkt.getD 2 0) 127 = false → bits f 123 118 = 63 →
           YieldsEz (.arriveX p pkt) s { e with c := c.onLink q (fun l => { l with chain := [pkt], chainDrop := false }) })
         ∧ (bits (pkt.getD 2 0) 126 120 ≠ 0 → YieldsEz (.arriveX p pkt) s { e with c := (c.inc EZ.RED_CNT_DECODE).inc EZ.CMB_CNT1_FAULT })))

/-- R210, R215, R218, R227, R256, R276: the apex releases the lowest step once it is complete, with P, the status and T_L; an instance still open at its deadline is
released with TIMEOUT once the step before is; a RELEASE from above goes to every member port and frees what the step held. -/
def Obligations.ApexReleases : Prop :=
  (∀ (s : State) (job : BitVec 12) (i : Inst) (d : Nat), s.ez.Combining →
    let e := s.ez
    let j := job.toNat
    let step := e.c.relNext j
    e.c.jobValid j = true → e.c.isApex j = true → e.instOf j step = some i → i.job = j → i.step = step → i.st = .complete →
    i.bar < e.c.rd EZ.CMB_JOB_W1_BAR_CNT j → d = e.c.rd EZ.CMB_JOB_W1_BAR_BASE j + i.bar → d < 16384 → e.c.flag EZ.CMB_BDESC_W0_VALID d = true →
    i.fmt = 0 → i.lanes = none → e.c.rd EZ.CMB_BDESC_W0_OP d = 0 → e.c.rd EZ.CMB_BDESC_W0_CMP d = 0 → e.c.relThru j ≤ step →
    (∀ q, q < 64 → e.c.portHeld q = false) →
    let dig := e.c.rd EZ.CMB_BDESC_W0_DIG d
    let digest := if dig = 0 then 0 else i.digest
    let tl := max ((i.done + e.c.rd EZ.LNC_CTL_BCAST + e.c.rd EZ.LNC_CTL_MARGIN) % 2 ^ 64)
      ((e.c.rd EZ.LNC_JOB_W1_ANCHOR j + (step + 1) * e.c.rd EZ.LNC_JOB_W0_PERIOD j) % 2 ^ 64)
    (dig ≠ 2 ∨ i.mis = false →
      let h := e.passed e.c j step (releasePkt j i.ctx i.bar 0 step 0 true false i.count tl digest [])
      YieldsEz (.apexRelease job) s { h with cmb := { h.cmb with tls := (j, step + 1, tl) :: h.cmb.tls } })
    ∧ (dig = 2 → i.mis = true → e.c.isLeaf = false →
      YieldsEz (.apexRelease job) s (e.passed e.c j step (releasePkt j i.ctx i.bar 0 step 6 true true i.count 0 digest []))))
  ∧ (∀ (s : State) (job : BitVec 12) (i : Inst) (d tl : Nat), s.ez.Combining →
    let e := s.ez
    let j := job.toNat
    e.c.jobValid j = true → e.c.isApex j = true → e.cmb.insts = [i] → i.job = j → i.st = .open_ →
    i.bar < e.c.rd EZ.CMB_JOB_W1_BAR_CNT j → d = e.c.rd EZ.CMB_JOB_W1_BAR_BASE j + i.bar → d < 16384 → e.c.flag EZ.CMB_BDESC_W0_VALID d = true →
    e.cmb.tls.find? (fun t => t.1 == j && t.2.1 == i.step) = some (j, i.step, tl) →
    tl + e.c.rd EZ.CMB_BDESC_W0_DEADLINE d ≤ e.c.gtInt → (∀ q, q < 64 → e.c.portHeld q = false) →
    let c := e.c.inc EZ.CMB_CNT1_DEADLINE
    (i.step = e.c.relNext j → e.c.relThru j ≤ i.step →
      YieldsEz (.barDeadline job) s (e.passed c j i.step (releasePkt j i.ctx i.bar i.fmt i.step 7 false false i.count 0 0 [])))
    ∧ (i.step ≠ e.c.relNext j → YieldsEz (.barDeadline job) s { e with c := c, cmb := { e.cmb with insts := [{ i with st := .timedOut }] } }))
  ∧ (∀ (s : State) (p : BitVec 7) (pkt : Pkt), s.ez.Combining →
    let e := s.ez
    let q := p.toNat
    let f := pkt.headD 0
    let j := bits f 117 106
    let step := bits f 87 40
    64 ≤ q → q < 68 → e.Receives q .rel 4 pkt → (∀ q, q < 64 → e.c.portHeld q = false) →
    let c := e.c.taken q .rel pkt
    (e.c.jobValid j = true → bit f 30 = false → e.c.relNext j ≤ step → YieldsEz (.releaseForward p pkt) s (e.passed c j step pkt))
    ∧ (e.c.jobValid j = false → YieldsEz (.releaseForward p pkt) s { e with c := c }))

/-- R80, R333: the entry leaf writes the job into a SIG and delivers it on the member port that the chip is bound to, or sends it up; a SIG for no one is dropped
and counted. An EVENT packet is taken and routed, and one of the wrong length is dropped. -/
def Obligations.SignalsAndEventsTravel : Prop :=
  (∀ (s : State) (p : BitVec 7) (f : Flit), s.ez.c.clocked = true → s.ez.Calm →
    let e := s.ez
    let q := p.toNat
    let chip := bits f 42 25
    let c := e.c.taken q .sig [f]
    let drop := YieldsEz (.sigRoute p f) s { e with c := c.inc EZ.SL_DROP_DIR_DROP q }
    e.Receives q .sig 5 [f] → e.c.isLeaf = true →
    (∀ j, q < 64 → e.c.farElzel q = false → e.c.jobs = [j] → e.c.jobValid j = true →
      let mine := setFlit f 109 98 j
      (e.c.rd EZ.CMB_JOB_W0_CTX j = bits f 24 17 → e.c.dies j (e.c.relNext j) q ≠ 0 →
        (∀ r, e.c.portOfChip chip = some r →
          (e.c.dies j (e.c.relNext j) r ≠ 0 → e.c.portHeld r = false → YieldsEz (.sigRoute p f) s { e with c := c.queued r .sig [mine] })
          ∧ (e.c.dies j (e.c.relNext j) r = 0 → drop))
        ∧ (e.c.portOfChip chip = none → e.c.isRoot = false → YieldsEz (.sigRoute p f) s { e with c := c.queued e.c.uplink .sig [mine] })
        ∧ (e.c.portOfChip chip = none → e.c.isRoot = true → drop))
      ∧ (e.c.rd EZ.CMB_JOB_W0_CTX j ≠ bits f 24 17 ∨ e.c.dies j (e.c.relNext j) q = 0 → drop))
    ∧ (∀ r, q = e.c.uplink → e.c.portOfChip chip = some r → e.c.jobValid (bits f 109 98) = true →
      e.c.dies (bits f 109 98) (e.c.relNext (bits f 109 98)) r ≠ 0 → e.c.portHeld r = false →
      YieldsEz (.sigRoute p f) s { e with c := c.queued r .sig [f] }))
  ∧ (∀ (s : State) (p : BitVec 7) (pkt : Pkt), s.ez.c.clocked = true → s.ez.Calm →
    let e := s.ez
    let q := p.toNat
    q < 64 → e.Receives q .evt 7 pkt → e.c.isRootA = false →
    (e.c.farElzel q = true → bits (pkt.headD 0) 123 118 = 4 → pkt.length = 5 → YieldsEz (.event p pkt) s { e with c := e.c.taken q .evt pkt })
    ∧ (bits (pkt.headD 0) 123 118 ≠ 4 → YieldsEz (.event p pkt) s { e with c := (e.c.taken q .evt pkt).inc EZ.SL_DROP_BADTYPE q }))

/-- R219, R232, R233, R238, R239: contributions merge in any order and any grouping with the same bits. R235 to R238: the sum of integers is exact until the apex rounds it once, to the nearest value of the format: out of range it is clamped. -/
def Obligations.ReductionsIgnoreOrderAndClampOnce : Prop :=
  (∀ (fmt op : Nat) (x y z : List (BitVec 8)), redSupported fmt op = true → fmt ≠ 0 → x.length = 64 → y.length = 64 → z.length = 64 →
     let v := fun (b : List (BitVec 8)) => Lanes.ofPayload fmt op b
     (v x).merge fmt op (v y) = (v y).merge fmt op (v x)
     ∧ ((v x).merge fmt op (v y)).merge fmt op (v z) = (v x).merge fmt op ((v y).merge fmt op (v z)))
  ∧ (∀ (fmt : Nat) (x y : List (BitVec 8)) (k : Nat), fmt = 5 ∨ fmt = 6 ∨ fmt = 7 → x.length = 64 → y.length = 64 → k < 64 / laneBytes fmt →
       let w := 8 * laneBytes fmt
       let a := fun (b : List (BitVec 8)) => (Lanes.ofPayload fmt RO.SUM b).acc.getD k 0
       let r := (((Lanes.ofPayload fmt RO.SUM x).merge fmt RO.SUM (Lanes.ofPayload fmt RO.SUM y)).finish fmt RO.SUM).getD k 0
       (-(2 ^ (w - 1) : Int) ≤ a x + a y → a x + a y < 2 ^ (w - 1) → sx w r = a x + a y)
       ∧ (a x + a y < -(2 ^ (w - 1) : Int) → sx w r = -(2 ^ (w - 1) : Int)) ∧ ((2 ^ (w - 1) : Int) ≤ a x + a y → sx w r = 2 ^ (w - 1) - 1))

/-! ### Staged changes (13) -/

/-- R277, R279, R281, R347, R354: STG_OPEN takes the lowest FREE set; STG_ADD adds entries to an OPEN one; STG_COMMIT commits a PREPARED or FENCED one; STG_ABORT frees
one that is not COMMITTED; STG_QUERY tells the state of a change; a change that no set holds is refused. -/
def Obligations.StageCommandsAct : Prop :=
  ∀ (s : State) (u : Part) (o : Order) (change : BitVec 32) (k : Nat), s.Takes u o →
    let c := s.chip u
    let ch := change.toNat
    let st := c.rd (PT.STG_S_W0_STATE u) k
    let by_ := match u, o.src with | .garja, .queue q => q.toNat | _, _ => 8
    let mine := match u with | .garja => 1 | .elzel => 2
    (∀ (kind : BitVec 2) (scope : BitVec 12) (sEff : BitVec 48), c.holdsNot ch →
      let open_ := fun c : Chip u => { (c.wr (PT.STG_S_W0_CHANGE u) ch k).wr (PT.STG_S_W2_S_EFF u) sEff.toNat k with stage := upd c.stage k (fun _ => { by_ := by_ }) }
      let ok : Ans := { st := 0, body := [w64 k] }
      let go := fun (c : Chip u) (a : Ans) => Answers u (.stgOpen u o change kind scope sEff) s o 0x20 c a
      (k < c.nSets → st = 0 → (∀ j, j < k → c.rd (PT.STG_S_W0_STATE u) j ≠ 0) →
        (kind = 0 → go (open_ (c.wr (PT.STG_S_W0_STATE u) 1 k)) ok)
        ∧ (kind.toNat = mine → scope.toNat < 256 →
          go (open_ (((c.wr (PT.STG_S_W0_STATE u) 1 k).wr (PT.STG_S_W0_SCOPED u) 1 k).wr (PT.STG_S_W0_SCOPE u) scope.toNat k)) ok)
        ∧ (kind ≠ 0 → kind.toNat ≠ mine → go c { st := 3 }))
      ∧ (kind = 0 → (∀ j, j < c.nSets → c.rd (PT.STG_S_W0_STATE u) j ≠ 0) → go c { st := 1 }))
    ∧ (∀ es : List StgEntry, 1 ≤ es.length → es.length ≤ 16 →
      let go := fun (c : Chip u) (a : Ans) => Answers u (.stgAdd u o change es) s o 0x21 c a
      (c.holds k ch → st = 1 → es.all entryTaken = true → es.length ≤ c.stageRoom k →
        go { c with stage := upd c.stage k (fun x => { x with entries := x.entries ++ es }) } { st := 0 })
      ∧ (c.holdsNot ch → go c { st := 6 }))
    ∧ (let go := fun (c : Chip u) (a : Ans) => Answers u (.stgCommit u o change) s o 0x23 c a
      (c.holds k ch → (st = 2 → go (c.wr (PT.STG_S_W0_STATE u) 3 k) { st := 0 }) ∧ (st = 1 ∨ st = 3 → go c { st := 6 })
        ∧ (st = 4 → go { c.wr (PT.STG_S_W0_STATE u) 3 k with stage := upd c.stage k (fun x => { x with wasFenced := true }) } { st := 0 }))
      ∧ (c.holdsNot ch → go c { st := 6 }))
    ∧ (let go := fun (c : Chip u) (a : Ans) => Answers u (.stgAbort u o change) s o 0x24 c a
      (c.holds k ch → (∀ j, j < c.nSets → c.rd (PT.STG_S_W0_STATE u) j ≠ 4) → (∀ p, p < 64 → (s.ez.c.link p).barHeld = []) →
        (st ≠ 3 → go (c.setEnded k false) { st := 0 }) ∧ (st = 3 → go c { st := 6 }))
      ∧ (c.holdsNot ch → (∀ p, p < 64 → (s.ez.c.link p).barHeld = []) → go c { st := 6 }))
    ∧ (let go := fun (a : List Word) => Answers u (.stgQuery u o change) s o 0x25 c { st := 0, body := a }
      (c.holds k ch → go [w64 (put 63 61 st + put 3 0 k), w64 (c.rd (PT.STG_S_W1_T u) k), w64 (c.rd (PT.STG_S_W2_S_EFF u) k)])
      ∧ (∀ r : StageEnd, c.holdsNot ch → c.stageEnds.find? (fun r => r.change == ch) = some r →
          go [w64 (put 63 61 (if r.applied then 5 else 6) + put 3 0 r.set_), r.t, w64 r.sEff])
      ∧ (c.holdsNot ch → c.stageEnds = [] → go [0, 0, 0]))

/-- R280, R281: STG_PREPARE of an OPEN set checks its entries against the state at T and that T leaves the time that the part needs; a set that passes is PREPARED
for T, and one that fails is freed and refused with the failure's code and entry. R283 to R285, R288: at its T a COMMITTED set begins its apply and a PREPARED one is FENCED; the apply ends with its entries in force, and the set free; a set that stays
FENCED is reported every ORPHAN µs. -/
def Obligations.StagesAreCheckedAndApplied : Prop :=
  (∀ (s : State) (u : Part) (o : Order) (change : BitVec 32) (t : Word) (k : Nat), s.Takes u o →
     let c := s.chip u
     let lead := match u with | .garja => 70000 | .elzel => 250000
     let go := fun (c : Chip u) (a : Ans) => Answers u (.stgPrepare u o change t 0) s o 0x22 c a
     let x := c.stageAt k
     let freed := fun (c : Chip u) =>
       let off := (PT.STG_S_W0_STATE u).off + 0x20 * k
       ({ ((c.set off 0).set (off + 8) 0).set (off + 16) 0 with stage := upd c.stage k (fun _ => {}) } : Chip u)
     (c.holdsNot change.toNat → go c { st := 6 })
     ∧ (c.holds k change.toNat → c.rd (PT.STG_S_W0_STATE u) k ≠ 1 → go c { st := 6 })
     ∧ (c.holds k change.toNat → c.rd (PT.STG_S_W0_STATE u) k = 1 → c.flag (PT.STG_S_W0_SCOPED u) k = false →
       (x.entries = [] →
         ((c.gtInt + lead : Int) ≤ t.toNat → go ((c.wr (PT.STG_S_W0_STATE u) 2 k).wr (PT.STG_S_W1_T u) t.toNat k) { st := 0 })
         ∧ ((t.toNat : Int) < c.gtInt + lead → go (freed (c.inc (PT.STG_CNT_NACK u))) { st := 11, detail := 16 }))
       ∧ (∀ w : StgEntry, x.entries = [w] → bits w.w0 63 62 = 0 → bits w.w0 47 24 % 8 ≠ 0 ∨ regWindow u ≤ bits w.w0 47 24 →
           go (freed (c.inc (PT.STG_CNT_NACK u))) { st := 3, detail := 1 })))
  ∧ ((∀ (s : State) (u : Part) (set : BitVec 5), (s.chip u).clocked = true →
       let c := s.chip u
       let k := set.toNat
       let go := fun (i : Instr) (c : Chip u) => YieldsPart u i s c
       s.calm u → k < c.nSets →
       (c.flag (PT.STG_S_W0_SCOPED u) k = false → c.rd (PT.STG_S_W1_T u) k ≤ c.gtInt →
         (c.rd (PT.STG_S_W0_STATE u) k = 3 → c.applying = false →
           go (.stageApplicationPoint u set) { c with stage := upd c.stage k (fun x =>
             { x with applying := some (c.gtInt, if x.wasFenced then c.gtInt - x.fencedGt else 0) }) })
         ∧ (c.rd (PT.STG_S_W0_STATE u) k = 2 →
           go (.stageApplicationPoint u set) { (c.wr (PT.STG_S_W0_STATE u) 4 k).inc (PT.STG_CNT_LATE u) with
             stage := upd c.stage k (fun x => { x with fencedAt := c.now, fencedGt := c.gtInt, orphanAt := c.now }) }))
       ∧ (c.rd (PT.STG_S_W0_STATE u) k = 4 → 0 < c.rd (PT.STG_CFG_ORPHAN u) → (c.stageAt k).orphanAt + c.rd (PT.STG_CFG_ORPHAN u) * 1000 ≤ c.now →
         Yields u (.stageOrphan u set) s { c with stage := upd c.stage k (fun x => { x with orphanAt := c.now }) }))
     ∧ (∀ (s : State) (set : BitVec 5) (x : StageX) (w : StgEntry) (a n : Nat), s.gj.c.clocked = true → s.gj.Calm →
       let c := s.gj.c
       let k := set.toNat
       k < 4 → c.stage[k]? = some x → x.applying = some (a, n) → x.wasFenced = false → c.flag GJ.STG_S_W0_SCOPED k = false → c.den.run = none → s.gj.so.passes = [] →
       (x.entries = [] → YieldsGj (.stageApplyEnd .garja set) s { s.gj with c := (c.inc GJ.STG_CNT_APPLIED).setEnded k true })
       ∧ (∀ i, x.entries = [w] → i < 256 → bits w.w0 63 62 = 0 → bits w.w0 47 24 = GJ.SQ_ADDR + 8 * i →
         YieldsGj (.stageApplyEnd .garja set) s { s.gj with
           c := ((c.set (GJ.SQ_ADDR + 8 * i) (mergeBits (c.get (GJ.SQ_ADDR + 8 * i)) w.w2 w.w1)).inc GJ.STG_CNT_APPLIED).setEnded k true }))
     ∧ (∀ (s : State) (set : BitVec 5) (x : StageX) (w : StgEntry) (a n : Nat), s.ez.c.clocked = true → s.ez.Calm →
       let c := s.ez.c
       let k := set.toNat
       k < 16 → c.stage[k]? = some x → x.applying = some (a, n) → c.flag EZ.STG_S_W0_SCOPED k = false → c.den.run = none → s.ez.cmb.replays = [] →
       (∀ p, p < 64 → (c.link p).barHeld = []) →
       (x.entries = [] → YieldsEz (.stageApplyEnd .elzel set) s { s.ez with c := (c.inc EZ.STG_CNT_APPLIED).setEnded k true })
       ∧ (∀ d, x.entries = [w] → d < 16384 → bits w.w0 63 62 = 0 → bits w.w0 47 24 = EZ.CMB_BDESC_W1 + 16 * d →
         YieldsEz (.stageApplyEnd .elzel set) s { s.ez with
           c := ((c.set (EZ.CMB_BDESC_W1 + 16 * d) (mergeBits (c.get (EZ.CMB_BDESC_W1 + 16 * d)) w.w2 w.w1)).inc EZ.STG_CNT_APPLIED).setEnded k true })))

/-! ### Power (14, 15) and heat -/

/-- R297, R299, R310: a ramp is armed, begins at START and at the ARRIVE that ends the step, steps one level at a time, and ends, or holds TO for the hand-over; GJ_PWR_REQ
is acknowledged in the die's slot. That a ramp which ends at 0 ends the fill with it, and the s0 of a ramp with TRIG = 1, are the model's reading (log entry 39). -/
def Obligations.BallastRamps : Prop :=
  ∀ (s : State), s.running .garja → s.gj.Calm →
    let g := s.gj
    let c := g.c
    let y := YieldsGj
    let steps := max (c.rd GJ.PWR_RAMP0_FROM) (c.rd GJ.PWR_RAMP0_TO) - min (c.rd GJ.PWR_RAMP0_FROM) (c.rd GJ.PWR_RAMP0_TO)
    let ended := fun (g : Garja) => { g with c := (g.c.wr GJ.PWR_RAMP0_ARM 0).wr GJ.PWR_RAMP0_RUN 0, bal := { g.bal with held := false, made := 0, out := 0 } }
    let last := fun (g : Garja) => if g.c.flag GJ.PWR_RAMP0_HANDOVER then { g with bal := { g.bal with held := true } }
      else { ended g with bal := { (ended g).bal with filling := g.bal.filling && decide (g.c.rd GJ.PWR_RAMP0_TO ≠ 0) } }
    let begun := fun (g : Garja) (s0 : Nat) =>
      let h : Garja := { g with c := g.c.wr GJ.PWR_RAMP0_RUN 1, bal := { g.bal with s0 := s0, made := 0, out := g.c.rd GJ.PWR_RAMP0_FROM, held := false } }
      if g.c.rd GJ.PWR_RAMP0_FROM = g.c.rd GJ.PWR_RAMP0_TO then last h else h
    let ready := fun (g : Garja) => g.c.flag GJ.PWR_RAMP0_ARM = true ∧ 0 ≤ sdiff 64 g.c.gtInt (g.c.rd GJ.PWR_RAMP1_START)
      ∧ (g.c.flag GJ.PWR_RAMP0_TRIG = true → (g.seq (g.c.rd GJ.PWR_CFG_CTX)).inStep = false)
    let late := fun (g : Garja) => g.c.flag GJ.PWR_RAMP0_ARM = true ∧ 0 < sdiff 64 g.c.gtInt (g.c.rd GJ.PWR_RAMP1_START)
    let port := if c.flag GJ.TREE_A_VALID then bits (c.get GJ.TREE_A) 5 0 else bits (c.get GJ.TREE_B) 5 0
    let dwell := max 64 (c.rd GJ.PWR_RAMP0_DWELL) * 1000
    (∀ data : Word,
      let armed : Garja := { g with c := c.set GJ.PWR_RAMP0 (w64 (put 63 61 (bits data 63 61) + put 59 52 (bits data 59 52) + bits data 23 0)) }
      (c.flag GJ.PWR_RAMP0_RUN = true → y (.rampArm data) s { g with c := c.inc GJ.PWR_STATUS_WR_IGN })
      ∧ (c.flag GJ.PWR_RAMP0_RUN = false → ready armed ∨ late armed → y (.rampArm data) s (begun armed c.gtInt))
      ∧ (c.flag GJ.PWR_RAMP0_RUN = false → ¬ ready armed → ¬ late armed → y (.rampArm data) s armed))
    ∧ (c.flag GJ.PWR_RAMP0_RUN = true ∨ ¬ ready g → y .rampStart s g)
    ∧ (c.flag GJ.PWR_RAMP0_RUN = false → ready g → y .rampStart s (begun g (if c.flag GJ.PWR_RAMP0_TRIG then c.gtInt else c.rd GJ.PWR_RAMP1_START)))
    ∧ (let due := g.bal.s0 + g.bal.made * dwell + (port + 1) * dwell / 64
       let up := c.rd GJ.PWR_RAMP0_TO > g.bal.out
       let h : Garja := { g with bal := { g.bal with made := g.bal.made + 1, out := if up then g.bal.out + 1 else g.bal.out - 1 } }
       let now := c.flag GJ.PWR_RAMP0_RUN = true ∧ g.bal.made < steps ∧ 0 ≤ sdiff 64 c.gtInt due
       (¬ now → y .rampLevelStep s g) ∧ (now → y .rampLevelStep s (if g.bal.made + 1 < steps then h else last h)))
    ∧ (c.flag GJ.PWR_STATUS_REQ = true → y .pwrReqRise s g)
    ∧ (c.flag GJ.PWR_STATUS_REQ = false → y .pwrReqRise s { g with c := c.wr GJ.PWR_STATUS_REQ 1, bal := { g.bal with reqGt := c.gtInt } })
    ∧ (let slot := c.rd GJ.PWR_CFG_SLOT * 1000
       let now := c.flag GJ.PWR_STATUS_REQ = true ∧ c.flag GJ.PWR_STATUS_ACK = false ∧ slot ≠ 0 ∧ c.gtInt / slot % 64 = port
         ∧ (g.bal.reqGt ≤ c.gtInt / slot * slot ∨ c.gtInt < g.bal.reqGt)
       y .pwrSlot s (if now then { g with c := (c.wr GJ.PWR_STATUS_ACK 1).inc GJ.PWR_STATUS_ACKS } else g))
    ∧ y .pwrReqFall s { g with c := (c.wr GJ.PWR_STATUS_REQ 0).wr GJ.PWR_STATUS_ACK 0 }

/-- R306 to R316: entry to NAP, to BURROW, to QUIET and to DEN_ONLY; a wake with its cause, the periodic relock, and GJ_PST_LTR. The exit reason that a port shows after an
entry to BURROW or DEN_ONLY is the model's choice (log entry 60) and is not stated. -/
def Obligations.PowerStatesChange : Prop :=
  (∀ (s : State), s.gj.c.den.dead = false →
    let g := s.gj
    let c := g.c
    let holds := fun (n : Nat) => ∃ t, c.pw.idleSince = some t ∧ t + n * 1000 ≤ c.now
    let deep := c.flag GJ.PST_CTL_BURROW_EN = true ∧ c.anyCtx = false ∧ 15000 ≤ c.rd GJ.PST_LTR_ACCESS ∧ c.exitBurrow ≤ c.rd GJ.PST_LTR_TIME
    let woken := fun (last cause : Nat) => ((c.wr GJ.PST_STATUS_LAST last).wr GJ.PST_STATUS_CAUSE cause).inc GJ.PST_STATUS_WAKES
    let up := fun (last cause : Nat) => ({ woken last cause with pw := { c.pw with st := .run, idleSince := none } } : Chip .garja)
    (c.pw.st = .run → g.idle = true → holds (c.rd GJ.PST_CTL_IDLE_US) → g.level = 0 → ¬ deep →
      exec .powerStateEntry s = .next { s with gj := { g with c := { c with pw := { c.pw with st := .nap, entryAt := c.now } } } })
    ∧ (c.pw.st = .run → g.idle = true → holds (c.rd GJ.PST_CTL_IDLE_US) → g.level = 0 → deep →
      ∃ t, exec .powerStateEntry s = .next t ∧ t = { s with gj := { g with c := t.gj.c } } ∧ t.gj.c.pw.st = .burrow ∧ t.gj.c.pw.entryAt = c.now
        ∧ t.gj.c.lock = 3 ∧ t.gj.c.rd GJ.CLK_STATUS_GPLL_LOCK = 0 ∧ (∀ p, p < 2 → t.gj.c.rd GJ.SL_STATUS_STATE p = 0) ∧ t.gj.c.gt = c.gt)
    ∧ (c.pw.st = .run → g.idle = true → holds (c.rd GJ.PST_CTL_IDLE_US) → 0 < g.level →
      ∃ t, exec .powerStateEntry s = .next t ∧ t = { s with gj := { g with c := t.gj.c, bal := t.gj.bal } } ∧ t.gj.c.pw = c.pw ∧ t.gj.bal.out = g.level
        ∧ t.gj.c.flag GJ.PWR_RAMP0_RUN = true ∧ t.gj.c.rd GJ.PWR_RAMP0_TO = 0 ∧ t.gj.c.rd GJ.PWR_RAMP0_DWELL = c.rd GJ.PWR_CFG_DEF_DWELL)
    ∧ (c.pw.st ≠ .run ∨ g.idle = false ∨ ¬ holds (c.rd GJ.PST_CTL_IDLE_US) → exec .powerStateEntry s = .next s)
    ∧ (∀ cause : BitVec 4,
      (c.pw.st = .nap → cause = 1 ∨ cause = 2 ∨ cause = 3 ∨ cause = 4 ∨ (cause = 8 ∧ c.flag GJ.PWR_STATUS_REQ = true ∧ c.flag GJ.PST_WAKE_PWR_REQ = true)
          ∨ (cause = 6 ∧ c.flag GJ.PST_WAKE_TIMER = true ∧ 0 ≤ sdiff 64 c.gtInt (c.rd GJ.PST_TIMER_WAKE_AT)) →
        exec (.wake cause) s = .next { s with gj := { g with c := up 2 cause.toNat } })
      ∧ (c.pw.st = .run → exec (.wake cause) s = .next s)
      ∧ (c.pw.st = .burrow → cause = 1 ∨ cause = 5 → ∃ t, exec (.wake cause) s = .next t ∧ t = { s with gj := { g with c := t.gj.c } } ∧ t.gj.c.pw.st = .run
          ∧ t.gj.c.rd GJ.PST_STATUS_LAST = 3 ∧ t.gj.c.rd GJ.PST_STATUS_CAUSE = cause.toNat ∧ t.gj.c.rd GJ.CLK_STATUS_GPLL_LOCK = 1
          ∧ t.gj.c.rd GJ.CLK_STATUS_GPLL_SRC = 0 ∧ (∀ p, p < 2 → c.flag GJ.SL_CTL_EN p = true → t.gj.c.rd GJ.SL_STATUS_STATE p = 1)
          ∧ (∀ r ∈ t.gj.c.ev.rings, r.markFirst = true))
      ∧ (c.pw.st = .burrow → cause = 2 ∨ cause = 3 ∨ cause = 4 → exec (.wake cause) s = .next s))
    ∧ (c.pw.st = .burrow → c.lock = 3 → 1 ≤ c.rd GJ.PST_CTL_BURROW_MAX → c.rd GJ.PST_CTL_BURROW_MAX ≤ 9 →
      (c.now < c.tb.holdSince + c.rd GJ.PST_CTL_BURROW_MAX * 1000000000 → exec .burrowRelock s = .next s)
      ∧ (c.tb.holdSince + c.rd GJ.PST_CTL_BURROW_MAX * 1000000000 ≤ c.now → ∃ t, exec .burrowRelock s = .next t ∧ t = { s with gj := { g with c := t.gj.c } }
          ∧ t.gj.c.pw.st = .run ∧ t.gj.c.rd GJ.PST_STATUS_LAST = 3 ∧ t.gj.c.rd GJ.PST_STATUS_CAUSE = 9))
    ∧ (∀ data : Word,
      (c.pw.st = .run → exec (.ltrWrite data) s = .next { s with gj := { g with c := { c.set GJ.PST_LTR data with pw := { c.pw with idleSince := none } } } })
      ∧ (c.pw.st = .nap → exec (.ltrWrite data) s = .next { s with gj := { g with c := (up 2 1).set GJ.PST_LTR data } })))
  ∧ (∀ (s : State), s.ez.c.clocked = true →
    let e := s.ez
    let c := e.c
    let idle := e.idle = true ∧ ∃ t, c.pw.idleSince = some t ∧ t + c.rd EZ.PST_CTL_IDLE_MS * 1000000 ≤ c.now
    (c.pw.st = .run → idle → exec .quietEntry s
      = .next { s with ez := { e with c := { c.wr EZ.PST_STATUS_STATE 1 with pw := { c.pw with st := .quiet, entryAt := c.now } } } })
    ∧ (c.pw.st ≠ .run ∨ ¬ idle → exec .quietEntry s = .next s)
    ∧ (c.anyMember = true → exec (.denOnlyRequest false) s = .next { s with ez := { e with c := c.inc EZ.PST_STATUS_REFUSED } })
    ∧ (∀ force, c.anyMember = false ∨ force = true → ∃ t, exec (.denOnlyRequest force) s = .next t ∧ t = { s with ez := { e with c := t.ez.c } }
        ∧ t.ez.c.pw = { c.pw with st := .denOnly, entryAt := c.now, trimFrozen := t.ez.c.rdS EZ.CLN_DCO_TRIM } ∧ t.ez.c.rd EZ.PST_STATUS_STATE = 2
        ∧ t.ez.c.rd EZ.PST_STATUS_ENTRY = 1 ∧ t.ez.c.lock = 3 ∧ t.ez.c.rd EZ.REF_STATUS_LOCK = 3
        ∧ (∀ p, p < 68 → t.ez.c.rd EZ.SL_STATUS_STATE p = 0) ∧ t.ez.c.gt = c.gt ∧ t.ez.c.htSec = c.htSec ∧ t.ez.c.htNs = c.htNs))

/-- R291 to R294: a poll of the shelf, one that fails, one that does not come, the sibling that takes over and gives back. A report that another rack's leaf sends to the root has
no layout in the specification; that it ends as a rack's report is the model's choice (log entry 30). -/
def Obligations.ShelvesArePolled : Prop :=
  ∀ (s : State), s.ez.c.clocked = true →
    let e := s.ez
    let c := e.c
    let y := YieldsEz
    let leaf := c.isLeaf = true
    let polls := leaf ∧ c.flag EZ.PWR_CTL_EN = true ∧ (c.flag EZ.PWR_CTL_MASTER = true ∨ c.flag EZ.PWR_CTL_TAKEOVER = true)
    c.den.run = none →
    (e.Calm → ∀ r : ShelfPoll,
      let i := Instr.shelfPoll r
      let c := c.inc EZ.PWR_CNT_PMBUS_ERR 0 r.failed.toNat
      let pl := linear11 r.pout
      let v := linear11 r.pStore
      let ps : Int × Nat := if r.charging then (-v.1, v.2) else v
      let en := (Config.storageEnergy (c.rd EZ.PWR_TEL1_E) ps.1 ps.2 ((c.now - e.shelf.polledAt) / 1000)).toNat
      let when := fun (b : Bool) (c : Chip .elzel) => if b then c.inc EZ.PWR_CNT_ENVELOPE else c
      let d := (((((c.wrS EZ.PWR_TEL0_P_L (inUnits pl 10)).wrS EZ.PWR_TEL0_P_S (inUnits ps 10)).wr EZ.PWR_TEL0_STATUS r.status.toNat).wr EZ.PWR_TEL1_E en).wrS
        EZ.PWR_TEL1_VOUT (inUnits (linear16 r.vout r.voutMode) 1))
      let d := when (decide (en > c.rd EZ.PWR_SHELF0_E_BUF)) (when (decide ((ps.1.natAbs : Int) > (c.rd EZ.PWR_SHELF0_P_BUF : Int) * (ps.2 : Int)))
        (when (decide (pl.1 > (c.rd EZ.PWR_SHELF1_P_MAX : Int) * 10 * (pl.2 : Int))) d))
      (leaf → ¬ polls → y i s e)
      ∧ (polls → r.ok = false → y i s { e with c := c })
      ∧ (polls → r.ok = true → c.isRootA = false → c.rd EZ.PWR_SHELF1_CMD_TAU = 0 → c.rd EZ.PWR_SHELF1_CMD_PBUF = 0 → c.rd EZ.PWR_SHELF1_CMD_EBUF = 0 →
          c.rd EZ.PWR_SHELF1_CMD_SOC = 0 → y i s { e with c := if e.shelf.resume then d.wr EZ.PWR_CTL_TAKEOVER 0 else d, shelf := { polledAt := c.now } })
      ∧ (¬ leaf → c.isRootA = true → r.ok = true → bits r.status 15 11 = 0 → c.rd EZ.PWR_SHELF1_CMD_SOC = 0 → r.rack.toNat < 4096 →
          let k := r.rack.toNat
          let w := (((e.c.wr EZ.PWR_RACK_VALID 1 k).wr EZ.PWR_RACK_LOW 0 k).wr EZ.PWR_RACK_CAUSE 0 k).wr EZ.PWR_RACK_P_L (unsx 16 (inUnits pl 10)) k
          y i s { e with c := w.wr EZ.PWR_RACK_P_MAX r.pMax.toNat k }))
    ∧ (let lost := polls ∧ 1000000000 ≤ c.now - e.shelf.polledAt ∧ e.shelf.lostAt = none
       let k := c.rd EZ.ROLE_PREFIX / 64
       (¬ lost → y .pwrTelemLost s e)
       ∧ (lost → y .pwrTelemLost s { e with shelf := { e.shelf with lostAt := some c.now }
                                            c := if c.isRootA then (c.wr EZ.PWR_RACK_LOW 1 k).wr EZ.PWR_RACK_CAUSE 2 k else c }))
    ∧ (let takes := leaf ∧ c.flag EZ.PWR_CTL_EN = true ∧ c.flag EZ.PWR_CTL_MASTER = false
       y .pollTakeover s (if takes then { e with shelf := { polledAt := c.now }, c := c.wr EZ.PWR_CTL_TAKEOVER 1 } else e))
    ∧ y .pollResumeRequest s (if c.flag EZ.PWR_CTL_TAKEOVER then { e with shelf := { e.shelf with resume := true } } else e)

/-- R445, R447, R449: the temperature asks for half the combining clock and for the trip, and gives the clock back after 1 s below 94 °C; the trip puts Elzel in DEN_ONLY; the
loss of the module's input leaves what its flash holds. -/
def Obligations.HeatAndPowerAct : Prop :=
  ∀ (s : State),
    let e := s.ez
    let c := e.c
    let y := YieldsEz
    (∀ tj : BitVec 16, c.pw.st ≠ .denOnly → c.den.dead = false →
      let t := tj.toInt
      let h : Thermal := { e.th with tj := t }
      (11000 ≤ t → y (.thermalSample tj) s { e with th := { h with tripDue := true } })
      ∧ (10000 ≤ t → t < 11000 → e.th.want = false → y (.thermalSample tj) s { e with th := { h with want := true, coolSince := none } })
      ∧ (t < 10000 → e.th.want = false → y (.thermalSample tj) s { e with th := h })
      ∧ (9400 ≤ t → t < 11000 → e.th.want = true → y (.thermalSample tj) s { e with th := { h with coolSince := none } })
      ∧ (t < 9400 → e.th.want = true → y (.thermalSample tj) s { e with th := { h with coolSince := some (e.th.coolSince.getD c.now) } }))
    ∧ (c.clocked = true → y .combineClockChange s (if c.applying then e else { e with th := { e.th with half := e.th.want } }))
    ∧ (∀ t, e.th.coolSince = some t → e.th.want = true → y .halfExitTimer s
        (if t + 1000000000 ≤ c.now then { e with th := { e.th with want := false, coolSince := none } } else e))
    ∧ (e.th.coolSince = none ∨ e.th.want = false → y .halfExitTimer s e)
    ∧ (e.th.tripDue = false ∨ c.applying = true → y .thermalTrip s e)
    ∧ (e.th.tripDue = true → c.applying = false → c.den.run = none → c.pw.st ≠ .denOnly → e.fw = none → ∃ t, exec .thermalTrip s = .next t
        ∧ t = { s with ez := { e with c := t.ez.c, th := { e.th with tripDue := false, tripped := true } } } ∧ t.ez.c.pw.st = .denOnly
        ∧ t.ez.c.rd EZ.PST_STATUS_STATE = 2 ∧ t.ez.c.rd EZ.PST_STATUS_ENTRY = 2 ∧ (∀ p, p < 68 → t.ez.c.rd EZ.SL_STATUS_STATE p = 0) ∧ t.ez.c.htSec = c.htSec)
    ∧ (e.fw = none → exec .moduleInputLoss s = .next { s with ez := { Elzel.init c.prm e.flash with console := e.console } })

/-! ### Commands (17) and registers (20, 21) -/

/-- R340, R341, R346, R347, R407, R408: NOP and IDENTIFY answer; REG_READ and REG_WRITE read and write registers; a level that the part does not speak is refused with its
range, and a run of registers outside the window, or off a word, with BADPARAM. R250, R262: START of an ACTIVE context whose sequencer is idle, or has stopped and is to go on from a later step, puts it in RUN at PC with the step number S1; another context is refused. -/
def Obligations.CommandsAnswerAndStart : Prop :=
  (∀ (s : State) (u : Part) (o : Order), s.Takes u o →
     let c := s.chip u
     Answers u (.nopCmd u o) s o 1 c { st := 0 }
     ∧ Answers u (.identify u o) s o 2 c { st := 0, body := match u with
       | .garja => [w64 (put 62 62 (b2n s.gj.flagBuild) + put 61 54 (s.gj.c.rd GJ.CMD_CAP_LVL_MIN) + put 53 46 (s.gj.c.rd GJ.CMD_CAP_LVL_MAX)
           + put 45 30 s.gj.c.prm.stepping.toNat + put 29 14 s.gj.c.prm.hostStepping.toNat), s.gj.fprint,
           w64 (put 63 63 (s.gj.c.rd GJ.TREE_A_VALID) + put 62 62 (bits (s.gj.c.get GJ.TREE_B) 63 63) + put 61 44 (bits (s.gj.c.get GJ.TREE_A) 17 0)
             + put 43 26 (bits (s.gj.c.get GJ.TREE_B) 17 0) + put 17 0 (s.gj.c.rd GJ.CHIP_CHIP)), w64 (put 58 58 (s.gj.c.rd GJ.CHIP_VALID))]
       | .elzel => [w64 (2 ^ 63 + put 61 54 (s.ez.c.rd EZ.CMD_CAP_LVL_MIN) + put 53 46 (s.ez.c.rd EZ.CMD_CAP_LVL_MAX)
           + put 45 30 (s.ez.c.rd EZ.BOOT_STATUS_FW_LEVEL)), 0, 0,
           w64 (put 63 62 (s.ez.c.rd EZ.ROLE_ROLE) + put 61 61 (s.ez.c.rd EZ.ROLE_DOMAIN) + put 60 59 (s.ez.c.rd EZ.ROLE_DEPTH))] }
     ∧ (∀ (off : BitVec 24) (nm1 : BitVec 4) (mask data : Word),
       (off.toNat % 8 ≠ 0 ∨ regWindow u < off.toNat + 8 * (nm1.toNat + 1) → Answers u (.regRead u o off nm1) s o 3 c { st := 3 })
       ∧ (off.toNat % 8 ≠ 0 ∨ regWindow u < off.toNat + 8 → Answers u (.regWrite u o off mask data) s o 4 c { st := 3 })))
  ∧ (∀ (s : State) (o : Order) (ctx : BitVec 8) (pc : BitVec 12) (s1 : BitVec 48), s.Takes .garja o → s.gj.c.lockedEntries = [] →
       let g := s.gj
       let x := ctx.toNat
       let st := g.c.rd GJ.SQ_CTX_STATE_STATE x
       let go := fun (g : Garja) (a : Ans) => YieldsGj (.start o ctx pc s1) s { g with c := g.c.replied o 0x11 a }
       (g.ctxState x = 0 → go g { st := 4 }) ∧ (2 ≤ g.ctxState x → go g { st := 6 }) ∧ (g.ctxState x = 1 → 1 ≤ st → st ≤ 5 → go g { st := 6 })
       ∧ (∀ n, g.ctxState x = 1 → st = 6 → (g.seq x).sent = some n → s1.toNat ≤ n → go g { st := 3 })
       ∧ (g.ctxState x = 1 → st = 0 ∨ (st = 6 ∧ ∃ n, (g.seq x).sent = some n ∧ n < s1.toNat) → g.c.rd GJ.SO_RLN_CTX_COUNT x = 0 →
         go { g with c := (g.c.wr GJ.SQ_CTX_STATE_STATE 1 x).wr GJ.SQ_CTX_STATE_PC pc.toNat x
                     lane := if st = 0 then g.lane else { g.lane with store := g.lane.store.filter (fun e => e.ctx != x) }
                     seqs := upd g.seqs x (fun q => { nxt := s1.toNat, first := true, sent := q.sent, sigs := q.sigs }) } { st := 0 }))

/-- R6, R30, R127, R282, R347, R402, R403, R421, R422, R457: reads and writes of registers by command and by a write of the register window, for the address registers of Garja's
sequencer, for a read of the time, and for EZ_LNC_CTL; a tile may not write registers, and a locked register is not written. -/
def Obligations.RegistersReadAndWrite : Prop :=
  (∀ (s : State) (o : Order) (k n : Nat) (off : BitVec 24) (nm1 : BitVec 4) (mask data : Word), s.Takes .garja o → k + n ≤ 256 →
    off.toNat = GJ.SQ_ADDR + 8 * k → n = nm1.toNat + 1 →
    let c := s.gj.c
    Answers .garja (.regRead .garja o off nm1) s o 3 c { st := 0, body := (List.range n).map (fun i => c.get (GJ.SQ_ADDR + 8 * (k + i))) }
    ∧ ((∀ j, j < 4 → c.rd GJ.STG_S_W0_STATE j = 0) →
      Answers .garja (.regWrite .garja o off mask data) s o 4 (c.set off.toNat (mergeBits (c.get off.toNat) data mask)) { st := 0 }))
  ∧ (∀ (s : State) (o : Order), s.Takes .garja o →
    Answers .garja (.regRead .garja o (BitVec.ofNat 24 GJ.TB_GT) 0) s o 3 (s.gj.c.wr GJ.TB_FRAC_FRAC (s.gj.c.gt % 2 ^ 32))
      { st := 0, body := [w64 s.gj.c.gtInt] })
  ∧ (∀ (s : State) (o : Order) (mask data : Word), s.Takes .elzel o →
    let c := s.ez.c
    let off := BitVec.ofNat 24 EZ.LNC_CTL
    let new := fun (mask : Word) => c.set EZ.LNC_CTL (mergeBits (c.get EZ.LNC_CTL) data (mask &&& 0xFFFFFFFF00000000))
    Answers .elzel (.regRead .elzel o off 0) s o 3 c { st := 0, body := [c.get EZ.LNC_CTL] }
    ∧ ((∀ j, j < 16 → c.rd EZ.STG_S_W0_STATE j = 0) →
      Answers .elzel (.regWrite .elzel o off mask data) s o 4 (new mask) { st := 0 }
      ∧ YieldsEz (.registerWrite .elzel .host off (w64 (2 ^ 64 - 1)) data) s { s.ez with c := new (w64 (2 ^ 64 - 1)) })
    ∧ (∀ (j : Nat) (w : StgEntry), j < 16 → 2 ≤ c.rd EZ.STG_S_W0_STATE j → w ∈ (c.stageAt j).entries → bits w.w0 63 62 = 0 → bits w.w0 47 24 = EZ.LNC_CTL →
      Answers .elzel (.regWrite .elzel o off mask data) s o 4 (c.inc EZ.STG_CNT_WR_IGN) { st := 6 }))
  ∧ (∀ (s : State) (p : BitVec 3) (t : BitVec 12) (k : Nat) (off : BitVec 24) (data : Word), s.Serves .garja → p.toNat < s.gj.c.prm.nProc → k < 256 →
    off.toNat = GJ.SQ_ADDR + 8 * k → (∀ j, j < 4 → s.gj.c.rd GJ.STG_S_W0_STATE j = 0) →
    YieldsGj (.registerWrite .garja (.proc p) off (w64 (2 ^ 64 - 1)) data) s { (s.gj.answered (.proc p) 0) with c := s.gj.c.set off.toNat data }
    ∧ (s.gj.smap = none → YieldsGj (.registerWrite .garja (.tile t) off (w64 (2 ^ 64 - 1)) data) s (s.gj.answered (.tile t) 6))
    ∧ (∀ off : BitVec 24, off.toNat % 8 ≠ 0 → YieldsGj (.registerWrite .garja (.proc p) off (w64 (2 ^ 64 - 1)) data) s (s.gj.answered (.proc p) 3)))
  ∧ (∀ (u : Part) (s : State),
    let c := s.chip u
    let i := c.rd (PT.CAP_CTL_INDEX u)
    let d := c.wr (PT.CAP_CTL_INDEX u) (i + 1)
    let last := match u with | .garja => 2048 | .elzel => 32768
    Yields u (.capDataRead u) s (if i + 1 ≠ last then d else if c.rd (PT.CAP_CTL_SLOT u) = 0 then d.wr (PT.CAP_CTL_UNREAD0 u) 0 else d.wr (PT.CAP_CTL_UNREAD1 u) 0))

/-- R342 to R344: TAIL makes commands stand, and the command at HEAD is taken and answered; enabling a pair clears its indices; the doorbell of a completion queue sets CONS and ARM; a reply
reaches memory, slot by slot, before PSHADOW and PROD tell of it. -/
def Obligations.QueuePairsServe : Prop :=
  (∀ (s : State) (u : Part) (q : BitVec 10) (tail : BitVec 32), s.Serves u →
    let c := s.chip u
    let i := q.toNat
    let head := c.rd (PT.QP_SQ_IDX_HEAD u) i
    let mem := match u with | .garja => s.dieMem | .elzel => s.hostMem
    let at_ := 64 * c.rd (PT.QP_SQ_BASE_BASE u) i + 64 * (head % 2 ^ c.rd (PT.QP_CFG_LOG2N_SQ u) i)
    let w := memReadWord mem at_
    let o : Order := { src := .queue q, tag := BitVec.ofNat 16 (bits w 47 32), lvl := BitVec.ofNat 8 (bits w 55 48), routed := false, sender := 0 }
    i < c.nQueues →
    (tail.toNat = head → YieldsPart u (.sqTailWrite u q tail) s (c.wr (PT.QP_SQ_IDX_TAIL u) tail.toNat i))
    ∧ (s.Takes u o → tail.toNat = (head + 1) % 2 ^ 32 → 4 ≤ c.rd (PT.QP_CFG_LOG2N_SQ u) i → c.rd (PT.QP_CFG_LOG2N_SQ u) i ≤ 12 →
      c.rd (PT.QP_CFG_LOG2N_CQ u) i = 4 → c.rd (PT.QP_CQ_IDX_PROD u) i = c.rd (PT.QP_CQ_IDX_CONS u) i →
      bits w 63 56 = 1 → bits w 31 0 = 0 → memReadWord mem (at_ + 8) = 0 →
      Answers u (.sqTailWrite u q tail) s o 1 ((c.wr (PT.QP_SQ_IDX_TAIL u) tail.toNat i).wr (PT.QP_SQ_IDX_HEAD u) tail.toNat i) { st := 0 })
    ∧ (c.flag (PT.QP_CFG_EN u) i = false → YieldsPart u (.queueEnable u q) s
      (((((c.wr (PT.QP_CFG_EN u) 1 i).wr (PT.QP_SQ_IDX_HEAD u) 0 i).wr (PT.QP_SQ_IDX_TAIL u) 0 i).wr (PT.QP_CQ_IDX_PROD u) 0 i).wr (PT.QP_CQ_IDX_CONS u) 0 i))
    ∧ (c.flag (PT.QP_CFG_EN u) i = true → YieldsPart u (.queueEnable u q) s c))
  ∧ (∀ (s : State) (q : BitVec 10) (data : Word), s.Serves .elzel →
    let i := q.toNat
    let c := (s.ez.c.wr EZ.QP_CQ_IDX_CONS (bits data 31 0) i).wr EZ.QP_CFG_ARM (bits data 63 63) i
    let d := if bit data 63 = true ∧ s.ez.c.flag EZ.QP_CFG_EN i = true ∧ s.ez.c.rd EZ.QP_CQ_IDX_PROD i ≠ bits data 31 0 then c.wr EZ.QP_CFG_ARM 0 i else c
    YieldsEz (.cqDoorbell q data) s { s.ez with c := d })
  ∧ (∀ (s : State) (u : Part) (q : BitVec 10) (r : ReplyRec) (rest : List ReplyRec), s.running u → s.calm u →
    let c := s.chip u
    let i := q.toNat
    let d : Chip u := { c with cmd := { c.cmd with replies := rest } }
    let prod := c.rd (PT.QP_CQ_IDX_PROD u) i
    let base := 64 * c.rd (PT.QP_CQ_BASE_BASE u) i
    let new := (prod + (r.words.length + 7) / 8) % 2 ^ 32
    let size := 2 ^ c.rd (PT.QP_CFG_LOG2N_CQ u) i
    let mem := fun (m : Mem) => memWriteWord ((List.range r.words.length).foldl (fun m k =>
      memWriteWord m (base + 64 * ((prod + k / 8) % size) + 8 * (k % 8)) (r.words.getD k 0)) m) (8 * c.rd (PT.QP_PSHADOW_PSHADOW u) i) (w64 new)
    exec (.cqReplyWritten u q false) s = .next s
    ∧ (c.cmd.replies = r :: rest → r.q = i →
      (c.flag (PT.QP_CFG_EN u) i = false → YieldsPart u (.cqReplyWritten u q true) s (d.inc (PT.QP_CFG_CQ_DROP u) i))
      ∧ (c.flag (PT.QP_CFG_EN u) i = true → 4 ≤ c.rd (PT.QP_CFG_LOG2N_CQ u) i → c.rd (PT.QP_CFG_LOG2N_CQ u) i ≤ 12 →
        (match u, d with | .garja, d => d.flag GJ.CQP_CFG_DONE_EN i = false | .elzel, d => d.flag EZ.QP_CFG_ARM i = false) →
        ∃ t, exec (.cqReplyWritten u q true) s = .next t
          ∧ t.dieMem = (match u with | .garja => mem s.dieMem | .elzel => s.dieMem) ∧ t.hostMem = (match u with | .garja => s.hostMem | .elzel => mem s.hostMem)
          ∧ (t.chip u).rd (PT.QP_CQ_IDX_PROD u) i = new ∧ (t.chip u).cmd = d.cmd)))

/-- R91, R345, R351: a CMD on a port is run and answered on that port; a routed one for another part goes on. A REPLY ends the command that holds its tree tag, and one that names none is counted; a command that
is not answered within TMO ends in TIMEOUT. -/
def Obligations.CommandsTravel : Prop :=
  (∀ (s : State) (u : Part) (p : BitVec 7) (m : Mgmt) (rest : List Pkt), s.Serves u →
    let c := s.chip u
    let i := p.toNat
    let w0 := cmdW0 1 m.lvl m.tag 0
    let pkt := m.flit :: [w0 ++ (0 : Word)]
    let o : Order := { src := .port p, tag := BitVec.ofNat 16 m.tag, lvl := BitVec.ofNat 8 m.lvl, routed := false, sender := BitVec.ofNat 18 m.src }
    m.len = 1 → m.cls = 4 → m.routed = false → m.level < 4 → m.dst < 2 ^ 18 → m.src < 2 ^ 18 → m.tag < 2 ^ 16 → m.lvl < 2 ^ 8 →
    c.rd (PT.CMD_CAP_LVL_MIN u) ≤ m.lvl → m.lvl ≤ c.rd (PT.CMD_CAP_LVL_MAX u) →
    i < c.nPorts → c.up i = true → (c.link i).rx.mgmt = pkt :: rest →
    YieldsPart u (.cmd u p pkt) s ((c.taken i .mgmt pkt).queued i .mgmt (c.replyPkt i o (replyWords o 1 0 0 0 c.stamp []))))
  ∧ (∀ (s : State) (p : BitVec 7) (pkt : Pkt), s.ez.c.clocked = true → s.ez.Calm →
    let e := s.ez
    let i := p.toNat
    let m := mgmtOf (pkt.headD 0)
    let c := e.c.taken i .mgmt pkt
    i < 64 → e.Receives i .mgmt 6 pkt → m.routed = true →
    (m.cls = 4 → m.up = true → m.level ≠ e.c.rd EZ.ROLE_ROLE →
      (e.c.isRoot = false → YieldsEz (.cmd .elzel p pkt) s { e with c := c.queued e.c.uplink .mgmt pkt })
      ∧ (e.c.isRoot = true → YieldsEz (.cmd .elzel p pkt) s { e with c := c.inc EZ.SL_DROP_DIR_DROP i })))
  ∧ (∀ (s : State) (p : BitVec 7) (pkt : Pkt), s.ez.c.clocked = true → s.ez.Calm →
    let e := s.ez
    let i := p.toNat
    let m := mgmtOf (pkt.headD 0)
    let ws := wordsOf (pkt.drop 1)
    let c := e.c.taken i .mgmt pkt
    i < 68 → e.Receives i .mgmt 6 pkt → m.cls = 5 → m.routed = false →
    ((∀ x ∈ e.mgr.pool, ¬ (x.idx = m.tag % 4096 ∧ x.wrap = m.tag / 4096)) → YieldsEz (.reply p pkt) s { e with c := c.inc EZ.CMD_STATUS_LATE_REPLY })
    ∧ (∀ (x : PoolEnt) (o : Order) (q : BitVec 10), e.mgr.pool = [x] → x.idx = m.tag % 4096 → x.wrap = m.tag / 4096 → x.why = .submit o → o.src = .queue q →
      e.c.flag EZ.QP_CFG_EN q.toNat = true → e.c.cmd = { open_ := [o] } →
      let w0 := ws.getD 0 0
      let r := replyWords o x.op (bits w0 25 18) (bits (ws.getD 1 0) 63 48) (bits (ws.getD 1 0) 47 32) (bits (ws.getD 1 0) 31 0)
        ((ws.drop 2).take (2 * bits w0 31 26))
      YieldsEz (.reply p pkt) s { e.freeTag x.idx with c := { c with cmd := { open_ := [], replies := [{ q := q.toNat, words := r }] } } }))
  ∧ (∀ (s : State) (idx : BitVec 12) (x : PoolEnt) (o : Order) (q : BitVec 10), s.ez.c.clocked = true → s.ez.Calm →
    let e := s.ez
    e.mgr.pool = [x] → x.idx = idx.toNat → x.why = .submit o → o.src = .queue q → e.c.flag EZ.QP_CFG_EN q.toNat = true → e.c.cmd = { open_ := [o] } →
    (x.at_ + x.tmo * 1000 ≤ e.c.now →
      YieldsEz (.cmdForwardTimeout idx) s { e.freeTag x.idx with
        c := { e.c.inc EZ.CMD_STATUS_TMO with cmd := { open_ := [], replies := [{ q := q.toNat, words := replyWords o x.op 7 0 0 e.c.stamp [] }] } } })
    ∧ (e.c.now < x.at_ + x.tmo * 1000 → YieldsEz (.cmdForwardTimeout idx) s e))

/-- R13, R137 to R139, R286, R287, R300 to R303, R348, R371, R372: the domain-A root plans a job whose one block is its own, changes it, ends it, moves it to the other domain and rolls
it back, each as a change that it stages, prepares and commits in itself before it answers. A change that some unit has not acknowledged by COMMIT_LEAD ends, and the root moves by
itself a job whose member's port is out of use. The answer TIMEOUT of the former is the model's reading (DEDUCED) and rests on no rule. -/
def Obligations.JobsArePlanned : Prop :=
  (∀ (s : State) (o : Order) (job : BitVec 12) (ctx : BitVec 8) (change : BitVec 32) (addr fp data : Word) (dp : BitVec 16) (tReq : Word) (p : Plan),
    let e := s.ez
    let c := e.c
    let j := job.toNat
    let n := change.toNat
    let T := c.gtInt + c.rd EZ.STG_CFG_LEAD * 1000
    let block := fun (d : Word) => ({ hdr := e.ownHdr 1, scopeKind := 2, scope := j, entries := [anchorEntry j d] } : StagePart)
    let us := fun (t : Nat) => (t + 999) / 1000 * 1000
    let first := max (us tReq.toNat) (us T)
    let imaged := memReadWord s.hostMem addr.toNat = e.ownHdr 1 ∧ memReadWord s.hostMem (addr.toNat + 8) = 0
      ∧ memReadWord s.hostMem (addr.toNat + 16) = (anchorEntry j data).w0 ∧ memReadWord s.hostMem (addr.toNat + 24) = w64 (2 ^ 64 - 1)
      ∧ memReadWord s.hostMem (addr.toNat + 32) = data
    let staged := fun (t : State) (ch sEff : Nat) => t.ez.c.rd EZ.STG_S_W0_STATE 0 = 3 ∧ t.ez.c.rd EZ.STG_S_W0_CHANGE 0 = ch ∧ t.ez.c.rd EZ.STG_S_W0_SCOPE 0 = j
      ∧ t.ez.c.rd EZ.STG_S_W1_T 0 = T ∧ t.ez.c.rd EZ.STG_S_W2_S_EFF 0 = sEff
    let own := 0xC0000000 + e.mgr.hlt.own % 2 ^ 30
    let answers := fun (t : State) (op : Nat) (a : Ans) => t = { s with ez := t.ez } ∧ t.ez.c.cmd = (c.replied o op a).cmd ∧ t.ez.mgr.coords = []
    c.stage = List.replicate 16 {} → T < 2 ^ 64 → tReq.toNat + 1000 < 2 ^ 64 →
    (s.Plans o [] → imaged → ∃ t, exec (.jobSubmit o job ctx change addr 40 dp tReq fp) s = .next t
      ∧ answers t 0x30 { st := if first = tReq.toNat then 0 else 13, body := [w64 first,
          w64 (put 63 32 ((first - tReq.toNat) / 1000) + put 31 24 (if us tReq.toNat < T then 1 else 0))] }
      ∧ t.ez.mgr.plans = [{ job := j, ctx := ctx.toNat, change := n, fp := fp, blocks := [block (w64 first)] }] ∧ staged t n 0
      ∧ (t.ez.c.stageAt 0).entries = [anchorEntry j (w64 first)])
    ∧ (s.Plans o [p] → p.job = j → p.blocks = [block fp] → imaged → c.rd EZ.LNC_JOB_W0_PERIOD j ≠ 0 → c.rd EZ.LNC_JOB_W1_ANCHOR j < T →
        c.flag EZ.CMB_JOB_W0_VALID j = false →
        let s1 := (T - c.rd EZ.LNC_JOB_W1_ANCHOR j + c.rd EZ.LNC_JOB_W0_PERIOD j - 1) / c.rd EZ.LNC_JOB_W0_PERIOD j
        s1 < 2 ^ 48 →
        ∃ t, exec (.jobChange o job ctx change addr 40 fp) s = .next t ∧ answers t 0x31 { st := 0, body := [w64 s1] } ∧ staged t n s1
          ∧ (t.ez.c.stageAt 0).entries = [anchorEntry j data]
          ∧ t.ez.mgr.plans = [{ p with change := n, fp := if fp = 0 then p.fp else fp, blocks := [block data] }])
    ∧ (∀ sLast : BitVec 48, s.Plans o [p] → p.job = j → p.blocks = [block fp] → p.waitLvl = 0 →
        ∃ t, exec (.jobEnd o job change sLast) s = .next t ∧ answers t 0x32 { st := 0, body := [w64 T] } ∧ t.ez.mgr.plans = [{ p with endAt := some T }])
    ∧ (s.Plans o [] → (∀ sLast, ∃ t, exec (.jobEnd o job change sLast) s = .next t ∧ answers t 0x32 { st := 6 } ∧ t.ez.mgr.plans = []))
    ∧ (s.Plans o [p] → p.job = j → p.blocks = [block fp] → p.domain = 0 → c.jobs = [j] → c.fresh.contains j = false → c.rd EZ.CMB_JOB_W2_REL_THRU j + 1 < 2 ^ 48 →
        let s1 := c.rd EZ.CMB_JOB_W2_REL_THRU j + 1
        (∃ t, exec (.barMove o job true) s = .next t ∧ answers t 0x33 { st := 0, body := [w64 s1] } ∧ staged t own s1
          ∧ t.ez.mgr.plans = [{ p with domain := 1 }]
          ∧ (t.ez.c.stageAt 0).entries = [⟨w64 (put 47 24 (EZ.CMB_JOB_W0 + 0x20 * j)), w64 (2 ^ 63), 0⟩])
        ∧ (∃ t, exec (.barMove o job false) s = .next t ∧ answers t 0x33 { st := 6 } ∧ t.ez.mgr.plans = [p]))
    ∧ (∀ (step : BitVec 48) (k : Nat), s.Plans o [p] → p.job = j → p.blocks = [block fp] → c.rd EZ.JRNL_REG_W0_SIZE 0 ≠ 0 → c.rd EZ.JRNL_REG_W0_SIZE 1 ≠ 0 →
        c.flag EZ.CMB_JOB_W0_VALID j = false → c.fresh.contains j = false → c.rd EZ.CMB_JOB_W2_REL_THRU j + 1 < 2 ^ 48 →
        (∃ r ∈ e.mgr.hlt.snaps, r.job = j ∧ r.step = k) → k ≤ step.toNat → k < 2 ^ 48 →
        (∀ r ∈ e.mgr.hlt.snaps, r.job = j → r.step ≤ k ∨ step.toNat < r.step) →
        let s1 := c.rd EZ.CMB_JOB_W2_REL_THRU j + 1
        ∃ t, exec (.rollback o job step) s = .next t ∧ answers t 0x62 { st := 0, body := [w64 k] } ∧ staged t own s1
          ∧ t.ez.cmb.replays = [{ job := j, sk := k, sReq := step.toNat, change := own, sEff := s1 }]))
  ∧ (∀ (s : State) (change : BitVec 32), s.ez.c.clocked = true →
    let e := s.ez
    e.Calm → (∀ x ∈ e.mgr.coords, x.change ≠ change.toNat) → YieldsEz (.commitLeadExpired change) s e)
  ∧ (∀ (s : State) (change : BitVec 32) (k : Coord) (part : StagePart) (o : Order) (q : BitVec 10), s.ez.c.clocked = true →
    let e := s.ez
    { e with mgr := { e.mgr with coords := [] } }.Calm → e.mgr.coords = [k] → k.change = change.toNat → k.parts = [part] → part.phase = 1 → k.order = some o →
    k.decided = none → k.probing = false → k.fin = .own 0 → o.src = .queue q → e.c.flag EZ.QP_CFG_EN q.toNat = true → e.c.cmd = { open_ := [o] } →
    e.c.flag EZ.JRNL_CTL_EN = false →
    (e.c.gtInt + e.c.rd EZ.STG_CFG_COMMIT_LEAD * 1000 < k.t → YieldsEz (.commitLeadExpired change) s e)
    ∧ (k.t ≤ e.c.gtInt + e.c.rd EZ.STG_CFG_COMMIT_LEAD * 1000 →
      let a := replyWords o k.op 7 0 0 e.c.stamp [part.hdr]
      YieldsEz (.commitLeadExpired change) s { e with c := { e.c with cmd := { open_ := [], replies := [{ q := q.toNat, words := a }] } }
                                                      mgr := { e.mgr with coords := [{ k with decided := some false, order := none }] } }))
  ∧ (∀ (s : State) (job : BitVec 12) (chip : BitVec 18) (p : Plan) (b : StagePart) (port t0 : Nat) (ent : SumEnt), s.ez.c.clocked = true → s.ez.Calm →
    let e := s.ez
    let c := e.c
    (e.mgr.plans = [] → YieldsEz (.moveWaitExpired job chip) s e)
    ∧ (e.mgr.plans = [p] → p.job = job.toNat → p.domain = 0 → p.moved = false → p.blocks = [b] → bit b.hdr 63 = false → bits b.hdr 59 42 = chip.toNat →
      c.rd EZ.ROLE_ROLE = 3 → c.rd EZ.ROLE_DEPTH = 1 → c.rd EZ.ROLE_DOMAIN = 0 → e.mgr.pool = [] →
      port < 64 → (∀ r, r < 64 → (c.rd EZ.BIND_REPORTED r = chip.toNat ↔ r = port)) → (c.link port).outSince = some t0 →
      e.mgr.sums = [(66, [ent])] → ent.chip = chip.toNat → ent.held = false →
      let due := c.flag EZ.DOM_CTL_AUTO = true ∧ t0 + c.rd EZ.DOM_CTL_MOVE_WAIT * 1000 ≤ c.now
      (¬ due → YieldsEz (.moveWaitExpired job chip) s e)
      ∧ (due → ∃ t, exec (.moveWaitExpired job chip) s = .next t ∧ t = { s with ez := t.ez }
          ∧ t.ez.mgr.coords.map (fun k => (k.fin, k.parts.map (fun x => (x.phase, x.entries)))) = [(.move p.job 1 0 0 true,
              [(1, [⟨w64 (put 47 24 (GJ.BDOM + 8 * p.ctx)), w64 (2 ^ 63), w64 (2 ^ 63)⟩])])]
          ∧ t.ez.mgr.pool.map (fun x => (x.idx, x.op)) = [(0, 0x20)])))

/-! ### Elzel's own commands (17) -/

/-- R17, R152, R313, R347, R356, R363, R366, R367, R397, R441: DISCOVER sends DISC_DOWN on the ports of its mask that are up; DIE_WAKE holds a transmitter in idle for 4 µs; TXQ_SUBMIT puts a frame
and its descriptor in place; TXQ_STAMP takes stamps; HEALTH_READ gives a score record; OWL_PAIR pairs a chip with a spare or is refused; JRNL_COPY and CAPSULE_READ write to host memory.
Which chip of OWL_PAIR is the owl is DEDUCED in the model's log (entry 76). -/
def Obligations.FirmwareCommandsAct : Prop :=
  ∀ (s : State) (o : Order), s.Takes .elzel o →
    let e := s.ez
    let c := e.c
    let free := fun (k : Nat) => c.flag EZ.HLT_SPARE_VALID k = true ∧ c.flag EZ.HLT_SPARE_TRIAL k = false ∧ c.flag EZ.HLT_SPARE_INUSE k = false ∧ c.flag EZ.HLT_SPARE_RESERVED k = false
    let copies := fun (i : Instr) (op addr : Nat) (bs : List (BitVec 8)) (a : Ans) => ∃ t, exec i s = .next t
      ∧ t = { s with ez := t.ez, hostMem := memWriteBytes s.hostMem addr bs } ∧ t.ez.body = ({ e with c := c.replied o op a } : Elzel).body
      ∧ (∀ r, r ≠ EZ.BOOT_STATUS → evtReg .elzel r = false → t.ez.c.get r = c.get r) ∧ t.ez.c.clocked = true
    (∀ mask : Word, Answers .elzel (.discover o mask) s o 0x40
      { c with links := c.links.zipIdx.map (fun x =>
          if x.2 < 64 ∧ mask.toNat.testBit x.2 = true ∧ c.up x.2 = true then
            { x.1 with txq := x.1.txq.mod .mgmt (· ++ [{ flits := c.discDownPkt x.2 }]), discAt := some c.now, discLate := false }
          else x.1) } { st := 0 })
    ∧ (∀ p : BitVec 6, Answers .elzel (.dieWake o p) s o 0x41 (c.onLink p.toNat (fun l => { l with idleUntil := c.now + 4000 })) { st := 0 })
    ∧ (∀ (port : Bool) (addr d0 d1 : Word),
      let p := b2n port
      let x := e.port p
      let len := bits d1 29 18
      let buf := 0x70000 + 0x20000 * p + 0x800 * bits d1 17 12
      let answers := fun (e : Elzel) (st : Nat) => YieldsEz (.txqSubmit o port addr d0 d1) s { e with c := c.replied o 0x50 { st := st } }
      (len < 64 ∨ 1522 < len ∨ bits d1 11 0 ≠ 0 → answers e 3)
      ∧ (64 ≤ len → len ≤ 1522 → bits d1 11 0 = 0 → 32 ≤ x.txq.length + (if x.head = .none_ then 0 else 1) → answers e 1)
      ∧ (64 ≤ len → len ≤ 1522 → bits d1 11 0 = 0 → x.txq.length + (if x.head = .none_ then 0 else 1) < 32 →
        answers ({ e with frames := memWriteBytes e.frames buf (memReadBytes s.hostMem addr.toNat len) }.onPtp p (fun x => { x with txq := x.txq ++ [({ d0 := d0, d1 := d1 } : TxDesc)] })) 0))
    ∧ (∀ (port : Bool) (nm1 : BitVec 3),
      let p := b2n port
      let q := (e.port p).tsq
      let got := q.take (nm1.toNat + 1)
      let last := match got.getLast? with | some r => c.set (EZ.ETS_STAMP + 0x100 * p) r.stamp | none => c
      YieldsEz (.txqStamp o port nm1) s
        { e.onPtp p (fun x => { x with tsq := q.drop (nm1.toNat + 1) }) with
          c := last.replied o 0x51 { st := 0, detail := got.length, body := got.flatMap (fun r => [r.ets, r.stamp]) } })
    ∧ (∀ chip : BitVec 18,
      (∀ p, p < 64 → c.flag EZ.HLT_DIE_W0_VALID p = true → c.rd EZ.HLT_DIE_W0_CHIP p = chip.toNat → (∀ q, q < p → c.flag EZ.HLT_DIE_W0_VALID q = false ∨ c.rd EZ.HLT_DIE_W0_CHIP q ≠ chip.toNat) →
        Answers .elzel (.healthRead o chip) s o 0x60 c { st := 0, body := (List.range 4).map (fun w => c.get (EZ.HLT_DIE_W0 + 8 * w + 0x20 * p)) })
      ∧ ((∀ p, p < 64 → c.flag EZ.HLT_DIE_W0_VALID p = false ∨ c.rd EZ.HLT_DIE_W0_CHIP p ≠ chip.toNat) → Answers .elzel (.healthRead o chip) s o 0x60 c { st := 3 }))
    ∧ (∀ (job : BitVec 12) (en : Bool) (a b : BitVec 18),
      let answers := fun (en : Bool) (st : Nat) => Answers .elzel (.owlPair o job en a b) s o 0x61 c { st := st }
      (c.rd EZ.ROLE_ROLE ≠ 3 ∨ c.flag EZ.ROLE_DOMAIN = true → answers en 2)
      ∧ (c.rd EZ.ROLE_ROLE = 3 → c.flag EZ.ROLE_DOMAIN = false → (∀ k, k < 64 → c.flag EZ.HLT_OWL_W0_VALID k = false) →
        answers false 3
        ∧ ((∀ p ∈ e.mgr.plans, p.job ≠ job.toNat) → answers true 6)
        ∧ (∀ p : Plan, e.mgr.plans = [p] → p.job = job.toNat →
          let subj := fun (x : StagePart) => bit x.hdr 63 = false ∧ bits x.hdr 59 42 = a.toNat
          ((∀ x ∈ p.blocks, ¬ subj x) → answers true 3)
          ∧ ((∃ x ∈ p.blocks, subj x) → (∀ k, k < 64 → ¬ (free k ∧ c.rd EZ.HLT_SPARE_CHIP k = b.toNat)) → answers true 1)
          ∧ (∀ (x : StagePart) (k : Nat), p.blocks = [x] → subj x → k < 64 → free k → c.rd EZ.HLT_SPARE_CHIP k = b.toNat →
            (∀ i, i < k → ¬ (free i ∧ c.rd EZ.HLT_SPARE_CHIP i = b.toNat)) → c.rd EZ.HLT_OWL_W0_OUTCOME 0 ≠ 5 → s.Plans o [p] →
            ∃ t, exec (.owlPair o job true a b) s = .next t ∧ t = { s with ez := t.ez } ∧ t.ez.c.cmd = (c.replied o 0x61 { st := 0 }).cmd
              ∧ t.ez.c.flag EZ.HLT_OWL_W0_VALID 0 = true ∧ t.ez.c.rd EZ.HLT_OWL_W0_JOB 0 = job.toNat ∧ t.ez.c.rd EZ.HLT_OWL_W0_SUBJ 0 = a.toNat
              ∧ t.ez.c.rd EZ.HLT_OWL_W0_OWL 0 = b.toNat ∧ t.ez.c.rd EZ.HLT_OWL_W1_MIS 0 = 0 ∧ t.ez.c.flag EZ.HLT_SPARE_INUSE k = true))))
    ∧ (∀ (region : BitVec 4) (off addr : Word) (len : BitVec 32),
      let r := region.toNat
      let size := c.rd EZ.JRNL_REG_W0_SIZE r * 2 ^ 30
      let pos := fun (i : Nat) => c.rd EZ.JRNL_REG_W0_BASE r * 2 ^ 30 + (off.toNat + i) % size
      let bad := fun (i : Nat) => e.hbmBad.contains (pos i / 32)
      let copy := copies (.jrnlCopy o region off addr len) 0x63 addr.toNat ((List.range len.toNat).map (fun i => if bad i = true then 0 else memRead c.jrnl (pos i)))
      (4 < r → Answers .elzel (.jrnlCopy o region off addr len) s o 0x63 c { st := 3 })
      ∧ (r ≤ 4 → size ≠ 0 → (∀ i, i < len.toNat → bad i = false) → copy { st := 0 })
      ∧ (∀ k, r ≤ 4 → size ≠ 0 → k < len.toNat → bad k = true → (∀ i, i < k → bad i = false) →
          copy { st := 3, detail := 2, index := (off.toNat % size + k) / 32 - off.toNat % size / 32 }))
    ∧ (∀ (own : Bool) (chip : BitVec 18) (addr : Word) (len : BitVec 32),
      let answers := fun (own : Bool) (st : Nat) => Answers .elzel (.capsuleRead o own chip addr len) s o 0x71 c { st := st }
      let give := fun (own : Bool) (ws : List Word) => copies (.capsuleRead o own chip addr len) 0x71 addr.toNat ((ws.flatMap (fun w => bytesBE 8 w.toNat)).take len.toNat)
        (if capsuleOk ws then { st := 0 } else { st := 3, detail := 1 })
      (own = true → chip ≠ 0 → answers true 3)
      ∧ (own = true → chip = 0 → (∀ r ∈ e.mgr.caps, r.own = false) → give true c.ownCapsule)
      ∧ (own = false → (∀ r ∈ e.mgr.caps, r.own = true ∨ r.chip ≠ chip.toNat) → (∀ p, p < 64 → c.flag EZ.BIND_VALID p = false ∨ c.rd EZ.BIND_REPORTED p ≠ chip.toNat) → answers false 3)
      ∧ (∀ (r : CapRec) (rest : List CapRec), own = false → e.mgr.caps = r :: rest → r.own = false → r.chip = chip.toNat →
        give false (wordsOfBytes (r.len / 8) (c.regionBytes 4 r.off r.len))))

/-! ### Health (18) and spare-map loads (20) -/

/-- R359, R363, R365, R371: a leaf's tally is summed once, and a majority of COUNT settles the step; without one HLT_UNATTRIBUTED follows after 10 ms; the majority digest charges each member that
differs; and a checkpoint handle makes a snapshot record or counts in WR_IGN. -/
def Obligations.HealthIsAttributed : Prop :=
  (∀ (s : State) (r : TallyRec), s.ez.c.clocked = true → s.ez.Calm →
    let e := s.ez
    let j := r.job.toNat
    let n := r.step.toNat
    let old := e.mgr.hlt.tallies.find? (fun t => t.job == j && t.step == n)
    let with_ := fun (l : List Tally) => { e with mgr := { e.mgr with hlt := { e.mgr.hlt with tallies := l } } }
    (e.c.rd EZ.ROLE_ROLE ≠ 3 ∨ e.c.flag EZ.ROLE_DOMAIN = true → YieldsEz (.hltTally r) s e)
    ∧ (∀ t : Tally, old = some t → t.done = true ∨ r.leaf.toNat ∈ t.leaves → YieldsEz (.hltTally r) s e)
    ∧ (∀ (p : Plan) (d : Word) (k : BitVec 19), e.c.rd EZ.ROLE_ROLE = 3 → e.c.flag EZ.ROLE_DOMAIN = false → e.mgr.hlt.tallies = [] → e.c.jrnl = [] →
      e.mgr.plans = [p] → p.job = j → r.counts = [(d, k)] →
      let dies := (p.blocks.filter (fun b => !bit b.hdr 63)).length
      let t : Tally := { job := j, step := n, count := dies, at_ := e.c.now, leaves := [r.leaf.toNat], counts := [(d, k.toNat)] }
      (2 * k.toNat ≤ dies → YieldsEz (.hltTally r) s (with_ [t]))
      ∧ (dies < 2 * k.toNat → e.c.rd EZ.ROLE_DEPTH = 1 → r.leaf.toNat = e.c.rd EZ.ROLE_PREFIX → YieldsEz (.hltTally r) s (with_ [{ t with done := true }]))))
  ∧ (∀ (s : State) (job : BitVec 12) (step : BitVec 48) (t : Tally), s.ez.c.clocked = true → s.ez.Calm → s.ez.mgr.hlt.tallies = [t] → t.job = job.toNat → t.step = step.toNat →
    let e := s.ez
    let all := t.count ≤ (t.counts.map (·.2)).sum
    let done := { e with mgr := { e.mgr with hlt := { e.mgr.hlt with tallies := [{ t with done := true }] } } }
    (t.done = true ∨ (¬ all ∧ e.c.now - t.at_ < 10000000) → YieldsEz (.hltUnattributed job step) s e)
    ∧ (t.done = false → all ∨ 10000000 ≤ e.c.now - t.at_ → YieldsEz (.hltUnattributed job step) s done))
  ∧ (∀ (s : State) (d : Word), s.ez.c.clocked = true → s.ez.Calm → s.ez.c.rd EZ.BOOT_STATUS_STAGE = 4 → (∀ k, k < 16 → s.ez.c.rd EZ.STG_S_W0_STATE k = 0) →
    let e := s.ez
    let c := e.c
    let w := c.get EZ.HLT_REF_W0
    let job := bits w 63 52
    let step := bits w 47 0
    (c.jrnl = [] → YieldsEz (.hltRefWrite d) s e)
    ∧ (∀ (p : Nat) (x : Word), c.members job step = [p] → c.ledgerDigest job step (c.rd EZ.BIND_REPORTED p) = some x →
      (x = d → YieldsEz (.hltRefWrite d) s e)
      ∧ (x ≠ d → p < 64 → c.flag EZ.HLT_DIE_W0_VALID p = true → c.rd EZ.HLT_DIE_W1_LAST_STEP p ≠ step → c.rd EZ.HLT_DIE_W0_STATE p ≤ 1 → c.flag EZ.HLT_LIM_AUTO_OWL = false →
        let score := min 65535 (c.rd EZ.HLT_DIE_W0_SCORE p + c.rd EZ.HLT_WGT_DIG)
        score < c.rd EZ.HLT_CFG_EXPEL →
        ∃ t, exec (.hltRefWrite d) s = .next t ∧ t = { s with ez := t.ez } ∧ t.ez.c.rd EZ.HLT_DIE_W0_SCORE p = score
          ∧ t.ez.c.rd EZ.HLT_DIE_W0_MISMATCHES p = min 255 (c.rd EZ.HLT_DIE_W0_MISMATCHES p + 1) ∧ t.ez.c.rd EZ.HLT_DIE_W1_LAST_STEP p = step
          ∧ t.ez.c.rd EZ.HLT_DIE_W2_LAST_HT p = c.gtInt
          ∧ t.ez.c.rd EZ.HLT_DIE_W0_STATE p = (if c.rd EZ.HLT_CFG_SUSPECT ≤ score then 2 else if c.rd EZ.HLT_CFG_WATCH ≤ score then 1 else 0))))
  ∧ (∀ (s : State) (h : Word) (p : Plan), s.ez.c.clocked = true → s.ez.Calm → s.ez.c.rd EZ.BOOT_STATUS_STAGE = 4 → (∀ k, k < 16 → s.ez.c.rd EZ.STG_S_W0_STATE k = 0) →
    let e := s.ez
    let c := e.c
    let job := bits (c.get EZ.JRNL_CKPT_W0) 63 52
    let step := bits (c.get EZ.JRNL_CKPT_W0) 47 0
    e.mgr.plans = [p] → p.job = job →
    let odd := c.rd EZ.ROLE_ROLE ≠ 3 ∨ c.flag EZ.ROLE_DOMAIN = true ∨ c.relNext job < step ∨ (p.period ≠ 0 ∧ step % p.period ≠ 0)
    (odd → YieldsEz (.ckptHandleWrite h) s { e with c := c.inc EZ.HLT_CNT_WR_IGN })
    ∧ (¬ odd → c.rd EZ.JRNL_REG_W0_SIZE 2 = 0 → YieldsEz (.ckptHandleWrite h) s
        { e with mgr := { e.mgr with hlt := { e.mgr.hlt with snaps := e.mgr.hlt.snaps ++
          [{ job := job, step := step, handle := h, ht := c.gtInt, change := e.changeOf job, count := (p.blocks.filter (fun b => !bit b.hdr 63)).length }] } } }))

/-- R366, R367, R370, R373, R433: the digests of a subject and of its owl are compared step by step; a pairing whose owl does not start ends in NOSTART, and one without a mismatch ends CLEARED;
a spare entered on trial is asked to identify itself; and a spare-map load is taken once every tile that it moves is at rest, and its tiles are served again once it is done. -/
def Obligations.PairsEndAndSparesLoad : Prop :=
  (∀ (s : State) (kb : BitVec 6) (p : Pairing) (first : BitVec 48) (ds : List (BitVec 64)), s.ez.c.clocked = true → s.ez.Calm → s.ez.mgr.hlt.pairs = [p] → p.k = kb.toNat →
    let e := s.ez
    let c := e.c
    let k := kb.toNat
    let new := (List.range ds.length).map (fun i => (first.toNat + i, ds.getD i 0))
    let on := fun (f : Pairing → Pairing) => { e with mgr := { e.mgr with hlt := { e.mgr.hlt with pairs := [f p] } } }
    let ends := fun (i : Instr) (outcome : Nat) => ∃ t, exec i s = .next t ∧ t = { s with ez := t.ez } ∧ t.ez.c.flag EZ.HLT_OWL_W0_VALID k = false
      ∧ t.ez.c.rd EZ.HLT_OWL_W0_OUTCOME k = outcome ∧ t.ez.mgr.hlt.pairs = []
    (∀ b : Bool, c.rd EZ.ROLE_ROLE ≠ 3 ∨ c.flag EZ.ROLE_DOMAIN = true → YieldsEz (.owlDigests kb b first ds) s e)
    ∧ (c.rd EZ.ROLE_ROLE = 3 → c.flag EZ.ROLE_DOMAIN = false → c.relThru (c.rd EZ.HLT_OWL_W0_JOB k) ≤ first.toNat + 1000000 →
      (p.owl = [] → p.subj = [] → YieldsEz (.owlDigests kb false first ds) s (on (fun p => { p with subj := new }))
        ∧ YieldsEz (.owlDigests kb true first ds) s (on (fun p => { p with begun := true, owl := new })))
      ∧ (p.subj = new → p.owl = [] → YieldsEz (.owlDigests kb true first ds) s (on (fun p => { p with begun := true, subj := [] })))
      ∧ (∀ d x : Word, ds = [d] → p.subj = [(first.toNat, x)] → p.owl = [] → x ≠ d → c.flag EZ.HLT_OWL_W0_VALID k = true →
        (∀ q, q < 64 → c.flag EZ.HLT_DIE_W0_VALID q = false) → c.rd EZ.HLT_OWL_W1_MIS k + 1 < c.rd EZ.HLT_LIM_OWL_CONFIRM → e.mgr.hlt.tallies = [] →
        YieldsEz (.owlDigests kb true first ds) s { on (fun p => { p with begun := true, subj := [], since := c.now }) with c := c.inc EZ.HLT_OWL_W1_MIS k }))
    ∧ (p.begun = true ∨ c.gtInt < p.t + 60000000000 → YieldsEz (.owlNostart kb) s e)
    ∧ (let lim := if c.flag EZ.HLT_OWL_W0_TRIAL k = true then c.rd EZ.HLT_LIM_TRIAL else c.rd EZ.HLT_LIM_OWL_CLEAR
       (c.now - p.since < lim * 1000000000 → YieldsEz (.owlCleared kb) s e)
       ∧ (∀ pl : Plan, c.rd EZ.ROLE_ROLE = 3 → c.flag EZ.ROLE_DOMAIN = false → c.flag EZ.HLT_OWL_W0_VALID k = true → e.mgr.plans = [pl] → e.mgr.hlt.wanting = [] → e.mgr.pool = [] →
         (p.begun = false → p.t + 60000000000 ≤ c.gtInt → ends (.owlNostart kb) 3) ∧ (lim * 1000000000 ≤ c.now - p.since → ends (.owlCleared kb) 2))))
  ∧ (∀ (s : State) (kb : BitVec 6), s.ez.c.clocked = true → s.ez.Calm → s.ez.mgr.pool = [] →
    let e := s.ez
    let c := e.c
    let k := kb.toNat
    let chip := c.rd EZ.HLT_SPARE_CHIP k
    let due := c.rd EZ.ROLE_ROLE = 3 ∧ c.flag EZ.ROLE_DOMAIN = false ∧ c.flag EZ.HLT_SPARE_VALID k = true ∧ c.flag EZ.HLT_SPARE_TRIAL k = true ∧ c.flag EZ.HLT_SPARE_INUSE k = false
    let expelled := fun (q : Nat) => c.flag EZ.HLT_DIE_W0_VALID q = true ∧ c.rd EZ.HLT_DIE_W0_CHIP q = chip ∧ c.rd EZ.HLT_DIE_W0_STATE q = 5
    (¬ due → YieldsEz (.spareTrial kb) s e)
    ∧ (∀ q, q < 64 → due → e.coordOfChip chip = none → expelled q → (∀ i, i < q → ¬ expelled i) →
      ∃ t, exec (.spareTrial kb) s = .next t ∧ t = { s with ez := t.ez } ∧ t.ez.c.rd EZ.HLT_DIE_W0_STATE q = 6 ∧ t.ez.c.flag EZ.HLT_SPARE_VALID k = false)
    ∧ (due → (∀ q, q < 64 → ¬ expelled q) → e.coordOfChip chip = none → YieldsEz (.spareTrial kb) s { e with c := c.wr EZ.HLT_SPARE_VALID 0 k })
    ∧ (∀ port coord, due → (∀ q, q < 64 → ¬ expelled q) → e.portToChip chip = some port → e.coordOfChip chip = some coord → port < 64 →
      let d : Dest := { port := port, routed := true, level := 0, dst := coord }
      let w0 := cmdW0 2 (c.rd EZ.CMD_CAP_LVL_MAX) (e.wrapOf 0 * 4096) 0
      YieldsEz (.spareTrial kb) s { e with
        c := c.queued port .mgmt (c.cmdPkt d w0 0 [])
        mgr := { e.mgr with pool := [{ idx := 0, wrap := e.wrapOf 0, op := 2, lvl := c.rd EZ.CMD_CAP_LVL_MAX, at_ := c.now, tmo := c.rd EZ.CMD_CTL_DEF_TMO, why := .trial k 0 0 }] } }))
  ∧ (∀ (s : State) (tiles : List (BitVec 12)) (used : BitVec 8), s.running .garja → s.gj.Calm →
    let g := s.gj
    let rest := fun (l : List Nat) => ∀ t ∈ l, bit (sparseGet g.so.results t) 55 = false ∧ ∀ w ∈ g.so.waiters, w.slot ≠ t
    let l : SpareLoad := { tiles := tiles.map (·.toNat), used := used.toNat }
    (g.smap = none → tiles.length ≤ 128 → rest l.tiles → YieldsGj (.spareMapPresent tiles used) s { g with smap := some l })
    ∧ (g.smap = none → tiles.length ≤ 128 → ¬ rest l.tiles → YieldsGj (.spareMapPresent tiles used) s { g with smap := some l, c := g.c.inc GJ.HLT_STATUS_HELD_LOADS })
    ∧ (g.smap ≠ none ∨ 128 < tiles.length → YieldsGj (.spareMapPresent tiles used) s g)
    ∧ (g.smap = none → YieldsGj .spareMapTake s g ∧ YieldsGj .spareMapDone s g)
    ∧ (∀ m : SpareLoad, g.smap = some m →
      (m.taken = true ∨ ¬ rest m.tiles → YieldsGj .spareMapTake s g)
      ∧ (m.taken = false → rest m.tiles → YieldsGj .spareMapTake s
          { g with smap := some { m with taken := true }, c := (g.c.inc GJ.HLT_STATUS_REMAPS).wr GJ.HLT_STATUS_SPARES_USED m.used })
      ∧ YieldsGj .spareMapDone s (if m.taken = true then { g with smap := none } else g)))

/-- R364: at a whole multiple of DECAY_INT seconds of HT every score S becomes S − (S >> DECAY_SHIFT); at another time, and with DECAY_INT = 0, nothing changes. The defaults are 60 s and 4. -/
def Obligations.ScoresDecay : Prop :=
  State.reset.ez.c.rd EZ.HLT_CFG_DECAY_INT = 60 ∧ State.reset.ez.c.rd EZ.HLT_CFG_DECAY_SHIFT = 4 ∧
  ∀ (s : State), s.ez.c.clocked = true → s.ez.Calm →
    let c := s.ez.c
    let int := c.rd EZ.HLT_CFG_DECAY_INT
    (int = 0 ∨ c.htSec % int ≠ 0 → YieldsEz .scoreDecay s s.ez)
    ∧ (int ≠ 0 → c.htSec % int = 0 → ∃ t, exec .scoreDecay s = .next t ∧ t = { s with ez := t.ez } ∧ ∀ p, p < 64 →
        let v := c.rd EZ.HLT_DIE_W0_SCORE p
        t.ez.c.rd EZ.HLT_DIE_W0_SCORE p = if c.flag EZ.HLT_DIE_W0_VALID p = true then v - v / 2 ^ c.rd EZ.HLT_CFG_DECAY_SHIFT else v)

/-! ### Elzmon and DEBUG (21) -/

/-- R466 to R468: each command of Elzmon prints what it reads, or its status; those marked W need WRITE_EN; an access of a die goes out as DEBUG requests, one at a time, and an
Elzel executes, passes on or refuses a DEBUG packet. -/
def Obligations.ElzmonRuns : Prop :=
  (∀ (s : State), s.ez.c.clocked = true → s.ez.Calm → s.ez.c.rd EZ.BOOT_STATUS_STAGE = 4 → s.ez.c.den.run = none → s.ez.mon = none → s.ez.mgr.pool = [] →
    let e := s.ez
    let c := e.c
    let y := YieldsEz
    let out := fun (l : MonLine) => { e with console := l :: e.console }
    let denied := out (.status 6)
    let own : MonTarget := { own := true, level := 0, coord := 0 }
    let wr := c.flag EZ.MON_CTL_WRITE_EN
    let words := fun (l : List Nat) => out (.words (l.map w64))
    y (.elzmonId own) s (out (.words [w64 (2 ^ 63 + put 61 54 (c.rd EZ.CMD_CAP_LVL_MIN) + put 53 46 (c.rd EZ.CMD_CAP_LVL_MAX)
        + put 45 30 (c.rd EZ.BOOT_STATUS_FW_LEVEL)), 0, 0, w64 (put 63 62 (c.rd EZ.ROLE_ROLE) + put 61 61 (c.rd EZ.ROLE_DOMAIN) + put 60 59 (c.rd EZ.ROLE_DEPTH))]))
    ∧ y .elzmonTime s (words [c.htSec, c.htNs, c.htFrac, c.gtInt, c.rd EZ.REF_STATUS_LOCK, c.rd EZ.TS_STATUS_STATE, c.rd EZ.REF_STATUS_SEL, c.rd EZ.TS_STATUS_INPUT])
    ∧ y .elzmonRef s (out (.words ((List.range 6).map (fun i => c.get (EZ.REF_SST + 0x10 * i)))))
    ∧ y .elzmonPorts s (words ((List.range 68).flatMap (fun p =>
        [c.rd EZ.SL_STATUS_STATE p, c.rd EZ.SL_STATUS_RANGE_VALID p, c.rd EZ.SL_RANGE_DELAY p, c.rd EZ.SL_OFFSET_THETA p])))
    ∧ y .elzmonBind s (out (.words ((List.range 64).map (fun p => c.get (EZ.BIND + 8 * p)))))
    ∧ y .elzmonFwStatus s (out (.words [c.get EZ.FW_CTL]))
    ∧ (6 ≤ c.rd EZ.EVT_RING_CFG_LOG2N 0 → c.rd EZ.EVT_RING_CFG_LOG2N 0 ≤ 16 →
        let at_ := fun (i : Nat) => 64 * c.rd EZ.EVT_RING_BASE_BASE 0 + 64 * (i % 2 ^ c.rd EZ.EVT_RING_CFG_LOG2N 0)
        let i := (c.rd EZ.EVT_RING_INDEX_PROD 0 + 2 ^ 32 - 1) % 2 ^ 32
        let w := fun (k : Nat) => memReadWord s.hostMem (at_ i + 8 * k)
        let mark := bits (w 2) 63 32 * 2 ^ 32 + bits (w 0) 31 0
        y (.elzmonEvt 0) s (out (.words []))
        ∧ (bits (w 0) 63 54 = EV.EPOCH_MARK .elzel → y (.elzmonEvt 1) s (out (.words (w64 mark :: (List.range 8).map w)))))
    ∧ (∀ (off : BitVec 24) (nm1 : BitVec 4), off.toNat % 8 ≠ 0 ∨ 0x1000000 < off.toNat + 8 * (nm1.toNat + 1) → y (.elzmonRd off nm1) s (out (.status 3)))
    ∧ y (.elzmonRd (BitVec.ofNat 24 EZ.LNC_CTL) 0) s (out (.words [c.get EZ.LNC_CTL]))
    ∧ (∀ (t : MonTarget) (off : BitVec 24) (data : Word) (ctx op : BitVec 8) (obj : BitVec 17) (l : BitVec 3) (img : FwImage), wr = false →
        y (.elzmonWr off data) s denied ∧ y (.elzmonGjWr t off data) s denied ∧ y (.elzmonGjObj t ctx obj (some data)) s denied
        ∧ y (.elzmonGjDb t ctx op data) s denied ∧ y (.elzmonRst t l op) s denied ∧ y (.elzmonFwProgram img) s denied)
    ∧ (∀ (off : BitVec 24) (data : Word), wr = true → off.toNat % 8 ≠ 0 → y (.elzmonWr off data) s (out (.status 3)))
    ∧ (∀ data : Word, wr = true → (∀ j, j < 16 → c.rd EZ.STG_S_W0_STATE j = 0) →
        y (.elzmonWr (BitVec.ofNat 24 EZ.LNC_CTL) data) s { out (.status 0) with c := c.set EZ.LNC_CTL (mergeBits (c.get EZ.LNC_CTL) data 0xFFFFFFFF00000000) })
    ∧ (∀ img : FwImage, wr = true → e.fw = none → img.digestOk = true → img.sigOk = true → (∀ p, p < 68 → c.rd EZ.SL_STATUS_STATE p ≠ 5) →
        y (.elzmonFwProgram img) s { out (.status 0) with fw := some { op := 2, img := some img }, c := c.wr EZ.FW_CTL_STATE 1 })
    ∧ (∀ (t : MonTarget) (off : BitVec 24) (data : Word) (ctx op : BitVec 8) (obj : BitVec 17),
        y (.elzmonGjRd own off) s (out (.status 3)) ∧ (wr = true → y (.elzmonGjWr own off data) s (out (.status 3)))
        ∧ (wr = true → 128 ≤ op.toNat → y (.elzmonGjDb t ctx op data) s (out (.status 3)))
        ∧ (c.rd EZ.ROLE_ROLE = 3 → t.own = false → t.level.toNat < 3 →
          let port := t.coord.toNat / 2 ^ c.portShift % 64
          let m : Mgmt := { len := 1, cls := 6, routed := true, up := false, level := t.level.toNat, dst := t.coord.toNat, src := c.rd EZ.ROLE_PREFIX,
                            tag := e.monSeq, lvl := c.rd EZ.CMD_CAP_LVL_MAX }
          let d : Dest := { port := port, routed := true, level := t.level.toNat, dst := t.coord.toNat }
          let reads := fun (win off : Nat) (rest : List MonReq) =>
            { e with c := c.queued port .mgmt [m.flit, f128 (2 ^ 124 + put 123 122 win + put 95 64 off)],
                     mon := some { tag := e.monSeq, at_ := c.now, dest := d, cur := { write := false, win := win, off := off }, rest := rest },
                     monSeq := (e.monSeq + 1) % 2 ^ 16 }
          let writes := fun (win off : Nat) (data mask : Word) (rest : List MonReq) =>
            { e with c := c.queued port .mgmt [{ m with len := 2 }.flit, f128 (2 ^ 125 + put 123 122 win + put 95 64 off + data.toNat), f128 mask.toNat],
                     mon := some { tag := e.monSeq, at_ := c.now, dest := d, cur := { write := true, win := win, off := off, data := data, mask := mask }, rest := rest },
                     monSeq := (e.monSeq + 1) % 2 ^ 16 }
          let all := w64 (2 ^ 64 - 1)
          y (.elzmonGjRd t off) s (reads 0 off.toNat [])
          ∧ y (.elzmonGjObj t ctx obj none) s (reads 2 (ctx.toNat * 0x100000 + obj.toNat * 8) [])
          ∧ (let data8 := ({ write := false, win := 0, off := GJ.CAP_DATA } : MonReq)
             let sel := fun (k : Nat) => ({ write := true, win := 0, off := GJ.CAP_CTL, data := w64 (k * 2 ^ 63), mask := w64 (2 ^ 63 + 2047) } : MonReq)
             y (.elzmonGjCap t) s (writes 0 GJ.CAP_CTL 0 (w64 (2 ^ 63 + 2047)) (List.replicate 8 data8 ++ sel 1 :: List.replicate 8 data8)))
          ∧ (wr = true → y (.elzmonGjWr t off data) s (writes 0 off.toNat data all [])
            ∧ y (.elzmonGjObj t ctx obj (some data)) s (writes 2 (ctx.toNat * 0x100000 + obj.toNat * 8) data all [])
            ∧ (op.toNat < 128 → y (.elzmonGjDb t ctx op data) s (writes 1 (ctx.toNat * 0x400 + op.toNat * 8) data all [])))
          ∧ (let sends := fun (op : Nat) (body : List Word) =>
               let w0 := cmdW0 op (c.rd EZ.CMD_CAP_LVL_MAX) (e.wrapOf 0 * 4096) (body.length / 2)
               { e with c := c.queued port .mgmt (c.cmdPkt d w0 0 body),
                        mgr := { e.mgr with pool := [{ idx := 0, wrap := e.wrapOf 0, op := op, lvl := c.rd EZ.CMD_CAP_LVL_MAX, at_ := c.now, tmo := 10000, why := .mon }] } }
             y (.elzmonId t) s (sends 2 []) ∧ (wr = true → ∀ l : BitVec 3, y (.elzmonRst t l op) s (sends 0x70
               [w64 (put 63 61 l.toNat + put 60 56 (if l = 0 then op.toNat else 0) + put 55 48 (if l = 1 then op.toNat else 0)
                 + put 47 40 (if l = 2 then op.toNat else 0)), 0]))))))
  ∧ (∀ (s : State) (p : BitVec 7) (pkt : Pkt), s.ez.c.clocked = true → s.ez.Calm →
    let e := s.ez
    let i := p.toNat
    let m := mgmtOf (pkt.headD 0)
    let f := pkt.getD 1 0
    let c := e.c.taken i .mgmt pkt
    let drop := { e with c := c.inc EZ.SL_DROP_DIR_DROP i }
    i < 68 → e.Receives i .mgmt 6 pkt → m.cls = 6 →
    (m.routed = false → YieldsEz (.debug .elzel p pkt) s drop)
    ∧ (m.routed = true → m.up = false → i < 64 → YieldsEz (.debug .elzel p pkt) s drop)
    ∧ (m.routed = true → m.up = false → i = e.c.uplink → m.level = e.c.rd EZ.ROLE_ROLE → m.dst = e.c.rd EZ.ROLE_PREFIX →
      let r : Mgmt := { len := 1, cls := 6, routed := true, up := true, level := 3, dst := m.src, src := e.c.srcCoord i, tag := m.tag, lvl := m.lvl }
      let answers := fun (st : Nat) (w : Word) => { e with c := c.queued i .mgmt [r.flit, f128 (put 127 120 st + w.toNat)] }
      (bits f 127 124 ≠ 1 → bits f 127 124 ≠ 2 → YieldsEz (.debug .elzel p pkt) s (answers 2 0))
      ∧ (bits f 127 124 = 1 → bits f 123 122 = 0 → bits f 121 96 = 0 → bits f 95 64 = EZ.LNC_CTL → pkt.length = 2 →
          YieldsEz (.debug .elzel p pkt) s (answers 0 (e.c.get EZ.LNC_CTL)))
      ∧ (bits f 127 124 = 1 → bits f 123 122 ≠ 0 ∨ bits f 121 96 ≠ 0 ∨ bits f 95 64 % 8 ≠ 0 ∨ pkt.length ≠ 2 → YieldsEz (.debug .elzel p pkt) s (answers 3 0)))
    ∧ (∀ x : MonRun, m.routed = true → m.up = true → i < 64 → m.dst = e.c.rd EZ.ROLE_PREFIX → e.mon = some x → x.tag = m.tag → x.rest = [] →
      let line := if bits f 127 120 ≠ 0 then MonLine.status (bits f 127 120) else if x.cur.write ∧ x.got = [] then .status 0
        else .words (if x.cur.write then x.got.reverse else x.got.reverse ++ [w64 (bits f 63 0)])
      YieldsEz (.debug .elzel p pkt) s { e with c := c, mon := none, console := line :: e.console }))
  ∧ (∀ (s : State) (p : BitVec 7) (pkt : Pkt) (rest : List Pkt), s.running .garja → s.gj.Calm → s.gj.c.den.run = none →
    let c := s.gj.c
    let i := p.toNat
    let m := mgmtOf (pkt.headD 0)
    let f := pkt.getD 1 0
    let d := c.taken i .mgmt pkt
    let r : Mgmt := { len := 1, cls := 6, routed := true, up := true, level := 3, dst := m.src, src := c.srcCoord i, tag := m.tag, lvl := m.lvl }
    let answers := fun (st : Nat) (w : Word) => { s.gj with c := d.queued i .mgmt [r.flit, f128 (put 127 120 st + w.toNat)] }
    i < 2 → c.up i = true → bits (pkt.headD 0) 127 124 = 6 → m.cls = 6 → (c.link i).rx.mgmt = pkt :: rest →
    (m.up = true ∨ m.routed = false → YieldsGj (.debug .garja p pkt) s { s.gj with c := d.inc GJ.SL_DROP_DIR_DROP i })
    ∧ (m.up = false → m.routed = true →
      (bits f 127 124 ≠ 1 → bits f 127 124 ≠ 2 → YieldsGj (.debug .garja p pkt) s (answers 2 0))
      ∧ (∀ k, bits f 127 124 = 1 → bits f 123 122 = 0 → bits f 121 96 = 0 → k < 256 → bits f 95 64 = GJ.SQ_ADDR + 8 * k → pkt.length = 2 →
          YieldsGj (.debug .garja p pkt) s (answers 0 (c.get (GJ.SQ_ADDR + 8 * k))))))

/-! ### References and the clean-up loop (05) -/

/-- R103 to R115, R134: updates, jumps, hold-offs and qualification of a source; the switch back to a better one; ACCEPT; the loop opened, closed, trimmed and realigned; the
OCXO and the end of the specification of a HOLDOVER. -/
def Obligations.ReferencesAreWatched : Prop :=
  ∀ (s : State) (src : BitVec 3), s.running .elzel →
    let c := s.ez.c
    let n := src.toNat
    let x := c.source n
    let y := Yields .elzel
    (∀ (e off : BitVec 48),
      let i := Instr.refUpdate src e off
      let w := c.wrS EZ.REF_SST_OFFSET off.toInt n
      let jumps := fun (tn td : Nat) =>
        ((off.toInt - c.rdS EZ.REF_SST_OFFSET n) * (td : Int) - c.rdS EZ.CLN_DCO_TRIM * (tn : Int)).natAbs > c.rd EZ.REF_SRC_JUMP_THR n * 65536 * td
      let seen := w.onSource n (fun x => { x with known := true })
      (6 ≤ n → y i s c) ∧ (n < 6 → c.srcState n = 0 → y i s w)
      ∧ (n < 6 → c.srcState n ≠ 0 → c.refSel ≠ n →
        (x.known = false ∨ ¬ jumps (c.refTau n).1 (c.refTau n).2 → y i s seen)
        ∧ (x.known = true → jumps (c.refTau n).1 (c.refTau n).2 → y i s
            (((((seen.wr EZ.REF_SST_STATE 3 n).wr EZ.REF_SST_REASON 3 n).inc EZ.REF_SST_JUMPS n).onSource n
              (fun x => { x with accepted := false, holdoffEnd := c.now + c.rd EZ.REF_SRC_HOLDOFF n * 1000000000 })))))
      ∧ (n = 2 ∨ n = 3 → c.srcState n = 2 → c.refSel = n → (x.known = false ∨ ¬ jumps 1 1) → c.flag EZ.CLN_CTL_OPEN = false → c.refLock = 2 →
          c.refLocal = false → c.flag EZ.TS_STATUS_LATCHED = false → e.toInt.natAbs * 1000 ≤ c.rd EZ.CLN_CTL_LOCK_THR * 65536 →
          c.rd EZ.CLN_CTL_LOCK_THR ≤ c.rd EZ.CLN_CTL_UNLOCK_THR →
          let i1 := c.ref.i + e.toInt * ((2 ^ 80 : Nat) : Int) / ((2 ^ c.rd EZ.CLN_CTL_KI_SHIFT : Nat) : Int)
          let v := clampTrim (divNear (i1 + e.toInt * ((2 ^ 80 : Nat) : Int) / ((2 ^ c.rd EZ.CLN_CTL_KP_SHIFT : Nat) : Int)) (2 ^ 80))
          let keep := c.ref.hist.filter (fun h => decide (h.1 + (c.rd EZ.CLN_CTL_HOLD_AVG + 64) * 1000000000 ≥ c.now))
          let d := (seen.wrS EZ.CLN_STATUS_E (clampS 32 e.toInt)).setTrim v
          e.toInt.natAbs < 1000 * 65536 → y i s { d with ref := { d.ref with e := e.toInt, i := i1, yEntry := none, hist := (c.now, v) :: keep, outCnt := 0 } }))
    ∧ (∀ t, n < 6 → c.srcState n = 1 → x.healthySince = some t →
      (c.now < t + c.rd EZ.REF_SRC_QUAL_TIME n * 1000000 → y (.qualTimeExpired src) s c)
      ∧ (t + c.rd EZ.REF_SRC_QUAL_TIME n * 1000000 ≤ c.now → y (.qualTimeExpired src) s (c.wr EZ.REF_SST_STATE 2 n)))
    ∧ (n < 6 → c.srcState n = 3 →
      (c.now < x.holdoffEnd → y (.refHoldoffExpired src) s c)
      ∧ (x.holdoffEnd ≤ c.now → y (.refHoldoffExpired src) s ((c.wr EZ.REF_SST_STATE 1 n).onSource n (fun x => { x with healthySince := some c.now }))))
    ∧ (∀ (b t : Nat), c.ref.better = some (b, t) → b ≠ 7 → c.refSel ≠ 7 → c.isRoot = true → c.refLock = 2 → t ≤ c.now →
      let due := c.flag EZ.REF_CTL_REVERT = true ∧ c.rd EZ.REF_CTL_WTR * 1000000000 ≤ c.now - t
      (¬ due → y .wtrExpired s c)
      ∧ (due → b < 6 → b ≠ c.refSel → y .wtrExpired s { c.wr EZ.REF_STATUS_SEL b with ref := { c.ref with better := none, localLatched := false } }))
    ∧ (if n < 6 ∧ (c.srcState n = 2 ∨ c.srcState n = 4) then y (.refAccept src) s ((c.wr EZ.REF_SST_STATE 2 n).onSource n (fun x => { x with accepted := true }))
      else y (.refAccept src) s (c.inc EZ.REF_STATUS_WR_IGN))
    ∧ (∀ v : BitVec 32, y (.dcoTrimWrite v) s (if c.flag EZ.CLN_CTL_OPEN then
        (c.wrS EZ.CLN_DCO_TRIM (clampTrim v.toInt)).wrS EZ.CLN_STATUS_Y (clampTrim v.toInt) else c.inc EZ.REF_STATUS_WR_IGN))
    ∧ (∀ op fz : Bool,
      let w := (c.wr EZ.CLN_CTL_OPEN (b2n op)).wr EZ.CLN_CTL_FREEZE (b2n fz)
      (op = true → c.refLock ≠ 2 → y (.loopOpenWrite op fz) s w)
      ∧ (op = true → fz = true → c.refLock = 2 → y (.loopOpenWrite op fz) s
          { (w.wr EZ.REF_STATUS_LOCK 3).wr EZ.REF_STATUS_SPEC
              (b2n (c.isRoot && decide (1000 * 1000000000 ≤ c.now - c.ref.lockedSince) && !c.ref.ocxoBad)) with ref := { c.ref with holdSince := c.now } })
      ∧ (op = false → c.refSel ≠ 7 → c.refLock = 3 → y (.loopOpenWrite op fz) s
          { (w.wr EZ.REF_STATUS_LOCK 1).wr EZ.REF_STATUS_SPEC 0 with
            ref := { c.ref with inCnt := 0, outCnt := 0, i := c.rdS EZ.CLN_DCO_TRIM * ((2 ^ 80 : Nat) : Int) } }))
    ∧ (∀ ppb : BitVec 32,
      (ppb.toInt.natAbs ≤ 100 → y (.ocxoCompare ppb) s { c with ref := { c.ref with ocxoBad := false } })
      ∧ (100 < ppb.toInt.natAbs → c.ref.ocxoBad = false → y (.ocxoCompare ppb) s
          { (c.wr EZ.REF_STATUS_OCXO_FAULT 1).wr EZ.REF_STATUS_SPEC 0 with ref := { c.ref with ocxoBad := true } }))
    ∧ (c.flag EZ.REF_STATUS_SPEC = true → c.refLock = 3 → 86400 * 1000000000 ≤ c.now - c.ref.holdSince → y .holdSpecEnd s (c.wr EZ.REF_STATUS_SPEC 0))
    ∧ (c.now - c.ref.holdSince < 86400 * 1000000000 → y .holdSpecEnd s c)
    ∧ y .realignWrite s { c.wr EZ.TS_STATUS_LATCHED 0 with ref := { c.ref with latch := 0, yEntry := some (c.rdS EZ.CLN_DCO_TRIM) } }

/-- R102, R103, R106, R107, R112: at a leading root, at one tick: a source that is first healthy begins to qualify; the one QUALIFIED source is selected, and the loop
goes to ACQUIRE; the selected source lost with no other to select, the loop holds. -/
def Obligations.SelectorsTick : Prop :=
  ∀ (s : State) (k : Nat) (o : SrcObs), s.running .elzel → (k = 2 ∨ k = 3) →
    let c := s.ez.c
    let absent : SrcObs := { present := false, tenMHz := false, near10 := false, freqPpb := 0 }
    let i := Instr.selectorTick ((List.range 6).map (fun n => if n = k then o else absent))
    let off := fun (c : Chip .elzel) => (List.range 6).foldl (fun c n => if n = k then c else c.onSource n (fun x => { x with healthySince := none })) c
    let healthy := o.present = true ∧ (c.flag EZ.REF_SRC_NEED_10M k = true → o.tenMHz = true) ∧ (o.tenMHz = true → o.near10 = true)
      ∧ o.freqPpb.toInt.natAbs ≤ (if 2 ≤ c.refLock then c.rd EZ.REF_SRC_FREQ_LIM k else 2000)
    c.isRoot = true → c.flag EZ.ROLE_DOMAIN = false → c.input ≠ 7 ∨ (c.up 66 = false ∧ c.up 67 = false) →
    (∀ n, n < 6 → n ≠ k → c.srcState n = 0) →
    (healthy → c.srcState k = 0 → (c.source k).healthySince = none → c.refSel = 7 → c.refLock = 0 →
      Yields .elzel i s (((off c).wr EZ.REF_SST_STATE 1 k).onSource k (fun x => { x with healthySince := some c.now })))
    ∧ (∀ t, healthy → c.srcState k = 2 → (c.source k).healthySince = some t → c.refSel = 7 → c.refLock = 0 → c.flag EZ.CLN_CTL_OPEN = false →
      bits (c.get EZ.REF_PRIO) (4 * k + 3) (4 * k) ≠ 15 →
      let d := off c
      Yields .elzel i s { ((d.wr EZ.REF_STATUS_SEL k).wr EZ.REF_STATUS_LOCK 1).wr EZ.REF_STATUS_SPEC 0 with
        ref := { d.ref with better := none, localLatched := false, inCnt := 0, outCnt := 0, i := 0 } })
    ∧ (o.present = false → c.srcState k = 2 → c.refSel = k → c.refLock = 2 → c.flag EZ.CLN_CTL_FREEZE = true → c.ref.ocxoBad = true →
      let d := (((off c).wr EZ.REF_SST_STATE 0 k).wr EZ.REF_SST_REASON 1 k).onSource k (fun x => { x with accepted := false, known := false, healthySince := none })
      Yields .elzel i s { ((d.wr EZ.REF_STATUS_SEL 7).wr EZ.REF_STATUS_LOCK 3).wr EZ.REF_STATUS_SPEC 0 with
        ref := { d.ref with better := none, localLatched := false, holdSince := c.now } })

/-! ### External time ports, timed frames and outputs (07) -/

/-- R143 to R147: what an instance does with a message, a Sync and a silent master, what it sends in its role, and the values fetched from the root. -/
def Obligations.PtpInstancesRun : Prop :=
  ∀ (s : State) (pb : BitVec 7), s.ez.c.clocked = true →
    let e := s.ez
    let c := e.c
    let p := pb.toNat
    let x := e.port p
    let mode := c.rd EZ.PTP_CTL_MODE p
    let st := c.rd EZ.PTP_STATUS_STATE p
    let p2p := c.flag EZ.PTP_CTL_P2P p
    let one := c.flag EZ.PTP_CTL_ONE_STEP p
    let y := YieldsEz
    let b := if st = 1 ∧ (mode = 1 ∨ mode = 2) then { e with c := c.wr EZ.PTP_STATUS_STATE (if mode = 1 then 4 else 6) p } else e
    let sends := fun (ks : List PtpKind) => b.onPtp p (fun x => { x with sent := ks ++ x.sent })
    p < 2 →
    (∀ m : PtpMsg,
      let got := b.onPtp p (fun x => { x with lastRx := some (m.stamp, c.steps) })
      let answers := fun (ks : List PtpKind) => got.onPtp p (fun x => { x with sent := ks ++ x.sent })
      (mode = 0 ∨ mode = 3 → y (.ptpMessage pb m) s got)
      ∧ (mode = 1 ∨ mode = 2 → m.supported = false ∨ m.kind = .management ∨ m.kind = .signalling →
          y (.ptpMessage pb m) s (got.onC (·.inc EZ.PTP_STATUS_UNSUP p)))
      ∧ (mode = 2 → m.supported = true → m.kind = .announce → y (.ptpMessage pb m) s (got.onC (·.inc EZ.PTP_STATUS_FOREIGN p)))
      ∧ (mode = 1 → m.supported = true → m.kind = .announce → x.masters = [] → x.best = none → y (.ptpMessage pb m) s
          ((got.onPtp p (fun x => { x with masters := [⟨m, c.now⟩], best := some m.sender })).onC
            (fun c => (c.wr EZ.PTP_STATUS_STATE 8 p).wr EZ.PTP_STATUS_CLASS m.clockClass.toNat p)))
      ∧ (mode = 2 → m.supported = true → m.kind = .delayReq → y (.ptpMessage pb m) s (if p2p then got else answers [.delayResp]))
      ∧ (mode = 1 ∨ mode = 2 → m.supported = true → m.kind = .pdelayReq → y (.ptpMessage pb m) s
          (if p2p then (answers (if one then [.pdelayResp] else [.pdelayRespFollowUp, .pdelayResp])).onPtp p (fun x => { x with pdelayRx := m.stamp }) else got)))
    ∧ (∀ (off : BitVec 48) (mpd : BitVec 32),
      let d := (c.wr EZ.PTP_STATUS_STATE 9 p).wr EZ.PTP_STATUS_MPD mpd.toNat p
      (mode ≠ 1 ∨ (st ≠ 8 ∧ st ≠ 9) → y (.ptpSync pb off mpd) s e)
      ∧ (mode = 1 → st = 8 → y (.ptpSync pb off mpd) s { e with c := d })
      ∧ (mode = 1 → st = 9 → c.rd EZ.REF_SST_STATE (4 + p) = 0 → y (.ptpSync pb off mpd) s { e with c := d.wrS EZ.REF_SST_OFFSET (-off.toInt) (4 + p) }))
    ∧ y (.ptpClassFetch pb none) s e
    ∧ (∀ v, y (.ptpClassFetch pb (some v)) s (if c.isRoot then e else e.onPtp p (fun x => { x with fetched := some v, fetchedAt := c.now })))
    ∧ (mode = 2 →
      y (.ptpMessageDue pb .sync) s (sends (if one then [.sync] else [.followUp, .sync])) ∧ y (.ptpMessageDue pb .announce) s (sends [.announce])
      ∧ y (.ptpMessageDue pb .pdelayReq) s (if p2p then sends [.pdelayReq] else b) ∧ y (.ptpMessageDue pb .delayReq) s b)
    ∧ (mode = 1 → st = 8 ∨ st = 9 →
      y (.ptpMessageDue pb .sync) s e ∧ y (.ptpMessageDue pb .announce) s e
      ∧ y (.ptpMessageDue pb .pdelayReq) s (if p2p then sends [.pdelayReq] else e) ∧ y (.ptpMessageDue pb .delayReq) s (if p2p then e else sends [.delayReq]))
    ∧ (∀ m : Master, x.masters = [m] →
      let lim := c.rd EZ.PTP_CTL_ANN_TO p * 2 ^ c.rd EZ.PTP_CTL_LOG_ANN p * 1000000000
      2 ≤ c.rd EZ.PTP_CTL_ANN_TO p → c.rd EZ.PTP_CTL_ANN_TO p ≤ 7 → c.rd EZ.PTP_CTL_LOG_ANN p ≤ 4 →
      (mode ≠ 1 ∨ c.now - m.heardAt < lim → y (.announceReceiptTimeout pb) s e)
      ∧ (mode = 1 → lim ≤ c.now - m.heardAt → y (.announceReceiptTimeout pb) s
          ((e.onPtp p (fun x => { x with masters := [], best := none })).onC (fun c => (c.wr EZ.PTP_STATUS_STATE 4 p).wr EZ.PTP_STATUS_CLASS 0 p))))

/-- R148 to R154: the timed transmit queue of a port, the launch of a timed frame, a late one, the frame that leaves with its FCS, and the transmit stamp queue. -/
def Obligations.TimedFramesLeave : Prop :=
  ∀ (s : State) (pb : BitVec 7), s.ez.c.clocked = true →
    let e := s.ez
    let c := e.c
    let p := pb.toNat
    let x := e.port p
    let y := YieldsEz
    let on := e.onPtp p
    let h := c.ht * 100 + 256 * 2 ^ 32
    let at_ := fun (d : TxDesc) => (bits d.d0 63 16 * 1000000000 + bits d.d1 63 34) * 2 ^ 32 * 100
    let stamped := fun (e : Elzel) (d : TxDesc) (late : Bool) (stamp : Nat) =>
      if bit d.d1 31 = false then e
      else if 64 ≤ x.tsq.length then
        (e.onC (fun c => (c.inc EZ.TXQ_STATUS_TSQ_OVF p).wr EZ.TXQ_STATUS_LOST_ID (bits d.d0 15 0) p)).onPtp p (fun x => { x with lostBefore := true })
      else
        let r : TxStamp := ⟨w64 (2 ^ 63 + put 62 62 (b2n x.lostBefore) + put 61 60 c.steps + put 59 59 (b2n late) + bits d.d0 15 0), w64 (stamp % 2 ^ 56), c.now⟩
        e.onPtp p (fun x => { x with tsq := x.tsq ++ [r], lostBefore := false })
    p < 2 →
    (∀ d1 : Word, y (.txqEnqueue pb d1) s (if 32 ≤ x.txq.length + (if x.head = .none_ then 0 else 1) then e.onC (·.inc EZ.TXQ_STATUS_FULL p)
        else on (fun x => { x with txq := x.txq ++ [⟨x.d0, d1⟩] })))
    ∧ (x.head ≠ .none_ ∨ x.txq = [] → y (.txqDescriptorHead pb) s e)
    ∧ (∀ (d : TxDesc) (rest : List TxDesc), x.head = .none_ → x.txq = d :: rest →
      let taken := on (fun x => { x with txq := rest })
      let now := fun (l : Bool) => on (fun x => { x with txq := rest, head := .sending d l })
      (bit d.d1 33 = false → y (.txqDescriptorHead pb) s (now false))
      ∧ (bit d.d1 33 = true → h ≤ at_ d → y (.txqDescriptorHead pb) s (on (fun x => { x with txq := rest, head := .waiting d })))
      ∧ (bit d.d1 33 = true → at_ d < h → bit d.d1 32 = true → y (.txqDescriptorHead pb) s ((now true).onC (·.inc EZ.TXQ_STATUS_LATE p)))
      ∧ (bit d.d1 33 = true → at_ d < h → bit d.d1 32 = false → y (.txqDescriptorHead pb) s (stamped (taken.onC (·.inc EZ.TXQ_STATUS_LATE p)) d true 0)))
    ∧ (∀ d : TxDesc, x.head = .waiting d →
      y (.timedFrameLaunch pb) s (if at_ d ≤ h then on (fun x => { x with head := .sending d false }) else e))
    ∧ (∀ (d : TxDesc) (late : Bool) (stamp : BitVec 80), x.head = .sending d late → bit d.d1 30 = false → 64 ≤ bits d.d1 29 18 → bits d.d1 29 18 ≤ 1522 →
      let f := memReadBytes e.frames (0x70000 + 0x20000 * p + 0x800 * bits d.d1 17 12) (bits d.d1 29 18 - 4)
      y (.frameTransmitted pb stamp) s (stamped (on (fun x => { x with head := .none_, lastFrame := f ++ (bytesBE 4 (fcs f)).reverse })) d late stamp.toNat))
    ∧ (x.tsq = [] → y (.etsRead pb) s e ∧ y (.txStampAgeDiscard pb) s e)
    ∧ (∀ (r : TxStamp) (rest : List TxStamp), x.tsq = r :: rest →
      y (.etsRead pb) s ((on (fun x => { x with tsq := rest })).onC (·.set (EZ.ETS_STAMP + 0x100 * p) r.stamp))
      ∧ y (.txStampAgeDiscard pb) s (if 2 ^ 39 ≤ c.now - r.at_ then (on (fun x => { x with tsq := rest })).onC (·.inc EZ.TXQ_STATUS_TSQ_OVF p) else e))

/-- R155 to R161: the 1PPS edge at a whole second, its squelch and the edge that follows another too soon; the step pulse enabled, each of its pulses, its realignment; and the
epoch mode. The DEV shown between a realignment and the next pulse is the model's reading (log entry 80). -/
def Obligations.OutputsPulse : Prop :=
  ∀ (s : State), s.ez.c.clocked = true →
    let e := s.ez
    let c := e.c
    let o := e.out
    let y := YieldsEz
    (∀ (stamp : BitVec 80) (ten : BitVec 32),
      let o := if c.flag EZ.PPS_CTL_TENM_EN then { o with trimTen := o.trimTen + divNear ten.toInt 8192 } else o
      let err : Int := Int.ofNat stamp.toNat - divNear ((c.rd EZ.PPS_CTL_LAT_PPS * 65536 : Nat) : Int) 1000 - Int.ofNat (c.htSec * 1000000000 % 2 ^ 64 * 65536)
      (c.flag EZ.PPS_CTL_PPS_EN = false ∨ (c.flag EZ.PPS_CTL_SQUELCH = true ∧ c.calLock < 2) → y (.ppsOutput stamp ten) s { e with out := o })
      ∧ (c.flag EZ.PPS_CTL_PPS_EN = true → (c.flag EZ.PPS_CTL_SQUELCH = false ∨ 2 ≤ c.calLock) →
        (∀ t w, o.lastPps = some (t, w) → c.now - t < 1000000 → y (.ppsOutput stamp ten) s { e with c := c.inc EZ.PPS_STATUS_SKIPPED, out := o })
        ∧ ((∀ t w, o.lastPps = some (t, w) → 1000000 ≤ c.now - t) → 1 ≤ c.rd EZ.PPS_CTL_WIDTH → c.rd EZ.PPS_CTL_WIDTH ≤ 999999 →
          y (.ppsOutput stamp ten) s { e with c := c.wrS EZ.PPS_STATUS_ERR err
                                              out := { o with trimPps := o.trimPps + divNear err 8192, lastPps := some (c.now, c.rd EZ.PPS_CTL_WIDTH * 1000) } })))
    ∧ (∀ stamp : BitVec 80,
      let dev := spDevOf c.gt o.spAnchor o.spPeriod
      let err : Int := Int.ofNat stamp.toNat - divNear ((c.rd EZ.PPS_CTL_LAT_SP * 65536 : Nat) : Int) 1000 - Int.ofNat (c.gt / 2 ^ 16 % 2 ^ 80)
      let m : Int := c.rd EZ.SPULSE_CTL_MAXADJ
      let grad := c.flag EZ.SPULSE_CTL_GRADUAL
      let adj := if o.spAlign = false then 0 else if grad = false then dev else if dev > m then m else if dev < -m then -m else dev
      let still := o.spAlign && grad && dev != 0
      (c.flag EZ.SPULSE_CTL_EN = false ∨ c.now < o.spNext → y (.stepPulse stamp) s e)
      ∧ (c.flag EZ.SPULSE_CTL_EN = true → o.spNext ≤ c.now → 100 ≤ o.spPeriod → 1 ≤ c.rd EZ.SPULSE_CTL_MAXADJ → y (.stepPulse stamp) s
          { e with c := (c.wrS EZ.SPULSE_STATUS_DEV dev).wr EZ.SPULSE_STATUS_ALIGNING (b2n still)
                   out := { o with spNext := (Int.ofNat (c.now + o.spPeriod) - adj).toNat, spDev := decide (10 < dev.natAbs), spAlign := still
                                   lastPulse := some (c.now, o.spWidth), trimSp := o.trimSp + divNear err 8192 } }))
    ∧ (∀ data : Word,
      let set := ((((c.wr EZ.SPULSE_CTL_EN 1).wr EZ.SPULSE_CTL_GRADUAL (bits data 61 61)).wr EZ.SPULSE_CTL_MAXADJ (bits data 60 48)).wr
        EZ.SPULSE_CTL_PERIOD (bits data 47 16)).wr EZ.SPULSE_CTL_WIDTH (bits data 15 0)
      let off : Chip .elzel := ((set.wr EZ.SPULSE_CTL_EN 0).wr EZ.SPULSE_STATUS_RUN 0).wr EZ.SPULSE_STATUS_ALIGNING 0
      let period := bits data 47 16
      let width := min (bits data 15 0) (period / 2)
      let anchor := (c.get EZ.SPULSE_ANCHOR).toNat
      100 ≤ period →
      (c.flag EZ.SPULSE_CTL_EN = true → y (.spulseEnable data) s { e with c := set })
      ∧ (c.flag EZ.SPULSE_CTL_EN = false → ∀ first, first % period = anchor % period → c.gtInt + 1000 ≤ first → first < c.gtInt + 1000 + period →
          y (.spulseEnable data) s { e with c := set.wr EZ.SPULSE_STATUS_RUN 1
                                            out := { o with spPeriod := period, spWidth := width, spAnchor := anchor
                                                            spNext := c.now + (first - c.gtInt), spDev := false } })
      ∧ (bit data 63 = false → y (.spulseRealign data) s { e with c := off, out := { o with spAlign := false } })
      ∧ (bit data 63 = true → c.flag EZ.SPULSE_CTL_EN = true → y (.spulseRealign data) s
          { e with c := (set.wrS EZ.SPULSE_STATUS_DEV (spDevOf (c.gt + (o.spNext - c.now) * 2 ^ 32) anchor period)).wr EZ.SPULSE_STATUS_ALIGNING (bits data 61 61)
                   out := { o with spPeriod := period, spWidth := width, spAnchor := anchor, spAlign := true } }))
    ∧ (∀ tai : Bool,
      (c.anyJob = true → y (.epochModeWrite tai) s { e with c := c.inc EZ.EPOCH_CTL_WR_IGN })
      ∧ (c.anyJob = false → c.flag EZ.EPOCH_CTL_MODE = tai → y (.epochModeWrite tai) s e)
      ∧ (c.anyJob = false → c.flag EZ.EPOCH_CTL_MODE = !tai →
        let d := (c.wr EZ.EPOCH_CTL_MODE (b2n tai)).wr EZ.EPOCH_CTL_ALIGNED 0
        (tai = false → y (.epochModeWrite tai) s { e with c := d })
        ∧ (tai = true → c.isRoot = false ∨ c.flag EZ.ROLE_DOMAIN = true ∨ c.refLock ≠ 2 →
            y (.epochModeWrite tai) s { e with c := { d with ref := { d.ref with latch := 0, localLatched := false } } })
        ∧ (tai = true → c.isRoot = true → c.flag EZ.ROLE_DOMAIN = false → c.refLock = 2 → y (.epochModeWrite tai) s
            { e with c := { (d.wr EZ.REF_STATUS_LOCK 1).wr EZ.REF_STATUS_SPEC 0 with
                            ref := { d.ref with latch := 0, localLatched := false, inCnt := 0, outCnt := 0 } } })))

/-! ### Events and interrupts (16) -/

/-- R318, R324, R325, R333: an event that a part raises is a record of eight words, and joins the queue for the enabled rings of its route; in Garja the ring of its context,
where the route asks for it. With no ring it is counted. Routes that also send the record up, or to the trace buffer, and a full queue are not covered here. -/
def Obligations.EventsAreRecorded : Prop :=
  (∀ (c : Chip .garja) (typ : Nat) (ctx step : Option Nat) (items : List Item), (0x20 ≤ typ ∧ typ < 0x120) ∨ (0x200 ≤ typ ∧ typ < 0x220) → c.pw.st = .run →
    let rt := c.get (if 0x200 ≤ typ then 0xE900 + 8 * (typ - 0x200) else 0xE000 + 8 * (typ - 0x20))
    let own := fun (x : Nat) => bit rt 47 = true ∧ c.flag GJ.EVT_CTXRING_EN x = true
    let ws := c.record typ ctx step c.stamp items
    let shared := (List.range 16).filter (fun r => bit rt (48 + r) && c.flag GJ.EVT_RING_CFG_EN r)
    let joins := fun (rs : List Nat) => c.raise typ ctx step items = { c with
      ev := { c.ev with queue := c.ev.queue ++ [{ words := ws, at_ := c.now, era := c.ev.era, rings := rs }] }, pw := { c.pw with idleSince := none } }
    bit rt 46 = false → c.ev.queue.length < 256 →
    ((∀ x, ctx = some x → ¬ own x) → shared ≠ [] → joins shared)
    ∧ (∀ x, ctx = some x → own x → c.flag GJ.EVT_RING_CFG_EN (c.rd GJ.EVT_CTXRING_RING x) = true → joins [c.rd GJ.EVT_CTXRING_RING x])
    ∧ ((∀ x, ctx = some x → ¬ own x) → shared = [] →
        c.raise typ ctx step items = { c.inc GJ.EVT_STATUS_NOROUTE with pw := { c.pw with idleSince := none } }))
  ∧ (∀ (c : Chip .elzel) (typ : Nat) (ctx step : Option Nat) (items : List Item), typ < 1024 →
    let ws := c.record typ ctx step c.stamp items
    let r := c.rd EZ.EVT_ROUTE_RING typ
    c.flag EZ.EVT_ROUTE_UP typ = false ∨ c.isRoot = true → c.flag EZ.EVT_ROUTE_JRNL typ = false → c.ev.queue.length < 4096 →
    c.raise typ ctx step items = (if c.flag EZ.EVT_ROUTE_RING_EN typ = true ∧ c.flag EZ.EVT_RING_CFG_EN r = true then
      { c with ev := { c.ev with queue := c.ev.queue ++ [{ words := ws, at_ := c.now, era := c.ev.era, rings := [r] }] } } else c.inc EZ.EVT_STATUS_NOROUTE))
  ∧ (∀ (u : Part) (c : Chip u) (typ : Nat) (ctx step : Option Nat) (stamp : Nat) (items : List Item), typ < 1024 → stamp < 2 ^ 32 →
    let ws := c.record typ ctx step stamp items
    ws.length = 8 ∧ bits (ws.getD 0 0) 63 54 = typ ∧ bits (ws.getD 0 0) 31 0 = stamp
    ∧ (∀ x, ctx = some x → x < 256 → bit (ws.getD 0 0) 45 = true ∧ bits (ws.getD 0 0) 39 32 = x) ∧ (ctx = none → bit (ws.getD 0 0) 45 = false)
    ∧ (∀ n, step = some n → n < 2 ^ 48 → bit (ws.getD 0 0) 44 = true ∧ bits (ws.getD 1 0) 47 0 = n) ∧ (step = none → bit (ws.getD 0 0) 44 = false)
    ∧ ws.getD 7 0 = c.origin)

/-- R41, R321 to R323, R325, R334: one record reaches its ring: EPOCH_MARK first, then EVT_LOST, then the record that is first; a write that fails is tried again and the second
failure disables the ring; a record too old is dropped; a ring enabled starts at CONS. -/
def Obligations.RecordsReachRings : Prop :=
  ∀ (s : State) (u : Part) (ring : BitVec 6), (s.chip u).clocked = true →
    let c := s.chip u
    let r := ring.toNat
    let st := c.ringSt r
    let fill := (c.rd (PT.EVT_RING_INDEX_PROD u) r + 2 ^ 32 - c.rd (PT.EVT_RING_INDEX_CONS u) r) % 2 ^ 32
    let size := 2 ^ c.rd (PT.EVT_RING_CFG_LOG2N u) r
    let waits := c.ev.queue.filter (fun e => e.rings.contains r)
    let prod := c.rd (PT.EVT_RING_INDEX_PROD u) r
    let arms := fun (d : Chip u) => (match u, d with
      | .garja, d => d
      | .elzel, d => if d.flag EZ.EVT_RING_CFG_ARM r then (d.wr EZ.EVT_RING_CFG_ARM 0 r).msixSend (1024 + r) else d : Chip u)
    let mem := fun (ws : List Word) => memWriteWord (memWriteWords (s.memOf u) (64 * c.rd (PT.EVT_RING_BASE_BASE u) r + 64 * (prod % size)) ws)
      (8 * c.rd (PT.EVT_RING_PSHADOW_PSHADOW u) r) (w64 ((prod + 1) % 2 ^ 32))
    let writes := fun (ws : List Word) (d : Chip u) => exec (.eventRecordWrite u ring true) s = .next (s.withRings u
      (arms ((d.wr (PT.EVT_RING_INDEX_PROD u) ((prod + 1) % 2 ^ 32) r).onRing r (fun x => { x with failed := false })))
      (mem (setBits (ws.headD 0) 53 46 (prod % 256) :: ws.tail)))
    let same := exec (.eventRecordWrite u ring true) s = .next s
    r < ringCount u → 6 ≤ c.rd (PT.EVT_RING_CFG_LOG2N u) r → c.rd (PT.EVT_RING_CFG_LOG2N u) r ≤ 16 →
    (c.ringOn r = false ∨ size ≤ fill ∨ (st.markFirst = false ∧ waits = []) → same)
    ∧ (c.ringOn r = true → fill < size →
      (st.markFirst = true →
        writes (c.record (EV.EPOCH_MARK u) none none c.stamp [i32 (c.gtInt / 2 ^ 32)]) (c.onRing r (fun x => { x with markFirst := false })))
      ∧ (∀ e, st.markFirst = false → e ∈ waits → (∀ x ∈ waits, x = e ∨ (e.before x = true ∧ x.before e = false)) →
        (st.lost = 0 → writes e.words { c with ev := { c.ev with queue := c.ev.queue.filterMap (fun x =>
            if x = e then (if x.rings.erase r = [] then none else some { x with rings := x.rings.erase r }) else some x) } })
        ∧ (0 < st.lost → fill + 3 ≤ size → writes (c.record (EV.EVT_LOST u) none none st.lostStamp [i8 r, i16 st.lost, i16 st.lostTyp])
            (c.onRing r (fun x => { x with lost := 0, lostTyp := 0, lostStamp := 0, markFirst := true })))
        ∧ (0 < st.lost → size < fill + 3 → same))
      ∧ (st.markFirst = true → st.failed = false → exec (.eventRecordWrite u ring false) s
          = .next (s.withRings u (c.onRing r (fun x => { x with failed := true })) (s.memOf u)))
      ∧ (st.markFirst = true → st.failed = true → waits = [] →
          let d := ((c.wr (PT.EVT_RING_CFG_EN u) 0 r).inc (PT.EVT_STATUS_INIT_FAULT u)).onRing r (fun x => { x with failed := false })
          exec (.eventRecordWrite u ring false) s
            = .next (s.withRings u (match u, d with | .garja, d => d.latchIrq 14 | .elzel, d => d) (s.memOf u))))
    ∧ ((∀ e ∈ waits, c.now - e.at_ < 100000000) → exec (.recordAgeDrop u ring) s = .next s)
    ∧ (∀ e, waits = [e] → e.rings = [r] → c.ev.queue = [e] → 100000000 ≤ c.now - e.at_ → ∃ t, exec (.recordAgeDrop u ring) s = .next t
        ∧ t = s.onDen u (fun _ => t.chip u) ∧ (t.chip u).ev.queue = [] ∧ (t.chip u).get ((PT.EVT_RING_CFG_DROP u).off + 0x20 * r)
            = (c.inc (PT.EVT_RING_CFG_DROP u) r).get ((PT.EVT_RING_CFG_DROP u).off + 0x20 * r)
        ∧ (r < c.ev.rings.length → ((t.chip u).ringSt r).lost = st.lost + 1)
        ∧ (t.chip u).rd (PT.IRQ_PEND_PEND u) = (c.latchIrq (match u with | .garja => 13 | .elzel => 10)).rd (PT.IRQ_PEND_PEND u))
    ∧ (c.pw.st = .run → c.ringOn r = true → exec (.ringEnable u ring) s = .next (s.onDen u (fun c => c.touched)))
    ∧ (c.pw.st = .run → c.ringOn r = false → exec (.ringEnable u ring) s = .next (s.onDen u (fun c =>
        ((c.touched.wr (PT.EVT_RING_CFG_EN u) 1 r).wr (PT.EVT_RING_INDEX_PROD u) (c.rd (PT.EVT_RING_INDEX_CONS u) r) r).onRing r
          (fun x => { x with markFirst := true, failed := false }))))

/-- R327 to R329, R331, R334: the eligible message source of the highest PRIO, and of those the lowest number, is delivered and stacked; an end of interrupt takes the top of its
processor's stack, and another is a stray; sources raised and cleared; the doorbell of an Elzel ring. -/
def Obligations.MessagesAndInterrupts : Prop :=
  (∀ (s : State), s.running .garja →
    let c := s.gj.c
    let prio := fun (k : Nat) => c.rd GJ.MSG_SRC_PRIO k
    let dest := fun (k : Nat) => c.rd GJ.MSG_SRC_DEST k
    let pend := fun (k : Nat) => if k < 16 then c.flag GJ.EVT_RING_CFG_EN k = true ∧ c.ringProd k ≠ c.ringCons k else c.ev.raised.testBit (k - 16) = true
    let may := fun (k : Nat) => k < 24 ∧ c.flag GJ.MSG_SRC_EN k = true ∧ pend k ∧ c.ev.inSvc.testBit k = false
      ∧ (∀ top, (c.stack (dest k)).head? = some top → top.2 < prio k)
    let with_ := fun (d : Chip .garja) => ({ s with gj := { s.gj with c := d } } : State)
    let run := c.touched
    ((∀ k, ¬ may k) → exec .messageDelivery s = .next s)
    ∧ (∀ k, may k → (∀ j, may j → prio j < prio k ∨ (prio j = prio k ∧ k ≤ j)) →
      let d := c.inc GJ.EVT_PROC_SENT (dest k)
      exec .messageDelivery s = .next (with_ { d with ev := { d.ev with
        raised := if 16 ≤ k then c.ev.raised - 2 ^ (k - 16) else c.ev.raised, inSvc := c.ev.inSvc + 2 ^ k
        prio := upd c.ev.prio (dest k) (fun st => (k, prio k) :: st), lastMsg := some (dest k, c.rd GJ.MSG_SRC_VECTOR k) } }))
    ∧ (∀ (p : BitVec 3) (k : BitVec 5),
      (∀ pr rest, c.stack p.toNat = (k.toNat, pr) :: rest → c.ev.inSvc.testBit k.toNat = true → exec (.eoi p k) s = .next (with_ { run with
        ev := { c.ev with prio := upd c.ev.prio p.toNat (fun _ => rest), inSvc := c.ev.inSvc - 2 ^ k.toNat } }))
      ∧ ((∀ top, (c.stack p.toNat).head? = some top → top.1 ≠ k.toNat) → exec (.eoi p k) s = .next (with_ (run.inc GJ.EVT_PROC_STRAY p.toNat))))
    ∧ (∀ v : BitVec 8, exec (.msgRaise v) s = .next (with_ { run with ev := { c.ev with raised := Nat.lor c.ev.raised v.toNat } })))
  ∧ (∀ (s : State) (u : Part) (v : BitVec 16), s.running u →
    let c := s.chip u
    let old := c.rd (PT.IRQ_PEND_PEND u)
    old.testBit 9 = false ∨ v.toNat.testBit 9 = false →
    exec (.irqPendClear u v) s = .next (s.onDen u (fun c => c.touched.wr (PT.IRQ_PEND_PEND u) (old - Nat.land old v.toNat))))
  ∧ (∀ (s : State) (ring : BitVec 6) (data : Word), s.ez.c.clocked = true →
    let c := s.ez.c
    let r := ring.toNat
    let d := (c.wr EZ.EVT_RING_INDEX_CONS (bits data 31 0) r).wr EZ.EVT_RING_CFG_ARM (bits data 63 63) r
    let sends := bit data 63 = true ∧ c.flag EZ.EVT_RING_CFG_EN r = true ∧ c.rd EZ.EVT_RING_INDEX_PROD r ≠ bits data 31 0
    (¬ sends → exec (.ringDoorbell ring data) s = .next (s.onDen .elzel (fun _ => d)))
    ∧ (sends → exec (.ringDoorbell ring data) s = .next (s.onDen .elzel (fun _ => (d.wr EZ.EVT_RING_CFG_ARM 0 r).msixSend (1024 + r)))))

/-! ### Rules stated whole, and the block as a whole -/

/-- R127: a read of EZ_HT_SEC gives the seconds, and copies the nanoseconds and the fraction of that moment into EZ_HT_NS, which every later read of EZ_HT_NS, whoever makes it, gives. -/
def Obligations.SecondsReadsLatch : Prop :=
  ∀ (s : State), s.ez.c.clocked = true →
    let c := s.ez.c
    let latched := (c.wr EZ.HT_NS_NS c.htNs).wr EZ.HT_NS_FRAC c.htFrac
    Yields .elzel .htSecRead s latched
    ∧ (∀ o : Order, s.Takes .elzel o →
      Answers .elzel (.regRead .elzel o (BitVec.ofNat 24 EZ.HT_SEC) 0) s o 3 latched { st := 0, body := [w64 c.htSec] }
      ∧ Answers .elzel (.regRead .elzel o (BitVec.ofNat 24 EZ.HT_NS) 0) s o 3 c { st := 0, body := [c.get EZ.HT_NS] })

/-- R204: a processor that does not own a context, a processor that the build lacks, a tile and the host may not park, resume, tear down or abandon it: the command is DENIED and the context stays. -/
def Obligations.OnlyOwnersCommandContexts : Prop :=
  ∀ (s : State) (r : Requester) (ctx : BitVec 8) (i : Instr), s.running .garja → s.gj.Calm →
    (∃ b, i = .park r ctx b) ∨ (∃ b, i = .resume r ctx b) ∨ i = .teardown r ctx ∨ i = .abandon r ctx →
    let g := s.gj
    let x := ctx.toNat
    (g.commands r = false → YieldsGj i s (g.answered r 6))
    ∧ (∀ p, r = .proc p → p.toNat < g.c.prm.nProc → p.toNat ≠ g.c.rd GJ.CTX_STATE_OWNER x →
        ∃ t, exec i s = .next t ∧ t = { s with gj := { s.gj with c := t.gj.c } } ∧ t.gj.c.rd GJ.CTX_CMDSTAT_STATUS = 6 ∧ t.gj.c.rd GJ.CTX_CMDSTAT_DONE = 1
          ∧ ∀ y, y < 256 → t.gj.c.get (GJ.CTX_STATE + 8 * y) = g.c.get (GJ.CTX_STATE + 8 * y))

/-- R7, R416, R456: what reset leaves: time 0, both parts held by their power-on resets, no context and no sequencer in use, no set open, no link up, and registers at the values of
their Reset columns. Memory lists no byte (log entry 1) and no command waits. -/
def Obligations.ResetLeaves : Prop :=
  let s := State.reset
  let g := s.gj.c
  let e := s.ez.c
  s.pending = [] ∧ s.dieMem = [] ∧ s.hostMem = [] ∧ s.canon = true ∧ g.gt = 0 ∧ e.gt = 0 ∧ e.htSec = 0 ∧ e.rd EZ.BOOT_STATUS_STAGE = 0
    ∧ g.get 0x108 = 0x8000000000000000 ∧ g.get 0x110 = 0 ∧ g.get 0x128 = 0x100000000 ∧ g.get 0x130 = 0x400000000000
    ∧ (∀ x, x < 256 → s.gj.ctxState x = 0 ∧ g.rd GJ.SQ_CTX_STATE_STATE x = 0)
    ∧ (∀ k, k < 4 → g.rd GJ.STG_S_W0_STATE k = 0) ∧ (∀ k, k < 16 → e.rd EZ.STG_S_W0_STATE k = 0)
    ∧ (∀ p, p < 2 → g.up p = false) ∧ (∀ p, p < 68 → e.up p = false)

/-- The block's step: the command at the front of the queue runs on the state with the queue's rest, and with no command a tick of each part passes (log entry 4); no word spells a command. -/
def Obligations.StepsRunTheFront : Prop :=
  (∀ (s : State) (i : Instr) (rest : List Instr), step { s with pending := i :: rest } = exec i { s with pending := rest })
  ∧ (∀ s : State, s.pending = [] → step s = .next s.idle)
  ∧ (∀ (s : State) (nbits w : Nat), decodeTableWord nbits w = none ∧ s.withFetchWord nbits w = s)

/-- Every command completes, leaves the queue alone, and acts on one part alone: Garja and the memory of its die, or Elzel and the memory of its host. -/
def Obligations.CommandsActOnOnePart : Prop :=
  ∀ (i : Instr) (s : State), ∃ t, exec i s = .next t ∧ t.pending = s.pending
    ∧ ((t.gj = s.gj ∧ t.dieMem = s.dieMem) ∨ (t.ez = s.ez ∧ t.hostMem = s.hostMem))

/-- Every step keeps both memories in canonical form: addresses rising, and no byte listed that an unlisted address reads as. -/
def Obligations.StepsKeepMemoriesCanonical : Prop :=
  ∀ (s t : State), s.canon = true → step s = .next t → t.canon = true
end

