-- ==== Sys2Proof/Laws/Bits.lean ====
section
/-!
SUPPORT. Sys2Proof/Laws/Bits.lean: what reading a field of a word gives after a field has been written, and list updates.
-/
namespace Sys2Proof.Machine

/-- A number split at a field: what lies above it, the field, and what lies below. -/
theorem natBits_split (w hi lo : Nat) (h : lo ≤ hi) :
    w = 2 ^ (hi + 1) * (w / 2 ^ (hi + 1)) + (2 ^ lo * natBits w hi lo + w % 2 ^ lo) := by
  have e : 2 ^ (hi + 1) = 2 ^ lo * 2 ^ (hi + 1 - lo) := by rw [← Nat.pow_add]; congr 1; omega
  have a := Nat.div_add_mod w (2 ^ lo)
  have b := Nat.div_add_mod (w / 2 ^ lo) (2 ^ (hi + 1 - lo))
  have c : w / 2 ^ (hi + 1) = w / 2 ^ lo / 2 ^ (hi + 1 - lo) := by rw [e, Nat.div_div_eq_div_mul]
  rw [natBits, Nat.shiftRight_eq_div_pow, c, e, Nat.mul_assoc]
  calc w = 2 ^ lo * (w / 2 ^ lo) + w % 2 ^ lo := a.symm
    _ = 2 ^ lo * (2 ^ (hi + 1 - lo) * (w / 2 ^ lo / 2 ^ (hi + 1 - lo)) + w / 2 ^ lo % 2 ^ (hi + 1 - lo)) + w % 2 ^ lo := by rw [b]
    _ = _ := by rw [Nat.mul_add]; omega

/-- A word with a field replaced, as a number. -/
theorem setBits_toNat (w : Word) (hi lo v : Nat) (h : lo ≤ hi) (h63 : hi < 64) :
    (setBits w hi lo v).toNat
      = 2 ^ (hi + 1) * (w.toNat / 2 ^ (hi + 1)) + (2 ^ lo * (v % 2 ^ (hi + 1 - lo)) + w.toNat % 2 ^ lo) := by
  have s := natBits_split w.toNat hi lo h
  have e : 2 ^ (hi + 1) = 2 ^ lo * 2 ^ (hi + 1 - lo) := by rw [← Nat.pow_add]; congr 1; omega
  have e64 : 2 ^ 64 = 2 ^ (hi + 1) * 2 ^ (63 - hi) := by rw [← Nat.pow_add]; congr 1; omega
  have hv : v % 2 ^ (hi + 1 - lo) < 2 ^ (hi + 1 - lo) := Nat.mod_lt _ (Nat.two_pow_pos _)
  have hl : w.toNat % 2 ^ lo < 2 ^ lo := Nat.mod_lt _ (Nat.two_pow_pos _)
  have hq : w.toNat / 2 ^ (hi + 1) < 2 ^ (63 - hi) := by
    rw [Nat.div_lt_iff_lt_mul (Nat.two_pow_pos _), Nat.mul_comm, ← e64]; exact w.isLt
  have small : 2 ^ lo * (v % 2 ^ (hi + 1 - lo)) + w.toNat % 2 ^ lo < 2 ^ (hi + 1) := by
    have := Nat.mul_le_mul_left (2 ^ lo) (Nat.succ_le_of_lt hv)
    rw [← e, Nat.mul_succ] at this; omega
  have big : 2 ^ (hi + 1) * (w.toNat / 2 ^ (hi + 1)) + (2 ^ lo * (v % 2 ^ (hi + 1 - lo)) + w.toNat % 2 ^ lo) < 2 ^ 64 := by
    have := Nat.mul_le_mul_left (2 ^ (hi + 1)) (Nat.succ_le_of_lt hq)
    rw [← e64, Nat.mul_succ] at this; omega
  have val : w.toNat - natBits w.toNat hi lo * 2 ^ lo + (v % 2 ^ (hi + 1 - lo)) * 2 ^ lo
      = 2 ^ (hi + 1) * (w.toNat / 2 ^ (hi + 1)) + (2 ^ lo * (v % 2 ^ (hi + 1 - lo)) + w.toNat % 2 ^ lo) := by
    rw [Nat.mul_comm (natBits _ _ _), Nat.mul_comm (v % _)]; omega
  rw [setBits, BitVec.toNat_ofNat, val, Nat.mod_eq_of_lt big]

/-- Bit j of a word with a field replaced. -/
theorem testBit_setBits (w : Word) (hi lo v j : Nat) (h : lo ≤ hi) (h63 : hi < 64) :
    (setBits w hi lo v).toNat.testBit j
      = if lo ≤ j ∧ j ≤ hi then v.testBit (j - lo) else w.toNat.testBit j := by
  have hl : w.toNat % 2 ^ lo < 2 ^ lo := Nat.mod_lt _ (Nat.two_pow_pos _)
  have e : 2 ^ (hi + 1) = 2 ^ lo * 2 ^ (hi + 1 - lo) := by rw [← Nat.pow_add]; congr 1; omega
  have hv : v % 2 ^ (hi + 1 - lo) < 2 ^ (hi + 1 - lo) := Nat.mod_lt _ (Nat.two_pow_pos _)
  have small : 2 ^ lo * (v % 2 ^ (hi + 1 - lo)) + w.toNat % 2 ^ lo < 2 ^ (hi + 1) := by
    have := Nat.mul_le_mul_left (2 ^ lo) (Nat.succ_le_of_lt hv)
    rw [← e, Nat.mul_succ] at this; omega
  rw [setBits_toNat w hi lo v h h63, Nat.testBit_two_pow_mul_add _ small, Nat.testBit_two_pow_mul_add _ hl,
    Nat.testBit_div_two_pow, Nat.testBit_mod_two_pow, Nat.testBit_mod_two_pow]
  by_cases a : j < lo
  · have b : j < hi + 1 := by omega
    have c : ¬(lo ≤ j ∧ j ≤ hi) := by omega
    simp [a, b, c]
  · by_cases b : j < hi + 1
    · have c : lo ≤ j ∧ j ≤ hi := by omega
      have d : j - lo < hi + 1 - lo := by omega
      simp [a, b, c, d]
    · have c : ¬(lo ≤ j ∧ j ≤ hi) := by omega
      have d : hi + 1 + (j - (hi + 1)) = j := by omega
      have d' : j - (hi + 1) + (hi + 1) = j := by omega
      simp only [if_neg b, if_neg c]
      first | rw [d] | rw [d']

/-- Bit j of a field. -/
theorem testBit_natBits (w hi lo j : Nat) : (natBits w hi lo).testBit j = (decide (j < hi + 1 - lo) && w.testBit (lo + j)) := by
  rw [natBits, Nat.testBit_mod_two_pow, Nat.testBit_shiftRight]

/-- A field reads as it was written. -/
theorem bits_setBits_same (w : Word) (hi lo v : Nat) (h : lo ≤ hi) (h63 : hi < 64) :
    bits (setBits w hi lo v) hi lo = v % 2 ^ (hi + 1 - lo) := by
  apply Nat.eq_of_testBit_eq
  intro j
  rw [bits, testBit_natBits, testBit_setBits w hi lo v _ h h63, Nat.testBit_mod_two_pow]
  by_cases a : j < hi + 1 - lo
  · have b : lo ≤ lo + j ∧ lo + j ≤ hi := by omega
    have c : lo + j - lo = j := by omega
    simp [a, b.2, c]
  · simp [a]

/-- A field apart from the one written reads as before. -/
theorem bits_setBits_ne (w : Word) (hi lo v hi' lo' : Nat) (h : lo ≤ hi) (h63 : hi < 64) (d : hi < lo' ∨ hi' < lo) :
    bits (setBits w hi lo v) hi' lo' = bits w hi' lo' := by
  apply Nat.eq_of_testBit_eq
  intro j
  rw [bits, bits, testBit_natBits, testBit_natBits, testBit_setBits w hi lo v _ h h63]
  by_cases a : j < hi' + 1 - lo'
  · have b : ¬(lo ≤ lo' + j ∧ lo' + j ≤ hi) := by omega
    simp [b]
  · simp [a]

/-- A field lies below the power of two of its width. -/
theorem natBits_lt (w hi lo : Nat) : natBits w hi lo < 2 ^ (hi + 1 - lo) := Nat.mod_lt _ (Nat.two_pow_pos _)

/-! ### Lists -/

@[simp] theorem upd_length {α : Type} (l : List α) (i : Nat) (f : α → α) : (upd l i f).length = l.length := by
  induction l generalizing i with
  | nil => rfl
  | cons a l ih => cases i with
    | zero => rfl
    | succ i => simp [upd, ih]

/-- An element updated reads as the change of what it was. -/
theorem upd_getElem?_same {α : Type} (l : List α) (i : Nat) (f : α → α) : (upd l i f)[i]? = (l[i]?).map f := by
  induction l generalizing i with
  | nil => simp [upd]
  | cons a l ih => cases i with
    | zero => simp [upd]
    | succ i => simp [upd, ih]

/-- Another element reads as before. -/
theorem upd_getElem?_ne {α : Type} (l : List α) (i j : Nat) (f : α → α) (h : j ≠ i) : (upd l i f)[j]? = l[j]? := by
  induction l generalizing i j with
  | nil => simp [upd]
  | cons a l ih =>
    cases i with
    | zero => cases j with
      | zero => exact absurd rfl h
      | succ j => simp [upd]
    | succ i => cases j with
      | zero => simp [upd]
      | succ j => simp [upd, ih i j (by omega)]

end Sys2Proof.Machine
end

