-- ==== Sys2Proof/Laws/Registers.lean ====
section
/-!
SUPPORT. Sys2Proof/Laws/Registers.lean: what a register file gives after a write, and that a write keeps its canonical form.
-/
namespace Sys2Proof.Machine

variable {pt : Part}

/-! ### Finding an entry -/

@[simp] theorem regFind_regErase_same (l : RegFile) (o : Nat) : regFind (regErase l o) o = none := by
  induction l with
  | nil => rfl
  | cons x l ih =>
    obtain ⟨a, v⟩ := x
    by_cases h : a = o
    · simp [regErase, h, ih]
    · simp [regErase, regFind, h, ih]

theorem regFind_regErase_ne (l : RegFile) (o q : Nat) (h : q ≠ o) : regFind (regErase l o) q = regFind l q := by
  induction l with
  | nil => rfl
  | cons x l ih =>
    obtain ⟨a, v⟩ := x
    by_cases e : a = o
    · have : a ≠ q := fun c => h (c.symm.trans e)
      simp [regErase, regFind, e, ih]
      intro c; exact absurd (c.symm) h
    · by_cases f : a = q
      · simp [regErase, regFind, f]
        simp [h, regFind]
      · simp [regErase, regFind, e, f, ih]

@[simp] theorem regFind_regInsert_same (l : RegFile) (o : Nat) (w : Word) : regFind (regInsert l o w) o = some w := by
  induction l with
  | nil => simp [regInsert, regFind]
  | cons x l ih =>
    obtain ⟨a, v⟩ := x
    simp only [regInsert]
    by_cases h : o < a
    · simp [h, regFind]
    · by_cases e : a = o
      · simp [e, regFind]
      · simp [h, e, regFind, ih]

theorem regFind_regInsert_ne (l : RegFile) (o q : Nat) (w : Word) (h : q ≠ o) : regFind (regInsert l o w) q = regFind l q := by
  have h' : ¬o = q := fun c => h c.symm
  induction l with
  | nil => simp [regInsert, regFind, h']
  | cons x l ih =>
    obtain ⟨a, v⟩ := x
    simp only [regInsert]
    by_cases c : o < a
    · simp [c, regFind, h']
    · by_cases e : a = o
      · subst e; simp [regFind, h']
      · rw [if_neg c, if_neg (by simpa using e)]
        simp only [regFind, ih]

/-- A register reads as it was written. -/
@[simp] theorem regGet_regSet_same (u : Part) (p : Params) (l : RegFile) (o : Nat) (w : Word) : regGet u p (regSet u p l o w) o = w := by
  by_cases h : w = chipReset u p o
  · simp [regSet, regGet, h]
  · simp [regSet, regGet, h]

/-- Another register reads as before. -/
theorem regGet_regSet_ne (u : Part) (p : Params) (l : RegFile) (o q : Nat) (w : Word) (h : q ≠ o) :
    regGet u p (regSet u p l o w) q = regGet u p l q := by
  by_cases c : w = chipReset u p o
  · simp [regSet, regGet, c, regFind_regErase_ne l o q h]
  · simp [regSet, regGet, c, regFind_regInsert_ne l o q w h]

/-! ### Registers of a part -/

@[simp] theorem Chip.get_set_same (c : Chip pt) (o : Nat) (v : Word) : (c.set o v).get o = v := by simp [Chip.get, Chip.set]

theorem Chip.get_set_ne (c : Chip pt) (o q : Nat) (v : Word) (h : q ≠ o) : (c.set o v).get q = c.get q := by
  simp [Chip.get, Chip.set, regGet_regSet_ne _ _ _ _ _ _ h]

/-- A field written reads as the low bits of the value. -/
theorem Chip.rd_wr_same (c : Chip pt) (f : Fld) (v i : Nat) (h : f.lo ≤ f.hi) (h63 : f.hi < 64) :
    (c.wr f v i).rd f i = v % 2 ^ (f.hi + 1 - f.lo) := by
  simp [Chip.rd, Chip.wr, bits_setBits_same _ _ _ _ h h63]

/-- A field of another register, or apart in the same one, reads as before. -/
theorem Chip.rd_wr_ne (c : Chip pt) (f g : Fld) (v i j : Nat) (h : f.lo ≤ f.hi) (h63 : f.hi < 64)
    (d : g.off + g.stride * j ≠ f.off + f.stride * i ∨ f.hi < g.lo ∨ g.hi < f.lo) : (c.wr f v i).rd g j = c.rd g j := by
  by_cases e : g.off + g.stride * j = f.off + f.stride * i
  · have d' : f.hi < g.lo ∨ g.hi < f.lo := by
      rcases d with d | d
      · exact absurd e d
      · exact d
    simp [Chip.rd, Chip.wr, e, bits_setBits_ne _ _ _ _ _ _ h h63 d']
  · simp [Chip.rd, Chip.wr, Chip.get_set_ne _ _ _ _ e]

/-- A register other than the field's keeps its word. -/
theorem Chip.get_wr_ne (c : Chip pt) (f : Fld) (v i q : Nat) (h : q ≠ f.off + f.stride * i) : (c.wr f v i).get q = c.get q := by
  simp [Chip.wr, Chip.get_set_ne _ _ _ _ h]

theorem Chip.get_inc_ne (c : Chip pt) (f : Fld) (i k q : Nat) (h : q ≠ f.off + f.stride * i) : (c.inc f i k).get q = c.get q := by
  simp [Chip.inc, Chip.get_wr_ne _ _ _ _ _ h]

/-- A counter reads its old value and k more, saturated. -/
theorem Chip.rd_inc_same (c : Chip pt) (f : Fld) (i k : Nat) (h : f.lo ≤ f.hi) (h63 : f.hi < 64) :
    (c.inc f i k).rd f i = satU (f.hi + 1 - f.lo) (c.rd f i + k) := by
  rw [Chip.inc, Chip.rd_wr_same _ _ _ _ h h63]
  apply Nat.mod_eq_of_lt
  unfold satU
  have := Nat.two_pow_pos (f.hi + 1 - f.lo)
  split <;> omega

theorem Chip.rd_inc_ne (c : Chip pt) (f g : Fld) (i j k : Nat) (h : f.lo ≤ f.hi) (h63 : f.hi < 64)
    (d : g.off + g.stride * j ≠ f.off + f.stride * i ∨ f.hi < g.lo ∨ g.hi < f.lo) : (c.inc f i k).rd g j = c.rd g j := by
  rw [Chip.inc, Chip.rd_wr_ne _ _ _ _ _ _ h h63 d]

/-! ### Canonical form -/

theorem risingFrom_mono {b b' : Nat} {l : List Nat} (h : b' ≤ b) (r : risingFrom b l = true) : risingFrom b' l = true := by
  cases l with
  | nil => rfl
  | cons a l =>
    simp only [risingFrom, Bool.and_eq_true, decide_eq_true_eq] at r ⊢
    exact ⟨by omega, r.2⟩

theorem risingFrom_regErase (l : RegFile) (o b : Nat) (r : risingFrom b (l.map (·.1)) = true) :
    risingFrom b ((regErase l o).map (·.1)) = true := by
  induction l generalizing b with
  | nil => exact r
  | cons x l ih =>
    obtain ⟨a, v⟩ := x
    simp only [List.map_cons, risingFrom, Bool.and_eq_true, decide_eq_true_eq] at r
    by_cases h : a = o
    · simp only [regErase, h, beq_self_eq_true, if_true]
      exact ih b (risingFrom_mono (by omega) r.2)
    · simp only [regErase, beq_iff_eq, h, if_false, List.map_cons, risingFrom, Bool.and_eq_true, decide_eq_true_eq]
      exact ⟨r.1, ih (a + 1) r.2⟩

theorem risingFrom_regInsert (l : RegFile) (o b : Nat) (w : Word) (hb : b ≤ o) (r : risingFrom b (l.map (·.1)) = true) :
    risingFrom b ((regInsert l o w).map (·.1)) = true := by
  induction l generalizing b with
  | nil => simp [regInsert, risingFrom, hb]
  | cons x l ih =>
    obtain ⟨a, v⟩ := x
    simp only [List.map_cons, risingFrom, Bool.and_eq_true, decide_eq_true_eq] at r
    simp only [regInsert]
    by_cases c : o < a
    · simp [c, risingFrom, hb, Nat.succ_le_of_lt c, r.2]
    · by_cases e : a = o
      · subst e; simp [risingFrom, hb, r.2]
      · have : o ≥ a + 1 := by omega
        simp [c, e, risingFrom, r.1, ih (a + 1) this r.2]

theorem all_regErase (l : RegFile) (o : Nat) (p : Nat × Word → Bool) (h : l.all p = true) : (regErase l o).all p = true := by
  induction l with
  | nil => rfl
  | cons x l ih =>
    obtain ⟨a, v⟩ := x
    simp only [List.all_cons, Bool.and_eq_true] at h
    by_cases e : a = o
    · simpa [regErase, e] using ih h.2
    · simp [regErase, e, h.1, ih h.2]

theorem all_regInsert (l : RegFile) (o : Nat) (w : Word) (p : Nat × Word → Bool) (hp : p (o, w) = true) (h : l.all p = true) :
    (regInsert l o w).all p = true := by
  induction l with
  | nil => simp [regInsert, hp]
  | cons x l ih =>
    obtain ⟨a, v⟩ := x
    simp only [List.all_cons, Bool.and_eq_true] at h
    simp only [regInsert]
    by_cases c : o < a
    · simp [c, hp, h.1, h.2]
    · by_cases e : a = o
      · subst e; simp [hp, h.2]
      · simp [c, e, h.1, ih h.2]

/-- A write keeps the canonical form of a register file. -/
theorem regWf_regSet (u : Part) (p : Params) (l : RegFile) (o : Nat) (w : Word) (h : regWf u p l = true) :
    regWf u p (regSet u p l o w) = true := by
  simp only [regWf, Bool.and_eq_true] at h ⊢
  by_cases c : w = chipReset u p o
  · simp only [regSet, c, beq_self_eq_true, if_true]
    exact ⟨risingFrom_regErase l o 0 h.1, all_regErase l o _ h.2⟩
  · simp only [regSet, beq_iff_eq, c, if_false]
    exact ⟨risingFrom_regInsert l o 0 w (Nat.zero_le _) h.1, all_regInsert l o w _ (by simp [c]) h.2⟩

theorem Chip.regWf_set (c : Chip pt) (o : Nat) (v : Word) (h : regWf c.part c.prm c.regs = true) :
    regWf (c.set o v).part (c.set o v).prm (c.set o v).regs = true := regWf_regSet _ _ _ _ _ h

end Sys2Proof.Machine
end

