-- ==== Sys2Proof/Laws/Memory.lean ====
section
/-!
SUPPORT. Sys2Proof/Laws/Memory.lean: what a memory gives after a write, and that every memory operation keeps the canonical form.
-/
namespace Sys2Proof.Machine

/-! ### One byte -/

theorem memRead_memErase_same (m : Mem) (x : Nat) : memRead (memErase m x) x = 0 := by
  induction m with
  | nil => rfl
  | cons e m ih =>
    obtain ⟨a, b⟩ := e
    by_cases h : a = x
    · simp [memErase, h, ih]
    · simp [memErase, memRead, h, ih]

theorem memRead_memErase_ne (m : Mem) (x y : Nat) (h : y ≠ x) : memRead (memErase m x) y = memRead m y := by
  induction m with
  | nil => rfl
  | cons e m ih =>
    obtain ⟨a, b⟩ := e
    by_cases c : a = x
    · have : ¬x = y := fun d => h d.symm
      simp [memErase, memRead, c, ih, this]
    · by_cases d : a = y
      · simp [memErase, memRead, d]
        simp [h, memRead]
      · simp [memErase, memRead, c, d, ih]

theorem memRead_memInsert_same (m : Mem) (x : Nat) (v : BitVec 8) : memRead (memInsert m x v) x = v := by
  induction m with
  | nil => simp [memInsert, memRead]
  | cons e m ih =>
    obtain ⟨a, b⟩ := e
    simp only [memInsert]
    by_cases h : x < a
    · simp [h, memRead]
    · by_cases c : a = x
      · simp [c, memRead]
      · simp [h, c, memRead, ih]

theorem memRead_memInsert_ne (m : Mem) (x y : Nat) (v : BitVec 8) (h : y ≠ x) : memRead (memInsert m x v) y = memRead m y := by
  have h' : ¬x = y := fun d => h d.symm
  induction m with
  | nil => simp [memInsert, memRead, h']
  | cons e m ih =>
    obtain ⟨a, b⟩ := e
    simp only [memInsert]
    by_cases c : x < a
    · simp [c, memRead, h']
    · by_cases d : a = x
      · subst d; simp [memRead, h']
      · rw [if_neg c, if_neg (by simpa using d)]
        simp only [memRead, ih]

/-- A byte reads as it was written. -/
@[simp] theorem memRead_memWrite_same (m : Mem) (x : Nat) (v : BitVec 8) : memRead (memWrite m x v) x = v := by
  by_cases h : v = 0#8
  · simp [memWrite, h, memRead_memErase_same]
  · simp [memWrite, h, memRead_memInsert_same]

/-- Every other byte reads as before. -/
theorem memRead_memWrite_ne (m : Mem) (x y : Nat) (v : BitVec 8) (h : y ≠ x) : memRead (memWrite m x v) y = memRead m y := by
  by_cases c : v = 0#8
  · simp [memWrite, c, memRead_memErase_ne _ _ _ h]
  · simp [memWrite, c, memRead_memInsert_ne _ _ _ _ h]

/-! ### Canonical form -/

theorem risingFrom_memErase (m : Mem) (x b : Nat) (r : risingFrom b (m.map (·.1)) = true) :
    risingFrom b ((memErase m x).map (·.1)) = true := by
  induction m generalizing b with
  | nil => exact r
  | cons e m ih =>
    obtain ⟨a, v⟩ := e
    simp only [List.map_cons, risingFrom, Bool.and_eq_true, decide_eq_true_eq] at r
    by_cases h : a = x
    · simp only [memErase, h, beq_self_eq_true, if_true]
      exact ih b (risingFrom_mono (by omega) r.2)
    · simp only [memErase, beq_iff_eq, h, if_false, List.map_cons, risingFrom, Bool.and_eq_true, decide_eq_true_eq]
      exact ⟨r.1, ih (a + 1) r.2⟩

theorem risingFrom_memInsert (m : Mem) (x b : Nat) (v : BitVec 8) (hb : b ≤ x) (r : risingFrom b (m.map (·.1)) = true) :
    risingFrom b ((memInsert m x v).map (·.1)) = true := by
  induction m generalizing b with
  | nil => simp [memInsert, risingFrom, hb]
  | cons e m ih =>
    obtain ⟨a, w⟩ := e
    simp only [List.map_cons, risingFrom, Bool.and_eq_true, decide_eq_true_eq] at r
    simp only [memInsert]
    by_cases c : x < a
    · simp [c, risingFrom, hb, Nat.succ_le_of_lt c, r.2]
    · by_cases d : a = x
      · subst d; simp [risingFrom, hb, r.2]
      · have : x ≥ a + 1 := by omega
        simp [c, d, risingFrom, r.1, ih (a + 1) this r.2]

theorem all_memErase (m : Mem) (x : Nat) (p : Host.Cell → Bool) (h : m.all p = true) : (memErase m x).all p = true := by
  induction m with
  | nil => rfl
  | cons e m ih =>
    obtain ⟨a, v⟩ := e
    simp only [List.all_cons, Bool.and_eq_true] at h
    by_cases c : a = x
    · simpa [memErase, c] using ih h.2
    · simp [memErase, c, h.1, ih h.2]

theorem all_memInsert (m : Mem) (x : Nat) (v : BitVec 8) (p : Host.Cell → Bool) (hp : p (x, v) = true) (h : m.all p = true) :
    (memInsert m x v).all p = true := by
  induction m with
  | nil => simp [memInsert, hp]
  | cons e m ih =>
    obtain ⟨a, w⟩ := e
    simp only [List.all_cons, Bool.and_eq_true] at h
    simp only [memInsert]
    by_cases c : x < a
    · simp [c, hp, h.1, h.2]
    · by_cases d : a = x
      · subst d; simp [hp, h.2]
      · simp [c, d, h.1, ih h.2]

/-- A byte written keeps the canonical form. -/
theorem memWf_memWrite (m : Mem) (x : Nat) (v : BitVec 8) (h : memWf m = true) : memWf (memWrite m x v) = true := by
  simp only [memWf, Bool.and_eq_true] at h ⊢
  by_cases c : (v == 0) = true
  · rw [memWrite, if_pos c]
    exact ⟨risingFrom_memErase m x 0 h.1, all_memErase m x _ h.2⟩
  · rw [memWrite, if_neg c]
    exact ⟨risingFrom_memInsert m x 0 v (Nat.zero_le _) h.1, all_memInsert m x v _ (by simpa using c) h.2⟩

theorem memWf_memWriteBytes (bs : List (BitVec 8)) (m : Mem) (a : Nat) (h : memWf m = true) : memWf (memWriteBytes m a bs) = true := by
  induction bs generalizing m a with
  | nil => exact h
  | cons b bs ih => exact ih _ _ (memWf_memWrite m _ b h)

theorem memWf_memWriteWord (m : Mem) (a : Nat) (v : Word) (h : memWf m = true) : memWf (memWriteWord m a v) = true :=
  memWf_memWriteBytes _ _ _ h

theorem memWf_memWriteWords (m : Mem) (a : Nat) (ws : List Word) (h : memWf m = true) : memWf (memWriteWords m a ws) = true :=
  memWf_memWriteBytes _ _ _ h

theorem memWf_ringWrite (bs : List (BitVec 8)) (m : Mem) (b n o : Nat) (h : memWf m = true) : memWf (ringWrite m b n o bs) = true := by
  induction bs generalizing m o with
  | nil => exact h
  | cons x bs ih => exact ih _ _ (memWf_memWrite m _ x h)

/-- A run of bytes leaves every address outside it as it was. -/
theorem memRead_memWriteBytes_out (bs : List (BitVec 8)) (m : Mem) (a y : Nat)
    (h : ∀ k, k < bs.length → y ≠ (a + k) % 2 ^ 64) : memRead (memWriteBytes m a bs) y = memRead m y := by
  induction bs generalizing m a with
  | nil => rfl
  | cons b bs ih =>
    rw [memWriteBytes, ih]
    · exact memRead_memWrite_ne m _ y b (by simpa using h 0 (by simp))
    · intro k hk
      have := h (k + 1) (by simpa using hk)
      rwa [show a + (k + 1) = a + 1 + k by omega] at this

end Sys2Proof.Machine
end

