-- ==== Sys2Proof/Laws/State.lean ====
section
/-!
SUPPORT. Sys2Proof/Laws/State.lean: what each named update of the state leaves in each part of it, so that a proof need not
unfold a record update.
-/
namespace Sys2Proof.Machine

variable {pt : Part}


/-! ### The state -/

@[simp] theorem State.onGj_gj (s : State) (f : Garja → Garja) : (s.onGj f).gj = f s.gj := rfl
@[simp] theorem State.onGj_ez (s : State) (f : Garja → Garja) : (s.onGj f).ez = s.ez := rfl
@[simp] theorem State.onGj_dieMem (s : State) (f : Garja → Garja) : (s.onGj f).dieMem = s.dieMem := rfl
@[simp] theorem State.onGj_hostMem (s : State) (f : Garja → Garja) : (s.onGj f).hostMem = s.hostMem := rfl
@[simp] theorem State.onGj_pending (s : State) (f : Garja → Garja) : (s.onGj f).pending = s.pending := rfl

@[simp] theorem Garja.onC_c (g : Garja) (f : Chip .garja → Chip .garja) : (g.onC f).c = f g.c := rfl
@[simp] theorem Garja.onC_regions (g : Garja) (f : Chip .garja → Chip .garja) : (g.onC f).regions = g.regions := rfl
@[simp] theorem Garja.onC_so (g : Garja) (f : Chip .garja → Chip .garja) : (g.onC f).so = g.so := rfl
@[simp] theorem Garja.onC_taps (g : Garja) (f : Chip .garja → Chip .garja) : (g.onC f).taps = g.taps := rfl
@[simp] theorem Garja.onC_fnAt (g : Garja) (f : Chip .garja → Chip .garja) : (g.onC f).fnAt = g.fnAt := rfl
@[simp] theorem Garja.onC_ctxs (g : Garja) (f : Chip .garja → Chip .garja) : (g.onC f).ctxs = g.ctxs := rfl
@[simp] theorem Garja.onC_seqs (g : Garja) (f : Chip .garja → Chip .garja) : (g.onC f).seqs = g.seqs := rfl
@[simp] theorem Garja.onC_prog (g : Garja) (f : Chip .garja → Chip .garja) : (g.onC f).prog = g.prog := rfl
@[simp] theorem Garja.onC_fox (g : Garja) (f : Chip .garja → Chip .garja) : (g.onC f).fox = g.fox := rfl
@[simp] theorem Garja.onC_lane (g : Garja) (f : Chip .garja → Chip .garja) : (g.onC f).lane = g.lane := rfl
@[simp] theorem Garja.onC_bal (g : Garja) (f : Chip .garja → Chip .garja) : (g.onC f).bal = g.bal := rfl
@[simp] theorem Garja.onC_smap (g : Garja) (f : Chip .garja → Chip .garja) : (g.onC f).smap = g.smap := rfl
@[simp] theorem Garja.onC_launch (g : Garja) (f : Chip .garja → Chip .garja) : (g.onC f).launch = g.launch := rfl
@[simp] theorem Garja.onC_telemAt (g : Garja) (f : Chip .garja → Chip .garja) : (g.onC f).telemAt = g.telemAt := rfl
@[simp] theorem Garja.onC_dbg (g : Garja) (f : Chip .garja → Chip .garja) : (g.onC f).dbg = g.dbg := rfl

@[simp] theorem Elzel.onC_c (e : Elzel) (f : Chip .elzel → Chip .elzel) : (e.onC f).c = f e.c := rfl
@[simp] theorem Elzel.onC_cmb (e : Elzel) (f : Chip .elzel → Chip .elzel) : (e.onC f).cmb = e.cmb := rfl
@[simp] theorem Elzel.onC_mgr (e : Elzel) (f : Chip .elzel → Chip .elzel) : (e.onC f).mgr = e.mgr := rfl
@[simp] theorem Elzel.onC_ptp (e : Elzel) (f : Chip .elzel → Chip .elzel) : (e.onC f).ptp = e.ptp := rfl
@[simp] theorem Elzel.onC_out (e : Elzel) (f : Chip .elzel → Chip .elzel) : (e.onC f).out = e.out := rfl
@[simp] theorem Elzel.onC_frames (e : Elzel) (f : Chip .elzel → Chip .elzel) : (e.onC f).frames = e.frames := rfl
@[simp] theorem Elzel.onC_flash (e : Elzel) (f : Chip .elzel → Chip .elzel) : (e.onC f).flash = e.flash := rfl
@[simp] theorem Elzel.onC_fw (e : Elzel) (f : Chip .elzel → Chip .elzel) : (e.onC f).fw = e.fw := rfl
@[simp] theorem Elzel.onC_th (e : Elzel) (f : Chip .elzel → Chip .elzel) : (e.onC f).th = e.th := rfl
@[simp] theorem Elzel.onC_shelf (e : Elzel) (f : Chip .elzel → Chip .elzel) : (e.onC f).shelf = e.shelf := rfl
@[simp] theorem Elzel.onC_console (e : Elzel) (f : Chip .elzel → Chip .elzel) : (e.onC f).console = e.console := rfl
@[simp] theorem Elzel.onC_mon (e : Elzel) (f : Chip .elzel → Chip .elzel) : (e.onC f).mon = e.mon := rfl
@[simp] theorem Elzel.onC_monSeq (e : Elzel) (f : Chip .elzel → Chip .elzel) : (e.onC f).monSeq = e.monSeq := rfl

@[simp] theorem Garja.onSo_c (g : Garja) (f : Engine → Engine) : (g.onSo f).c = g.c := rfl
@[simp] theorem Garja.onSo_regions (g : Garja) (f : Engine → Engine) : (g.onSo f).regions = g.regions := rfl
@[simp] theorem Garja.onSo_so (g : Garja) (f : Engine → Engine) : (g.onSo f).so = f g.so := rfl
@[simp] theorem Garja.onSo_taps (g : Garja) (f : Engine → Engine) : (g.onSo f).taps = g.taps := rfl
@[simp] theorem Garja.onSo_fnAt (g : Garja) (f : Engine → Engine) : (g.onSo f).fnAt = g.fnAt := rfl
@[simp] theorem Garja.onSo_ctxs (g : Garja) (f : Engine → Engine) : (g.onSo f).ctxs = g.ctxs := rfl
@[simp] theorem Garja.onSo_seqs (g : Garja) (f : Engine → Engine) : (g.onSo f).seqs = g.seqs := rfl
@[simp] theorem Garja.onSo_prog (g : Garja) (f : Engine → Engine) : (g.onSo f).prog = g.prog := rfl
@[simp] theorem Garja.onSo_fox (g : Garja) (f : Engine → Engine) : (g.onSo f).fox = g.fox := rfl
@[simp] theorem Garja.onSo_lane (g : Garja) (f : Engine → Engine) : (g.onSo f).lane = g.lane := rfl
@[simp] theorem Garja.onSo_bal (g : Garja) (f : Engine → Engine) : (g.onSo f).bal = g.bal := rfl
@[simp] theorem Garja.onSo_smap (g : Garja) (f : Engine → Engine) : (g.onSo f).smap = g.smap := rfl
@[simp] theorem Garja.onSo_launch (g : Garja) (f : Engine → Engine) : (g.onSo f).launch = g.launch := rfl
@[simp] theorem Garja.onSo_telemAt (g : Garja) (f : Engine → Engine) : (g.onSo f).telemAt = g.telemAt := rfl
@[simp] theorem Garja.onSo_dbg (g : Garja) (f : Engine → Engine) : (g.onSo f).dbg = g.dbg := rfl

@[simp] theorem Garja.onSeq_c (g : Garja) (x : Nat) (f : SeqCtx → SeqCtx) : (g.onSeq x f).c = g.c := rfl
@[simp] theorem Garja.onSeq_regions (g : Garja) (x : Nat) (f : SeqCtx → SeqCtx) : (g.onSeq x f).regions = g.regions := rfl
@[simp] theorem Garja.onSeq_so (g : Garja) (x : Nat) (f : SeqCtx → SeqCtx) : (g.onSeq x f).so = g.so := rfl
@[simp] theorem Garja.onSeq_taps (g : Garja) (x : Nat) (f : SeqCtx → SeqCtx) : (g.onSeq x f).taps = g.taps := rfl
@[simp] theorem Garja.onSeq_fnAt (g : Garja) (x : Nat) (f : SeqCtx → SeqCtx) : (g.onSeq x f).fnAt = g.fnAt := rfl
@[simp] theorem Garja.onSeq_ctxs (g : Garja) (x : Nat) (f : SeqCtx → SeqCtx) : (g.onSeq x f).ctxs = g.ctxs := rfl
@[simp] theorem Garja.onSeq_seqs (g : Garja) (x : Nat) (f : SeqCtx → SeqCtx) : (g.onSeq x f).seqs = upd g.seqs x f := rfl
@[simp] theorem Garja.onSeq_prog (g : Garja) (x : Nat) (f : SeqCtx → SeqCtx) : (g.onSeq x f).prog = g.prog := rfl
@[simp] theorem Garja.onSeq_fox (g : Garja) (x : Nat) (f : SeqCtx → SeqCtx) : (g.onSeq x f).fox = g.fox := rfl
@[simp] theorem Garja.onSeq_lane (g : Garja) (x : Nat) (f : SeqCtx → SeqCtx) : (g.onSeq x f).lane = g.lane := rfl
@[simp] theorem Garja.onSeq_bal (g : Garja) (x : Nat) (f : SeqCtx → SeqCtx) : (g.onSeq x f).bal = g.bal := rfl
@[simp] theorem Garja.onSeq_smap (g : Garja) (x : Nat) (f : SeqCtx → SeqCtx) : (g.onSeq x f).smap = g.smap := rfl
@[simp] theorem Garja.onSeq_launch (g : Garja) (x : Nat) (f : SeqCtx → SeqCtx) : (g.onSeq x f).launch = g.launch := rfl
@[simp] theorem Garja.onSeq_telemAt (g : Garja) (x : Nat) (f : SeqCtx → SeqCtx) : (g.onSeq x f).telemAt = g.telemAt := rfl
@[simp] theorem Garja.onSeq_dbg (g : Garja) (x : Nat) (f : SeqCtx → SeqCtx) : (g.onSeq x f).dbg = g.dbg := rfl

@[simp] theorem Garja.onRun_c (g : Garja) (x : Nat) (f : CtxRun → CtxRun) : (g.onRun x f).c = g.c := rfl
@[simp] theorem Garja.onRun_regions (g : Garja) (x : Nat) (f : CtxRun → CtxRun) : (g.onRun x f).regions = g.regions := rfl
@[simp] theorem Garja.onRun_so (g : Garja) (x : Nat) (f : CtxRun → CtxRun) : (g.onRun x f).so = g.so := rfl
@[simp] theorem Garja.onRun_taps (g : Garja) (x : Nat) (f : CtxRun → CtxRun) : (g.onRun x f).taps = g.taps := rfl
@[simp] theorem Garja.onRun_fnAt (g : Garja) (x : Nat) (f : CtxRun → CtxRun) : (g.onRun x f).fnAt = g.fnAt := rfl
@[simp] theorem Garja.onRun_ctxs (g : Garja) (x : Nat) (f : CtxRun → CtxRun) : (g.onRun x f).ctxs = upd g.ctxs x f := rfl
@[simp] theorem Garja.onRun_seqs (g : Garja) (x : Nat) (f : CtxRun → CtxRun) : (g.onRun x f).seqs = g.seqs := rfl
@[simp] theorem Garja.onRun_prog (g : Garja) (x : Nat) (f : CtxRun → CtxRun) : (g.onRun x f).prog = g.prog := rfl
@[simp] theorem Garja.onRun_fox (g : Garja) (x : Nat) (f : CtxRun → CtxRun) : (g.onRun x f).fox = g.fox := rfl
@[simp] theorem Garja.onRun_lane (g : Garja) (x : Nat) (f : CtxRun → CtxRun) : (g.onRun x f).lane = g.lane := rfl
@[simp] theorem Garja.onRun_bal (g : Garja) (x : Nat) (f : CtxRun → CtxRun) : (g.onRun x f).bal = g.bal := rfl
@[simp] theorem Garja.onRun_smap (g : Garja) (x : Nat) (f : CtxRun → CtxRun) : (g.onRun x f).smap = g.smap := rfl
@[simp] theorem Garja.onRun_launch (g : Garja) (x : Nat) (f : CtxRun → CtxRun) : (g.onRun x f).launch = g.launch := rfl
@[simp] theorem Garja.onRun_telemAt (g : Garja) (x : Nat) (f : CtxRun → CtxRun) : (g.onRun x f).telemAt = g.telemAt := rfl
@[simp] theorem Garja.onRun_dbg (g : Garja) (x : Nat) (f : CtxRun → CtxRun) : (g.onRun x f).dbg = g.dbg := rfl

@[simp] theorem Garja.onTap_c (g : Garja) (n : Nat) (f : Tap → Tap) : (g.onTap n f).c = g.c := rfl
@[simp] theorem Garja.onTap_regions (g : Garja) (n : Nat) (f : Tap → Tap) : (g.onTap n f).regions = g.regions := rfl
@[simp] theorem Garja.onTap_so (g : Garja) (n : Nat) (f : Tap → Tap) : (g.onTap n f).so = g.so := rfl
@[simp] theorem Garja.onTap_taps (g : Garja) (n : Nat) (f : Tap → Tap) : (g.onTap n f).taps = upd g.taps n f := rfl
@[simp] theorem Garja.onTap_fnAt (g : Garja) (n : Nat) (f : Tap → Tap) : (g.onTap n f).fnAt = g.fnAt := rfl
@[simp] theorem Garja.onTap_ctxs (g : Garja) (n : Nat) (f : Tap → Tap) : (g.onTap n f).ctxs = g.ctxs := rfl
@[simp] theorem Garja.onTap_seqs (g : Garja) (n : Nat) (f : Tap → Tap) : (g.onTap n f).seqs = g.seqs := rfl
@[simp] theorem Garja.onTap_prog (g : Garja) (n : Nat) (f : Tap → Tap) : (g.onTap n f).prog = g.prog := rfl
@[simp] theorem Garja.onTap_fox (g : Garja) (n : Nat) (f : Tap → Tap) : (g.onTap n f).fox = g.fox := rfl
@[simp] theorem Garja.onTap_lane (g : Garja) (n : Nat) (f : Tap → Tap) : (g.onTap n f).lane = g.lane := rfl
@[simp] theorem Garja.onTap_bal (g : Garja) (n : Nat) (f : Tap → Tap) : (g.onTap n f).bal = g.bal := rfl
@[simp] theorem Garja.onTap_smap (g : Garja) (n : Nat) (f : Tap → Tap) : (g.onTap n f).smap = g.smap := rfl
@[simp] theorem Garja.onTap_launch (g : Garja) (n : Nat) (f : Tap → Tap) : (g.onTap n f).launch = g.launch := rfl
@[simp] theorem Garja.onTap_telemAt (g : Garja) (n : Nat) (f : Tap → Tap) : (g.onTap n f).telemAt = g.telemAt := rfl
@[simp] theorem Garja.onTap_dbg (g : Garja) (n : Nat) (f : Tap → Tap) : (g.onTap n f).dbg = g.dbg := rfl

@[simp] theorem Garja.onFox_c (g : Garja) (f : Fox → Fox) : (g.onFox f).c = g.c := rfl
@[simp] theorem Garja.onFox_regions (g : Garja) (f : Fox → Fox) : (g.onFox f).regions = g.regions := rfl
@[simp] theorem Garja.onFox_so (g : Garja) (f : Fox → Fox) : (g.onFox f).so = g.so := rfl
@[simp] theorem Garja.onFox_taps (g : Garja) (f : Fox → Fox) : (g.onFox f).taps = g.taps := rfl
@[simp] theorem Garja.onFox_fnAt (g : Garja) (f : Fox → Fox) : (g.onFox f).fnAt = g.fnAt := rfl
@[simp] theorem Garja.onFox_ctxs (g : Garja) (f : Fox → Fox) : (g.onFox f).ctxs = g.ctxs := rfl
@[simp] theorem Garja.onFox_seqs (g : Garja) (f : Fox → Fox) : (g.onFox f).seqs = g.seqs := rfl
@[simp] theorem Garja.onFox_prog (g : Garja) (f : Fox → Fox) : (g.onFox f).prog = g.prog := rfl
@[simp] theorem Garja.onFox_fox (g : Garja) (f : Fox → Fox) : (g.onFox f).fox = f g.fox := rfl
@[simp] theorem Garja.onFox_lane (g : Garja) (f : Fox → Fox) : (g.onFox f).lane = g.lane := rfl
@[simp] theorem Garja.onFox_bal (g : Garja) (f : Fox → Fox) : (g.onFox f).bal = g.bal := rfl
@[simp] theorem Garja.onFox_smap (g : Garja) (f : Fox → Fox) : (g.onFox f).smap = g.smap := rfl
@[simp] theorem Garja.onFox_launch (g : Garja) (f : Fox → Fox) : (g.onFox f).launch = g.launch := rfl
@[simp] theorem Garja.onFox_telemAt (g : Garja) (f : Fox → Fox) : (g.onFox f).telemAt = g.telemAt := rfl
@[simp] theorem Garja.onFox_dbg (g : Garja) (f : Fox → Fox) : (g.onFox f).dbg = g.dbg := rfl

@[simp] theorem Garja.onLane_c (g : Garja) (f : Lane → Lane) : (g.onLane f).c = g.c := rfl
@[simp] theorem Garja.onLane_regions (g : Garja) (f : Lane → Lane) : (g.onLane f).regions = g.regions := rfl
@[simp] theorem Garja.onLane_so (g : Garja) (f : Lane → Lane) : (g.onLane f).so = g.so := rfl
@[simp] theorem Garja.onLane_taps (g : Garja) (f : Lane → Lane) : (g.onLane f).taps = g.taps := rfl
@[simp] theorem Garja.onLane_fnAt (g : Garja) (f : Lane → Lane) : (g.onLane f).fnAt = g.fnAt := rfl
@[simp] theorem Garja.onLane_ctxs (g : Garja) (f : Lane → Lane) : (g.onLane f).ctxs = g.ctxs := rfl
@[simp] theorem Garja.onLane_seqs (g : Garja) (f : Lane → Lane) : (g.onLane f).seqs = g.seqs := rfl
@[simp] theorem Garja.onLane_prog (g : Garja) (f : Lane → Lane) : (g.onLane f).prog = g.prog := rfl
@[simp] theorem Garja.onLane_fox (g : Garja) (f : Lane → Lane) : (g.onLane f).fox = g.fox := rfl
@[simp] theorem Garja.onLane_lane (g : Garja) (f : Lane → Lane) : (g.onLane f).lane = f g.lane := rfl
@[simp] theorem Garja.onLane_bal (g : Garja) (f : Lane → Lane) : (g.onLane f).bal = g.bal := rfl
@[simp] theorem Garja.onLane_smap (g : Garja) (f : Lane → Lane) : (g.onLane f).smap = g.smap := rfl
@[simp] theorem Garja.onLane_launch (g : Garja) (f : Lane → Lane) : (g.onLane f).launch = g.launch := rfl
@[simp] theorem Garja.onLane_telemAt (g : Garja) (f : Lane → Lane) : (g.onLane f).telemAt = g.telemAt := rfl
@[simp] theorem Garja.onLane_dbg (g : Garja) (f : Lane → Lane) : (g.onLane f).dbg = g.dbg := rfl

@[simp] theorem Garja.onBal_c (g : Garja) (f : Ballast → Ballast) : (g.onBal f).c = g.c := rfl
@[simp] theorem Garja.onBal_regions (g : Garja) (f : Ballast → Ballast) : (g.onBal f).regions = g.regions := rfl
@[simp] theorem Garja.onBal_so (g : Garja) (f : Ballast → Ballast) : (g.onBal f).so = g.so := rfl
@[simp] theorem Garja.onBal_taps (g : Garja) (f : Ballast → Ballast) : (g.onBal f).taps = g.taps := rfl
@[simp] theorem Garja.onBal_fnAt (g : Garja) (f : Ballast → Ballast) : (g.onBal f).fnAt = g.fnAt := rfl
@[simp] theorem Garja.onBal_ctxs (g : Garja) (f : Ballast → Ballast) : (g.onBal f).ctxs = g.ctxs := rfl
@[simp] theorem Garja.onBal_seqs (g : Garja) (f : Ballast → Ballast) : (g.onBal f).seqs = g.seqs := rfl
@[simp] theorem Garja.onBal_prog (g : Garja) (f : Ballast → Ballast) : (g.onBal f).prog = g.prog := rfl
@[simp] theorem Garja.onBal_fox (g : Garja) (f : Ballast → Ballast) : (g.onBal f).fox = g.fox := rfl
@[simp] theorem Garja.onBal_lane (g : Garja) (f : Ballast → Ballast) : (g.onBal f).lane = g.lane := rfl
@[simp] theorem Garja.onBal_bal (g : Garja) (f : Ballast → Ballast) : (g.onBal f).bal = f g.bal := rfl
@[simp] theorem Garja.onBal_smap (g : Garja) (f : Ballast → Ballast) : (g.onBal f).smap = g.smap := rfl
@[simp] theorem Garja.onBal_launch (g : Garja) (f : Ballast → Ballast) : (g.onBal f).launch = g.launch := rfl
@[simp] theorem Garja.onBal_telemAt (g : Garja) (f : Ballast → Ballast) : (g.onBal f).telemAt = g.telemAt := rfl
@[simp] theorem Garja.onBal_dbg (g : Garja) (f : Ballast → Ballast) : (g.onBal f).dbg = g.dbg := rfl

@[simp] theorem Garja.onRegion_c (g : Garja) (n : Nat) (f : Region → Region) : (g.onRegion n f).c = g.c := rfl
@[simp] theorem Garja.onRegion_regions (g : Garja) (n : Nat) (f : Region → Region) : (g.onRegion n f).regions = upd g.regions n f := rfl
@[simp] theorem Garja.onRegion_so (g : Garja) (n : Nat) (f : Region → Region) : (g.onRegion n f).so = g.so := rfl
@[simp] theorem Garja.onRegion_taps (g : Garja) (n : Nat) (f : Region → Region) : (g.onRegion n f).taps = g.taps := rfl
@[simp] theorem Garja.onRegion_fnAt (g : Garja) (n : Nat) (f : Region → Region) : (g.onRegion n f).fnAt = g.fnAt := rfl
@[simp] theorem Garja.onRegion_ctxs (g : Garja) (n : Nat) (f : Region → Region) : (g.onRegion n f).ctxs = g.ctxs := rfl
@[simp] theorem Garja.onRegion_seqs (g : Garja) (n : Nat) (f : Region → Region) : (g.onRegion n f).seqs = g.seqs := rfl
@[simp] theorem Garja.onRegion_prog (g : Garja) (n : Nat) (f : Region → Region) : (g.onRegion n f).prog = g.prog := rfl
@[simp] theorem Garja.onRegion_fox (g : Garja) (n : Nat) (f : Region → Region) : (g.onRegion n f).fox = g.fox := rfl
@[simp] theorem Garja.onRegion_lane (g : Garja) (n : Nat) (f : Region → Region) : (g.onRegion n f).lane = g.lane := rfl
@[simp] theorem Garja.onRegion_bal (g : Garja) (n : Nat) (f : Region → Region) : (g.onRegion n f).bal = g.bal := rfl
@[simp] theorem Garja.onRegion_smap (g : Garja) (n : Nat) (f : Region → Region) : (g.onRegion n f).smap = g.smap := rfl
@[simp] theorem Garja.onRegion_launch (g : Garja) (n : Nat) (f : Region → Region) : (g.onRegion n f).launch = g.launch := rfl
@[simp] theorem Garja.onRegion_telemAt (g : Garja) (n : Nat) (f : Region → Region) : (g.onRegion n f).telemAt = g.telemAt := rfl
@[simp] theorem Garja.onRegion_dbg (g : Garja) (n : Nat) (f : Region → Region) : (g.onRegion n f).dbg = g.dbg := rfl

@[simp] theorem Elzel.onCmb_c (e : Elzel) (f : Combiner → Combiner) : (e.onCmb f).c = e.c := rfl
@[simp] theorem Elzel.onCmb_cmb (e : Elzel) (f : Combiner → Combiner) : (e.onCmb f).cmb = f e.cmb := rfl
@[simp] theorem Elzel.onCmb_mgr (e : Elzel) (f : Combiner → Combiner) : (e.onCmb f).mgr = e.mgr := rfl
@[simp] theorem Elzel.onCmb_ptp (e : Elzel) (f : Combiner → Combiner) : (e.onCmb f).ptp = e.ptp := rfl
@[simp] theorem Elzel.onCmb_out (e : Elzel) (f : Combiner → Combiner) : (e.onCmb f).out = e.out := rfl
@[simp] theorem Elzel.onCmb_frames (e : Elzel) (f : Combiner → Combiner) : (e.onCmb f).frames = e.frames := rfl
@[simp] theorem Elzel.onCmb_flash (e : Elzel) (f : Combiner → Combiner) : (e.onCmb f).flash = e.flash := rfl
@[simp] theorem Elzel.onCmb_fw (e : Elzel) (f : Combiner → Combiner) : (e.onCmb f).fw = e.fw := rfl
@[simp] theorem Elzel.onCmb_th (e : Elzel) (f : Combiner → Combiner) : (e.onCmb f).th = e.th := rfl
@[simp] theorem Elzel.onCmb_shelf (e : Elzel) (f : Combiner → Combiner) : (e.onCmb f).shelf = e.shelf := rfl
@[simp] theorem Elzel.onCmb_console (e : Elzel) (f : Combiner → Combiner) : (e.onCmb f).console = e.console := rfl
@[simp] theorem Elzel.onCmb_mon (e : Elzel) (f : Combiner → Combiner) : (e.onCmb f).mon = e.mon := rfl
@[simp] theorem Elzel.onCmb_monSeq (e : Elzel) (f : Combiner → Combiner) : (e.onCmb f).monSeq = e.monSeq := rfl

@[simp] theorem Elzel.onMgr_c (e : Elzel) (f : Mgr → Mgr) : (e.onMgr f).c = e.c := rfl
@[simp] theorem Elzel.onMgr_cmb (e : Elzel) (f : Mgr → Mgr) : (e.onMgr f).cmb = e.cmb := rfl
@[simp] theorem Elzel.onMgr_mgr (e : Elzel) (f : Mgr → Mgr) : (e.onMgr f).mgr = f e.mgr := rfl
@[simp] theorem Elzel.onMgr_ptp (e : Elzel) (f : Mgr → Mgr) : (e.onMgr f).ptp = e.ptp := rfl
@[simp] theorem Elzel.onMgr_out (e : Elzel) (f : Mgr → Mgr) : (e.onMgr f).out = e.out := rfl
@[simp] theorem Elzel.onMgr_frames (e : Elzel) (f : Mgr → Mgr) : (e.onMgr f).frames = e.frames := rfl
@[simp] theorem Elzel.onMgr_flash (e : Elzel) (f : Mgr → Mgr) : (e.onMgr f).flash = e.flash := rfl
@[simp] theorem Elzel.onMgr_fw (e : Elzel) (f : Mgr → Mgr) : (e.onMgr f).fw = e.fw := rfl
@[simp] theorem Elzel.onMgr_th (e : Elzel) (f : Mgr → Mgr) : (e.onMgr f).th = e.th := rfl
@[simp] theorem Elzel.onMgr_shelf (e : Elzel) (f : Mgr → Mgr) : (e.onMgr f).shelf = e.shelf := rfl
@[simp] theorem Elzel.onMgr_console (e : Elzel) (f : Mgr → Mgr) : (e.onMgr f).console = e.console := rfl
@[simp] theorem Elzel.onMgr_mon (e : Elzel) (f : Mgr → Mgr) : (e.onMgr f).mon = e.mon := rfl
@[simp] theorem Elzel.onMgr_monSeq (e : Elzel) (f : Mgr → Mgr) : (e.onMgr f).monSeq = e.monSeq := rfl

@[simp] theorem Elzel.onPtp_c (e : Elzel) (p : Nat) (f : PtpPort → PtpPort) : (e.onPtp p f).c = e.c := rfl
@[simp] theorem Elzel.onPtp_cmb (e : Elzel) (p : Nat) (f : PtpPort → PtpPort) : (e.onPtp p f).cmb = e.cmb := rfl
@[simp] theorem Elzel.onPtp_mgr (e : Elzel) (p : Nat) (f : PtpPort → PtpPort) : (e.onPtp p f).mgr = e.mgr := rfl
@[simp] theorem Elzel.onPtp_ptp (e : Elzel) (p : Nat) (f : PtpPort → PtpPort) : (e.onPtp p f).ptp = upd e.ptp p f := rfl
@[simp] theorem Elzel.onPtp_out (e : Elzel) (p : Nat) (f : PtpPort → PtpPort) : (e.onPtp p f).out = e.out := rfl
@[simp] theorem Elzel.onPtp_frames (e : Elzel) (p : Nat) (f : PtpPort → PtpPort) : (e.onPtp p f).frames = e.frames := rfl
@[simp] theorem Elzel.onPtp_flash (e : Elzel) (p : Nat) (f : PtpPort → PtpPort) : (e.onPtp p f).flash = e.flash := rfl
@[simp] theorem Elzel.onPtp_fw (e : Elzel) (p : Nat) (f : PtpPort → PtpPort) : (e.onPtp p f).fw = e.fw := rfl
@[simp] theorem Elzel.onPtp_th (e : Elzel) (p : Nat) (f : PtpPort → PtpPort) : (e.onPtp p f).th = e.th := rfl
@[simp] theorem Elzel.onPtp_shelf (e : Elzel) (p : Nat) (f : PtpPort → PtpPort) : (e.onPtp p f).shelf = e.shelf := rfl
@[simp] theorem Elzel.onPtp_console (e : Elzel) (p : Nat) (f : PtpPort → PtpPort) : (e.onPtp p f).console = e.console := rfl
@[simp] theorem Elzel.onPtp_mon (e : Elzel) (p : Nat) (f : PtpPort → PtpPort) : (e.onPtp p f).mon = e.mon := rfl
@[simp] theorem Elzel.onPtp_monSeq (e : Elzel) (p : Nat) (f : PtpPort → PtpPort) : (e.onPtp p f).monSeq = e.monSeq := rfl

/-! ### What both parts have -/

@[simp] theorem Chip.set_prm (c : Chip pt) (o : Nat) (v : Word) : (c.set o v).prm = c.prm := (rfl)
@[simp] theorem Chip.set_regs (c : Chip pt) (o : Nat) (v : Word) : (c.set o v).regs = regSet pt c.prm c.regs o v := (rfl)
@[simp] theorem Chip.set_now (c : Chip pt) (o : Nat) (v : Word) : (c.set o v).now = c.now := (rfl)
@[simp] theorem Chip.set_free (c : Chip pt) (o : Nat) (v : Word) : (c.set o v).free = c.free := (rfl)
@[simp] theorem Chip.set_gt (c : Chip pt) (o : Nat) (v : Word) : (c.set o v).gt = c.gt := (rfl)
@[simp] theorem Chip.set_htSec (c : Chip pt) (o : Nat) (v : Word) : (c.set o v).htSec = c.htSec := (rfl)
@[simp] theorem Chip.set_htNs (c : Chip pt) (o : Nat) (v : Word) : (c.set o v).htNs = c.htNs := (rfl)
@[simp] theorem Chip.set_htFrac (c : Chip pt) (o : Nat) (v : Word) : (c.set o v).htFrac = c.htFrac := (rfl)
@[simp] theorem Chip.set_steps (c : Chip pt) (o : Nat) (v : Word) : (c.set o v).steps = c.steps := (rfl)
@[simp] theorem Chip.set_tb (c : Chip pt) (o : Nat) (v : Word) : (c.set o v).tb = c.tb := (rfl)
@[simp] theorem Chip.set_tracks (c : Chip pt) (o : Nat) (v : Word) : (c.set o v).tracks = c.tracks := (rfl)
@[simp] theorem Chip.set_ref (c : Chip pt) (o : Nat) (v : Word) : (c.set o v).ref = c.ref := (rfl)
@[simp] theorem Chip.set_tdc (c : Chip pt) (o : Nat) (v : Word) : (c.set o v).tdc = c.tdc := (rfl)
@[simp] theorem Chip.set_links (c : Chip pt) (o : Nat) (v : Word) : (c.set o v).links = c.links := (rfl)
@[simp] theorem Chip.set_ev (c : Chip pt) (o : Nat) (v : Word) : (c.set o v).ev = c.ev := (rfl)
@[simp] theorem Chip.set_jrnl (c : Chip pt) (o : Nat) (v : Word) : (c.set o v).jrnl = c.jrnl := (rfl)
@[simp] theorem Chip.set_traceStopped (c : Chip pt) (o : Nat) (v : Word) : (c.set o v).traceStopped = c.traceStopped := (rfl)
@[simp] theorem Chip.set_fresh (c : Chip pt) (o : Nat) (v : Word) : (c.set o v).fresh = c.fresh := (rfl)
@[simp] theorem Chip.set_pw (c : Chip pt) (o : Nat) (v : Word) : (c.set o v).pw = c.pw := (rfl)
@[simp] theorem Chip.set_cmd (c : Chip pt) (o : Nat) (v : Word) : (c.set o v).cmd = c.cmd := (rfl)
@[simp] theorem Chip.set_den (c : Chip pt) (o : Nat) (v : Word) : (c.set o v).den = c.den := (rfl)
@[simp] theorem Chip.set_stage (c : Chip pt) (o : Nat) (v : Word) : (c.set o v).stage = c.stage := (rfl)
@[simp] theorem Chip.set_stageEnds (c : Chip pt) (o : Nat) (v : Word) : (c.set o v).stageEnds = c.stageEnds := (rfl)

@[simp] theorem Chip.wr_prm (c : Chip pt) (f : Fld) (v i : Nat) : (c.wr f v i).prm = c.prm := (rfl)
@[simp] theorem Chip.wr_now (c : Chip pt) (f : Fld) (v i : Nat) : (c.wr f v i).now = c.now := (rfl)
@[simp] theorem Chip.wr_free (c : Chip pt) (f : Fld) (v i : Nat) : (c.wr f v i).free = c.free := (rfl)
@[simp] theorem Chip.wr_gt (c : Chip pt) (f : Fld) (v i : Nat) : (c.wr f v i).gt = c.gt := (rfl)
@[simp] theorem Chip.wr_htSec (c : Chip pt) (f : Fld) (v i : Nat) : (c.wr f v i).htSec = c.htSec := (rfl)
@[simp] theorem Chip.wr_htNs (c : Chip pt) (f : Fld) (v i : Nat) : (c.wr f v i).htNs = c.htNs := (rfl)
@[simp] theorem Chip.wr_htFrac (c : Chip pt) (f : Fld) (v i : Nat) : (c.wr f v i).htFrac = c.htFrac := (rfl)
@[simp] theorem Chip.wr_steps (c : Chip pt) (f : Fld) (v i : Nat) : (c.wr f v i).steps = c.steps := (rfl)
@[simp] theorem Chip.wr_tb (c : Chip pt) (f : Fld) (v i : Nat) : (c.wr f v i).tb = c.tb := (rfl)
@[simp] theorem Chip.wr_tracks (c : Chip pt) (f : Fld) (v i : Nat) : (c.wr f v i).tracks = c.tracks := (rfl)
@[simp] theorem Chip.wr_ref (c : Chip pt) (f : Fld) (v i : Nat) : (c.wr f v i).ref = c.ref := (rfl)
@[simp] theorem Chip.wr_tdc (c : Chip pt) (f : Fld) (v i : Nat) : (c.wr f v i).tdc = c.tdc := (rfl)
@[simp] theorem Chip.wr_links (c : Chip pt) (f : Fld) (v i : Nat) : (c.wr f v i).links = c.links := (rfl)
@[simp] theorem Chip.wr_ev (c : Chip pt) (f : Fld) (v i : Nat) : (c.wr f v i).ev = c.ev := (rfl)
@[simp] theorem Chip.wr_jrnl (c : Chip pt) (f : Fld) (v i : Nat) : (c.wr f v i).jrnl = c.jrnl := (rfl)
@[simp] theorem Chip.wr_traceStopped (c : Chip pt) (f : Fld) (v i : Nat) : (c.wr f v i).traceStopped = c.traceStopped := (rfl)
@[simp] theorem Chip.wr_fresh (c : Chip pt) (f : Fld) (v i : Nat) : (c.wr f v i).fresh = c.fresh := (rfl)
@[simp] theorem Chip.wr_pw (c : Chip pt) (f : Fld) (v i : Nat) : (c.wr f v i).pw = c.pw := (rfl)
@[simp] theorem Chip.wr_cmd (c : Chip pt) (f : Fld) (v i : Nat) : (c.wr f v i).cmd = c.cmd := (rfl)
@[simp] theorem Chip.wr_den (c : Chip pt) (f : Fld) (v i : Nat) : (c.wr f v i).den = c.den := (rfl)
@[simp] theorem Chip.wr_stage (c : Chip pt) (f : Fld) (v i : Nat) : (c.wr f v i).stage = c.stage := (rfl)
@[simp] theorem Chip.wr_stageEnds (c : Chip pt) (f : Fld) (v i : Nat) : (c.wr f v i).stageEnds = c.stageEnds := (rfl)

@[simp] theorem Chip.wrS_prm (c : Chip pt) (f : Fld) (v : Int) (i : Nat) : (c.wrS f v i).prm = c.prm := (rfl)
@[simp] theorem Chip.wrS_now (c : Chip pt) (f : Fld) (v : Int) (i : Nat) : (c.wrS f v i).now = c.now := (rfl)
@[simp] theorem Chip.wrS_free (c : Chip pt) (f : Fld) (v : Int) (i : Nat) : (c.wrS f v i).free = c.free := (rfl)
@[simp] theorem Chip.wrS_gt (c : Chip pt) (f : Fld) (v : Int) (i : Nat) : (c.wrS f v i).gt = c.gt := (rfl)
@[simp] theorem Chip.wrS_htSec (c : Chip pt) (f : Fld) (v : Int) (i : Nat) : (c.wrS f v i).htSec = c.htSec := (rfl)
@[simp] theorem Chip.wrS_htNs (c : Chip pt) (f : Fld) (v : Int) (i : Nat) : (c.wrS f v i).htNs = c.htNs := (rfl)
@[simp] theorem Chip.wrS_htFrac (c : Chip pt) (f : Fld) (v : Int) (i : Nat) : (c.wrS f v i).htFrac = c.htFrac := (rfl)
@[simp] theorem Chip.wrS_steps (c : Chip pt) (f : Fld) (v : Int) (i : Nat) : (c.wrS f v i).steps = c.steps := (rfl)
@[simp] theorem Chip.wrS_tb (c : Chip pt) (f : Fld) (v : Int) (i : Nat) : (c.wrS f v i).tb = c.tb := (rfl)
@[simp] theorem Chip.wrS_tracks (c : Chip pt) (f : Fld) (v : Int) (i : Nat) : (c.wrS f v i).tracks = c.tracks := (rfl)
@[simp] theorem Chip.wrS_ref (c : Chip pt) (f : Fld) (v : Int) (i : Nat) : (c.wrS f v i).ref = c.ref := (rfl)
@[simp] theorem Chip.wrS_tdc (c : Chip pt) (f : Fld) (v : Int) (i : Nat) : (c.wrS f v i).tdc = c.tdc := (rfl)
@[simp] theorem Chip.wrS_links (c : Chip pt) (f : Fld) (v : Int) (i : Nat) : (c.wrS f v i).links = c.links := (rfl)
@[simp] theorem Chip.wrS_ev (c : Chip pt) (f : Fld) (v : Int) (i : Nat) : (c.wrS f v i).ev = c.ev := (rfl)
@[simp] theorem Chip.wrS_jrnl (c : Chip pt) (f : Fld) (v : Int) (i : Nat) : (c.wrS f v i).jrnl = c.jrnl := (rfl)
@[simp] theorem Chip.wrS_traceStopped (c : Chip pt) (f : Fld) (v : Int) (i : Nat) : (c.wrS f v i).traceStopped = c.traceStopped := (rfl)
@[simp] theorem Chip.wrS_fresh (c : Chip pt) (f : Fld) (v : Int) (i : Nat) : (c.wrS f v i).fresh = c.fresh := (rfl)
@[simp] theorem Chip.wrS_pw (c : Chip pt) (f : Fld) (v : Int) (i : Nat) : (c.wrS f v i).pw = c.pw := (rfl)
@[simp] theorem Chip.wrS_cmd (c : Chip pt) (f : Fld) (v : Int) (i : Nat) : (c.wrS f v i).cmd = c.cmd := (rfl)
@[simp] theorem Chip.wrS_den (c : Chip pt) (f : Fld) (v : Int) (i : Nat) : (c.wrS f v i).den = c.den := (rfl)
@[simp] theorem Chip.wrS_stage (c : Chip pt) (f : Fld) (v : Int) (i : Nat) : (c.wrS f v i).stage = c.stage := (rfl)
@[simp] theorem Chip.wrS_stageEnds (c : Chip pt) (f : Fld) (v : Int) (i : Nat) : (c.wrS f v i).stageEnds = c.stageEnds := (rfl)

@[simp] theorem Chip.inc_prm (c : Chip pt) (f : Fld) (i k : Nat) : (c.inc f i k).prm = c.prm := (rfl)
@[simp] theorem Chip.inc_now (c : Chip pt) (f : Fld) (i k : Nat) : (c.inc f i k).now = c.now := (rfl)
@[simp] theorem Chip.inc_free (c : Chip pt) (f : Fld) (i k : Nat) : (c.inc f i k).free = c.free := (rfl)
@[simp] theorem Chip.inc_gt (c : Chip pt) (f : Fld) (i k : Nat) : (c.inc f i k).gt = c.gt := (rfl)
@[simp] theorem Chip.inc_htSec (c : Chip pt) (f : Fld) (i k : Nat) : (c.inc f i k).htSec = c.htSec := (rfl)
@[simp] theorem Chip.inc_htNs (c : Chip pt) (f : Fld) (i k : Nat) : (c.inc f i k).htNs = c.htNs := (rfl)
@[simp] theorem Chip.inc_htFrac (c : Chip pt) (f : Fld) (i k : Nat) : (c.inc f i k).htFrac = c.htFrac := (rfl)
@[simp] theorem Chip.inc_steps (c : Chip pt) (f : Fld) (i k : Nat) : (c.inc f i k).steps = c.steps := (rfl)
@[simp] theorem Chip.inc_tb (c : Chip pt) (f : Fld) (i k : Nat) : (c.inc f i k).tb = c.tb := (rfl)
@[simp] theorem Chip.inc_tracks (c : Chip pt) (f : Fld) (i k : Nat) : (c.inc f i k).tracks = c.tracks := (rfl)
@[simp] theorem Chip.inc_ref (c : Chip pt) (f : Fld) (i k : Nat) : (c.inc f i k).ref = c.ref := (rfl)
@[simp] theorem Chip.inc_tdc (c : Chip pt) (f : Fld) (i k : Nat) : (c.inc f i k).tdc = c.tdc := (rfl)
@[simp] theorem Chip.inc_links (c : Chip pt) (f : Fld) (i k : Nat) : (c.inc f i k).links = c.links := (rfl)
@[simp] theorem Chip.inc_ev (c : Chip pt) (f : Fld) (i k : Nat) : (c.inc f i k).ev = c.ev := (rfl)
@[simp] theorem Chip.inc_jrnl (c : Chip pt) (f : Fld) (i k : Nat) : (c.inc f i k).jrnl = c.jrnl := (rfl)
@[simp] theorem Chip.inc_traceStopped (c : Chip pt) (f : Fld) (i k : Nat) : (c.inc f i k).traceStopped = c.traceStopped := (rfl)
@[simp] theorem Chip.inc_fresh (c : Chip pt) (f : Fld) (i k : Nat) : (c.inc f i k).fresh = c.fresh := (rfl)
@[simp] theorem Chip.inc_pw (c : Chip pt) (f : Fld) (i k : Nat) : (c.inc f i k).pw = c.pw := (rfl)
@[simp] theorem Chip.inc_cmd (c : Chip pt) (f : Fld) (i k : Nat) : (c.inc f i k).cmd = c.cmd := (rfl)
@[simp] theorem Chip.inc_den (c : Chip pt) (f : Fld) (i k : Nat) : (c.inc f i k).den = c.den := (rfl)
@[simp] theorem Chip.inc_stage (c : Chip pt) (f : Fld) (i k : Nat) : (c.inc f i k).stage = c.stage := (rfl)
@[simp] theorem Chip.inc_stageEnds (c : Chip pt) (f : Fld) (i k : Nat) : (c.inc f i k).stageEnds = c.stageEnds := (rfl)

@[simp] theorem Chip.onLink_prm (c : Chip pt) (p : Nat) (f : Link → Link) : (c.onLink p f).prm = c.prm := (rfl)
@[simp] theorem Chip.onLink_regs (c : Chip pt) (p : Nat) (f : Link → Link) : (c.onLink p f).regs = c.regs := (rfl)
@[simp] theorem Chip.onLink_now (c : Chip pt) (p : Nat) (f : Link → Link) : (c.onLink p f).now = c.now := (rfl)
@[simp] theorem Chip.onLink_free (c : Chip pt) (p : Nat) (f : Link → Link) : (c.onLink p f).free = c.free := (rfl)
@[simp] theorem Chip.onLink_gt (c : Chip pt) (p : Nat) (f : Link → Link) : (c.onLink p f).gt = c.gt := (rfl)
@[simp] theorem Chip.onLink_htSec (c : Chip pt) (p : Nat) (f : Link → Link) : (c.onLink p f).htSec = c.htSec := (rfl)
@[simp] theorem Chip.onLink_htNs (c : Chip pt) (p : Nat) (f : Link → Link) : (c.onLink p f).htNs = c.htNs := (rfl)
@[simp] theorem Chip.onLink_htFrac (c : Chip pt) (p : Nat) (f : Link → Link) : (c.onLink p f).htFrac = c.htFrac := (rfl)
@[simp] theorem Chip.onLink_steps (c : Chip pt) (p : Nat) (f : Link → Link) : (c.onLink p f).steps = c.steps := (rfl)
@[simp] theorem Chip.onLink_tb (c : Chip pt) (p : Nat) (f : Link → Link) : (c.onLink p f).tb = c.tb := (rfl)
@[simp] theorem Chip.onLink_tracks (c : Chip pt) (p : Nat) (f : Link → Link) : (c.onLink p f).tracks = c.tracks := (rfl)
@[simp] theorem Chip.onLink_ref (c : Chip pt) (p : Nat) (f : Link → Link) : (c.onLink p f).ref = c.ref := (rfl)
@[simp] theorem Chip.onLink_tdc (c : Chip pt) (p : Nat) (f : Link → Link) : (c.onLink p f).tdc = c.tdc := (rfl)
@[simp] theorem Chip.onLink_links (c : Chip pt) (p : Nat) (f : Link → Link) : (c.onLink p f).links = upd c.links p f := (rfl)
@[simp] theorem Chip.onLink_ev (c : Chip pt) (p : Nat) (f : Link → Link) : (c.onLink p f).ev = c.ev := (rfl)
@[simp] theorem Chip.onLink_jrnl (c : Chip pt) (p : Nat) (f : Link → Link) : (c.onLink p f).jrnl = c.jrnl := (rfl)
@[simp] theorem Chip.onLink_traceStopped (c : Chip pt) (p : Nat) (f : Link → Link) : (c.onLink p f).traceStopped = c.traceStopped := (rfl)
@[simp] theorem Chip.onLink_fresh (c : Chip pt) (p : Nat) (f : Link → Link) : (c.onLink p f).fresh = c.fresh := (rfl)
@[simp] theorem Chip.onLink_pw (c : Chip pt) (p : Nat) (f : Link → Link) : (c.onLink p f).pw = c.pw := (rfl)
@[simp] theorem Chip.onLink_cmd (c : Chip pt) (p : Nat) (f : Link → Link) : (c.onLink p f).cmd = c.cmd := (rfl)
@[simp] theorem Chip.onLink_den (c : Chip pt) (p : Nat) (f : Link → Link) : (c.onLink p f).den = c.den := (rfl)
@[simp] theorem Chip.onLink_stage (c : Chip pt) (p : Nat) (f : Link → Link) : (c.onLink p f).stage = c.stage := (rfl)
@[simp] theorem Chip.onLink_stageEnds (c : Chip pt) (p : Nat) (f : Link → Link) : (c.onLink p f).stageEnds = c.stageEnds := (rfl)

@[simp] theorem Chip.onTdc_prm (c : Chip pt) (n : Nat) (f : Tdc → Tdc) : (c.onTdc n f).prm = c.prm := (rfl)
@[simp] theorem Chip.onTdc_regs (c : Chip pt) (n : Nat) (f : Tdc → Tdc) : (c.onTdc n f).regs = c.regs := (rfl)
@[simp] theorem Chip.onTdc_now (c : Chip pt) (n : Nat) (f : Tdc → Tdc) : (c.onTdc n f).now = c.now := (rfl)
@[simp] theorem Chip.onTdc_free (c : Chip pt) (n : Nat) (f : Tdc → Tdc) : (c.onTdc n f).free = c.free := (rfl)
@[simp] theorem Chip.onTdc_gt (c : Chip pt) (n : Nat) (f : Tdc → Tdc) : (c.onTdc n f).gt = c.gt := (rfl)
@[simp] theorem Chip.onTdc_htSec (c : Chip pt) (n : Nat) (f : Tdc → Tdc) : (c.onTdc n f).htSec = c.htSec := (rfl)
@[simp] theorem Chip.onTdc_htNs (c : Chip pt) (n : Nat) (f : Tdc → Tdc) : (c.onTdc n f).htNs = c.htNs := (rfl)
@[simp] theorem Chip.onTdc_htFrac (c : Chip pt) (n : Nat) (f : Tdc → Tdc) : (c.onTdc n f).htFrac = c.htFrac := (rfl)
@[simp] theorem Chip.onTdc_steps (c : Chip pt) (n : Nat) (f : Tdc → Tdc) : (c.onTdc n f).steps = c.steps := (rfl)
@[simp] theorem Chip.onTdc_tb (c : Chip pt) (n : Nat) (f : Tdc → Tdc) : (c.onTdc n f).tb = c.tb := (rfl)
@[simp] theorem Chip.onTdc_tracks (c : Chip pt) (n : Nat) (f : Tdc → Tdc) : (c.onTdc n f).tracks = c.tracks := (rfl)
@[simp] theorem Chip.onTdc_ref (c : Chip pt) (n : Nat) (f : Tdc → Tdc) : (c.onTdc n f).ref = c.ref := (rfl)
@[simp] theorem Chip.onTdc_tdc (c : Chip pt) (n : Nat) (f : Tdc → Tdc) : (c.onTdc n f).tdc = upd c.tdc n f := (rfl)
@[simp] theorem Chip.onTdc_links (c : Chip pt) (n : Nat) (f : Tdc → Tdc) : (c.onTdc n f).links = c.links := (rfl)
@[simp] theorem Chip.onTdc_ev (c : Chip pt) (n : Nat) (f : Tdc → Tdc) : (c.onTdc n f).ev = c.ev := (rfl)
@[simp] theorem Chip.onTdc_jrnl (c : Chip pt) (n : Nat) (f : Tdc → Tdc) : (c.onTdc n f).jrnl = c.jrnl := (rfl)
@[simp] theorem Chip.onTdc_traceStopped (c : Chip pt) (n : Nat) (f : Tdc → Tdc) : (c.onTdc n f).traceStopped = c.traceStopped := (rfl)
@[simp] theorem Chip.onTdc_fresh (c : Chip pt) (n : Nat) (f : Tdc → Tdc) : (c.onTdc n f).fresh = c.fresh := (rfl)
@[simp] theorem Chip.onTdc_pw (c : Chip pt) (n : Nat) (f : Tdc → Tdc) : (c.onTdc n f).pw = c.pw := (rfl)
@[simp] theorem Chip.onTdc_cmd (c : Chip pt) (n : Nat) (f : Tdc → Tdc) : (c.onTdc n f).cmd = c.cmd := (rfl)
@[simp] theorem Chip.onTdc_den (c : Chip pt) (n : Nat) (f : Tdc → Tdc) : (c.onTdc n f).den = c.den := (rfl)
@[simp] theorem Chip.onTdc_stage (c : Chip pt) (n : Nat) (f : Tdc → Tdc) : (c.onTdc n f).stage = c.stage := (rfl)
@[simp] theorem Chip.onTdc_stageEnds (c : Chip pt) (n : Nat) (f : Tdc → Tdc) : (c.onTdc n f).stageEnds = c.stageEnds := (rfl)

@[simp] theorem Chip.onRing_prm (c : Chip pt) (r : Nat) (f : RingSt → RingSt) : (c.onRing r f).prm = c.prm := (rfl)
@[simp] theorem Chip.onRing_regs (c : Chip pt) (r : Nat) (f : RingSt → RingSt) : (c.onRing r f).regs = c.regs := (rfl)
@[simp] theorem Chip.onRing_now (c : Chip pt) (r : Nat) (f : RingSt → RingSt) : (c.onRing r f).now = c.now := (rfl)
@[simp] theorem Chip.onRing_free (c : Chip pt) (r : Nat) (f : RingSt → RingSt) : (c.onRing r f).free = c.free := (rfl)
@[simp] theorem Chip.onRing_gt (c : Chip pt) (r : Nat) (f : RingSt → RingSt) : (c.onRing r f).gt = c.gt := (rfl)
@[simp] theorem Chip.onRing_htSec (c : Chip pt) (r : Nat) (f : RingSt → RingSt) : (c.onRing r f).htSec = c.htSec := (rfl)
@[simp] theorem Chip.onRing_htNs (c : Chip pt) (r : Nat) (f : RingSt → RingSt) : (c.onRing r f).htNs = c.htNs := (rfl)
@[simp] theorem Chip.onRing_htFrac (c : Chip pt) (r : Nat) (f : RingSt → RingSt) : (c.onRing r f).htFrac = c.htFrac := (rfl)
@[simp] theorem Chip.onRing_steps (c : Chip pt) (r : Nat) (f : RingSt → RingSt) : (c.onRing r f).steps = c.steps := (rfl)
@[simp] theorem Chip.onRing_tb (c : Chip pt) (r : Nat) (f : RingSt → RingSt) : (c.onRing r f).tb = c.tb := (rfl)
@[simp] theorem Chip.onRing_tracks (c : Chip pt) (r : Nat) (f : RingSt → RingSt) : (c.onRing r f).tracks = c.tracks := (rfl)
@[simp] theorem Chip.onRing_ref (c : Chip pt) (r : Nat) (f : RingSt → RingSt) : (c.onRing r f).ref = c.ref := (rfl)
@[simp] theorem Chip.onRing_tdc (c : Chip pt) (r : Nat) (f : RingSt → RingSt) : (c.onRing r f).tdc = c.tdc := (rfl)
@[simp] theorem Chip.onRing_links (c : Chip pt) (r : Nat) (f : RingSt → RingSt) : (c.onRing r f).links = c.links := (rfl)
@[simp] theorem Chip.onRing_ev (c : Chip pt) (r : Nat) (f : RingSt → RingSt) : (c.onRing r f).ev = { c.ev with rings := upd c.ev.rings r f } := (rfl)
@[simp] theorem Chip.onRing_jrnl (c : Chip pt) (r : Nat) (f : RingSt → RingSt) : (c.onRing r f).jrnl = c.jrnl := (rfl)
@[simp] theorem Chip.onRing_traceStopped (c : Chip pt) (r : Nat) (f : RingSt → RingSt) : (c.onRing r f).traceStopped = c.traceStopped := (rfl)
@[simp] theorem Chip.onRing_fresh (c : Chip pt) (r : Nat) (f : RingSt → RingSt) : (c.onRing r f).fresh = c.fresh := (rfl)
@[simp] theorem Chip.onRing_pw (c : Chip pt) (r : Nat) (f : RingSt → RingSt) : (c.onRing r f).pw = c.pw := (rfl)
@[simp] theorem Chip.onRing_cmd (c : Chip pt) (r : Nat) (f : RingSt → RingSt) : (c.onRing r f).cmd = c.cmd := (rfl)
@[simp] theorem Chip.onRing_den (c : Chip pt) (r : Nat) (f : RingSt → RingSt) : (c.onRing r f).den = c.den := (rfl)
@[simp] theorem Chip.onRing_stage (c : Chip pt) (r : Nat) (f : RingSt → RingSt) : (c.onRing r f).stage = c.stage := (rfl)
@[simp] theorem Chip.onRing_stageEnds (c : Chip pt) (r : Nat) (f : RingSt → RingSt) : (c.onRing r f).stageEnds = c.stageEnds := (rfl)

@[simp] theorem Chip.onStage_prm (c : Chip pt) (k : Nat) (f : StageX → StageX) : (c.onStage k f).prm = c.prm := (rfl)
@[simp] theorem Chip.onStage_regs (c : Chip pt) (k : Nat) (f : StageX → StageX) : (c.onStage k f).regs = c.regs := (rfl)
@[simp] theorem Chip.onStage_now (c : Chip pt) (k : Nat) (f : StageX → StageX) : (c.onStage k f).now = c.now := (rfl)
@[simp] theorem Chip.onStage_free (c : Chip pt) (k : Nat) (f : StageX → StageX) : (c.onStage k f).free = c.free := (rfl)
@[simp] theorem Chip.onStage_gt (c : Chip pt) (k : Nat) (f : StageX → StageX) : (c.onStage k f).gt = c.gt := (rfl)
@[simp] theorem Chip.onStage_htSec (c : Chip pt) (k : Nat) (f : StageX → StageX) : (c.onStage k f).htSec = c.htSec := (rfl)
@[simp] theorem Chip.onStage_htNs (c : Chip pt) (k : Nat) (f : StageX → StageX) : (c.onStage k f).htNs = c.htNs := (rfl)
@[simp] theorem Chip.onStage_htFrac (c : Chip pt) (k : Nat) (f : StageX → StageX) : (c.onStage k f).htFrac = c.htFrac := (rfl)
@[simp] theorem Chip.onStage_steps (c : Chip pt) (k : Nat) (f : StageX → StageX) : (c.onStage k f).steps = c.steps := (rfl)
@[simp] theorem Chip.onStage_tb (c : Chip pt) (k : Nat) (f : StageX → StageX) : (c.onStage k f).tb = c.tb := (rfl)
@[simp] theorem Chip.onStage_tracks (c : Chip pt) (k : Nat) (f : StageX → StageX) : (c.onStage k f).tracks = c.tracks := (rfl)
@[simp] theorem Chip.onStage_ref (c : Chip pt) (k : Nat) (f : StageX → StageX) : (c.onStage k f).ref = c.ref := (rfl)
@[simp] theorem Chip.onStage_tdc (c : Chip pt) (k : Nat) (f : StageX → StageX) : (c.onStage k f).tdc = c.tdc := (rfl)
@[simp] theorem Chip.onStage_links (c : Chip pt) (k : Nat) (f : StageX → StageX) : (c.onStage k f).links = c.links := (rfl)
@[simp] theorem Chip.onStage_ev (c : Chip pt) (k : Nat) (f : StageX → StageX) : (c.onStage k f).ev = c.ev := (rfl)
@[simp] theorem Chip.onStage_jrnl (c : Chip pt) (k : Nat) (f : StageX → StageX) : (c.onStage k f).jrnl = c.jrnl := (rfl)
@[simp] theorem Chip.onStage_traceStopped (c : Chip pt) (k : Nat) (f : StageX → StageX) : (c.onStage k f).traceStopped = c.traceStopped := (rfl)
@[simp] theorem Chip.onStage_fresh (c : Chip pt) (k : Nat) (f : StageX → StageX) : (c.onStage k f).fresh = c.fresh := (rfl)
@[simp] theorem Chip.onStage_pw (c : Chip pt) (k : Nat) (f : StageX → StageX) : (c.onStage k f).pw = c.pw := (rfl)
@[simp] theorem Chip.onStage_cmd (c : Chip pt) (k : Nat) (f : StageX → StageX) : (c.onStage k f).cmd = c.cmd := (rfl)
@[simp] theorem Chip.onStage_den (c : Chip pt) (k : Nat) (f : StageX → StageX) : (c.onStage k f).den = c.den := (rfl)
@[simp] theorem Chip.onStage_stage (c : Chip pt) (k : Nat) (f : StageX → StageX) : (c.onStage k f).stage = upd c.stage k f := (rfl)
@[simp] theorem Chip.onStage_stageEnds (c : Chip pt) (k : Nat) (f : StageX → StageX) : (c.onStage k f).stageEnds = c.stageEnds := (rfl)

@[simp] theorem Chip.onDenSt_prm (c : Chip pt) (f : Den → Den) : (c.onDenSt f).prm = c.prm := (rfl)
@[simp] theorem Chip.onDenSt_regs (c : Chip pt) (f : Den → Den) : (c.onDenSt f).regs = c.regs := (rfl)
@[simp] theorem Chip.onDenSt_now (c : Chip pt) (f : Den → Den) : (c.onDenSt f).now = c.now := (rfl)
@[simp] theorem Chip.onDenSt_free (c : Chip pt) (f : Den → Den) : (c.onDenSt f).free = c.free := (rfl)
@[simp] theorem Chip.onDenSt_gt (c : Chip pt) (f : Den → Den) : (c.onDenSt f).gt = c.gt := (rfl)
@[simp] theorem Chip.onDenSt_htSec (c : Chip pt) (f : Den → Den) : (c.onDenSt f).htSec = c.htSec := (rfl)
@[simp] theorem Chip.onDenSt_htNs (c : Chip pt) (f : Den → Den) : (c.onDenSt f).htNs = c.htNs := (rfl)
@[simp] theorem Chip.onDenSt_htFrac (c : Chip pt) (f : Den → Den) : (c.onDenSt f).htFrac = c.htFrac := (rfl)
@[simp] theorem Chip.onDenSt_steps (c : Chip pt) (f : Den → Den) : (c.onDenSt f).steps = c.steps := (rfl)
@[simp] theorem Chip.onDenSt_tb (c : Chip pt) (f : Den → Den) : (c.onDenSt f).tb = c.tb := (rfl)
@[simp] theorem Chip.onDenSt_tracks (c : Chip pt) (f : Den → Den) : (c.onDenSt f).tracks = c.tracks := (rfl)
@[simp] theorem Chip.onDenSt_ref (c : Chip pt) (f : Den → Den) : (c.onDenSt f).ref = c.ref := (rfl)
@[simp] theorem Chip.onDenSt_tdc (c : Chip pt) (f : Den → Den) : (c.onDenSt f).tdc = c.tdc := (rfl)
@[simp] theorem Chip.onDenSt_links (c : Chip pt) (f : Den → Den) : (c.onDenSt f).links = c.links := (rfl)
@[simp] theorem Chip.onDenSt_ev (c : Chip pt) (f : Den → Den) : (c.onDenSt f).ev = c.ev := (rfl)
@[simp] theorem Chip.onDenSt_jrnl (c : Chip pt) (f : Den → Den) : (c.onDenSt f).jrnl = c.jrnl := (rfl)
@[simp] theorem Chip.onDenSt_traceStopped (c : Chip pt) (f : Den → Den) : (c.onDenSt f).traceStopped = c.traceStopped := (rfl)
@[simp] theorem Chip.onDenSt_fresh (c : Chip pt) (f : Den → Den) : (c.onDenSt f).fresh = c.fresh := (rfl)
@[simp] theorem Chip.onDenSt_pw (c : Chip pt) (f : Den → Den) : (c.onDenSt f).pw = c.pw := (rfl)
@[simp] theorem Chip.onDenSt_cmd (c : Chip pt) (f : Den → Den) : (c.onDenSt f).cmd = c.cmd := (rfl)
@[simp] theorem Chip.onDenSt_den (c : Chip pt) (f : Den → Den) : (c.onDenSt f).den = f c.den := (rfl)
@[simp] theorem Chip.onDenSt_stage (c : Chip pt) (f : Den → Den) : (c.onDenSt f).stage = c.stage := (rfl)
@[simp] theorem Chip.onDenSt_stageEnds (c : Chip pt) (f : Den → Den) : (c.onDenSt f).stageEnds = c.stageEnds := (rfl)

end Sys2Proof.Machine
end

