-- ==== Sys2Proof/Laws/Reports.lean ====
section
/-!
SUPPORT. Sys2Proof/Laws/Reports.lean: everything that raising an event, latching an interrupt source or counting a lost record can
change, said once: such an operation only reports (`Chip.Reported`).
-/
namespace Sys2Proof.Machine

variable {pt : Part}

@[simp] theorem Chip.Reported.same (c : Chip pt) : c.Reported c := ⟨rfl, fun _ _ => rfl, rfl⟩

theorem Chip.Reported.trans {a b c : Chip pt} (h : a.Reported b) (k : b.Reported c) : a.Reported c :=
  ⟨k.1.trans h.1, fun o e => (k.2.1 o e).trans (h.2.1 o e), k.2.2.trans h.2.2⟩

/-- A write of a reporting register only reports. -/
theorem Chip.Reported.wr (c : Chip pt) (f : Fld) (v i : Nat) (h : evtReg pt (f.off + f.stride * i) = true) : c.Reported (c.wr f v i) := by
  refine ⟨rfl, fun o e => ?_, rfl⟩
  apply Chip.get_wr_ne
  intro k; rw [k, h] at e; cases e

theorem Chip.Reported.inc (c : Chip pt) (f : Fld) (i k : Nat) (h : evtReg pt (f.off + f.stride * i) = true) : c.Reported (c.inc f i k) :=
  Chip.Reported.wr c f _ i h

/-- A change of the records and vectors only reports. -/
theorem Chip.Reported.ev (c : Chip pt) (e : Events) : Chip.Reported c { c with ev := e } := ⟨rfl, fun _ _ => rfl, rfl⟩

theorem Chip.Reported.foldl {α : Type} (l : List α) (f : Chip pt → α → Chip pt) (h : ∀ c : Chip pt, ∀ a ∈ l, c.Reported (f c a)) (c : Chip pt) :
    c.Reported (l.foldl f c) := by
  induction l generalizing c with
  | nil => exact .same c
  | cons a l ih => exact (h c a (by simp)).trans (ih (fun c b m => h c b (by simp [m])) (f c a))

theorem Chip.Reported.msixSend (c : Chip .elzel) (v : Nat) (h : v < 1152) : c.Reported (c.msixSend v) := by
  unfold Chip.msixSend
  split
  · dsimp only
    split
    · exact .same c
    · apply Chip.Reported.wr
      exact (by decide : ∀ k < 18, evtReg .elzel (EZ.MSIX_PBA_PEND.off + EZ.MSIX_PBA_PEND.stride * k) = true) (v / 64) (by omega)
  · exact .ev c _

theorem evtReg_ring (u : Part) (r : Nat) (h : r < ringCount u) :
    evtReg u ((PT.EVT_RING_CFG_DROP u).off + (PT.EVT_RING_CFG_DROP u).stride * r) = true := by
  cases u with
  | garja => exact (by decide : ∀ r < 16, evtReg .garja (GJ.EVT_RING_CFG_DROP.off + GJ.EVT_RING_CFG_DROP.stride * r) = true) r h
  | elzel => exact (by decide : ∀ r < 64, evtReg .elzel (EZ.EVT_RING_CFG_DROP.off + EZ.EVT_RING_CFG_DROP.stride * r) = true) r h

theorem evtReg_irq (u : Part) : evtReg u ((PT.IRQ_PEND_PEND u).off + (PT.IRQ_PEND_PEND u).stride * 0) = true := by
  cases u <;> decide

theorem evtReg_status (u : Part) :
    evtReg u ((PT.EVT_STATUS_NOROUTE u).off + (PT.EVT_STATUS_NOROUTE u).stride * 0) = true
      ∧ evtReg u ((PT.EVT_STATUS_QDROP u).off + (PT.EVT_STATUS_QDROP u).stride * 0) = true
      ∧ evtReg u ((PT.EVT_STATUS_UP_DROP u).off + (PT.EVT_STATUS_UP_DROP u).stride * 0) = true := by
  cases u <;> decide

theorem Chip.Reported.latchIrq (c : Chip pt) (n : Nat) (h : n < 64) : c.Reported (c.latchIrq n) := by
  unfold Chip.latchIrq
  cases pt
  · dsimp only
    split
    · exact .same c
    · exact .wr c _ _ _ (evtReg_irq _)
  · dsimp only
    split
    · exact .same c
    · split
      · exact .wr c _ _ _ (evtReg_irq _)
      · exact (Chip.Reported.wr c _ _ _ (evtReg_irq _)).trans (.msixSend _ _ (by omega))

theorem Chip.Reported.dropFor (c : Chip pt) (r : Nat) (ws : List Word) (h : r < ringCount pt) :
    c.Reported (c.dropFor r ws) := by
  unfold Chip.dropFor
  refine Chip.Reported.trans (.inc c _ r 1 (evtReg_ring pt r h)) ?_
  exact Chip.Reported.trans (.latchIrq _ _ (by cases pt <;> simp)) (.ev _ _)

theorem Chip.Reported.enqueueRec (c : Chip pt) (ws : List Word) (rings : List Nat) (h : ∀ r ∈ rings, r < ringCount pt) :
    c.Reported (c.enqueueRec ws rings) := by
  unfold Chip.enqueueRec
  dsimp only
  split
  · exact .inc c _ _ _ (evtReg_status pt).1
  · split
    · exact Chip.Reported.trans (b := c.inc (PT.EVT_STATUS_QDROP pt)) (.inc c _ _ _ (evtReg_status pt).2.1)
        (.foldl _ (fun c r => c.dropFor r ws) (fun d a m => .dropFor d a ws (h a (List.mem_filter.mp m).1)) _)
    · exact .ev c _

/-- A change of the EVENT queue of one port leaves the rest of every port. -/
theorem map_evt_upd (l : List Link) (p : Nat) (f : Link → Link)
    (h : ∀ x, { f x with txq := { (f x).txq with evt := [] } } = { x with txq := { x.txq with evt := [] } }) :
    (upd l p f).map (fun x => { x with txq := { x.txq with evt := [] } }) = l.map (fun x => { x with txq := { x.txq with evt := [] } }) := by
  induction l generalizing p with
  | nil => rfl
  | cons a l ih => cases p with
    | zero => simp only [upd, List.map_cons, h]
    | succ p => simp only [upd, List.map_cons, ih]

/-- A packet of the EVENT class queued on a port only reports. -/
theorem Chip.Reported.send (c : Chip pt) (p : Nat) (pkt : Pkt) (ctx : Option Nat) : c.Reported (c.send p .evt pkt ctx) := by
  unfold Chip.send
  split
  · refine ⟨?_, fun _ _ => rfl, rfl⟩
    simp only [Chip.body, Chip.onLink]
    rw [map_evt_upd]
    intro x; rfl
  · exact .same c

theorem Chip.Reported.sendUp (c : Chip pt) (p : Nat) (ws : List Word) (ctx : Option Nat) : c.Reported (c.sendUp p ws ctx) := by
  unfold Chip.sendUp
  split
  · exact .send c p _ ctx
  · exact .inc c _ _ _ (evtReg_status pt).2.2

theorem Chip.Reported.jrnlPut (c : Chip .elzel) (r : Nat) (bs : List (BitVec 8)) (h : r < 5) : c.Reported (c.jrnlPut r bs).1 := by
  have w (c : Chip .elzel) (f : Fld) (v : Nat) (hf : f = EZ.JRNL_REG_W1_WR ∨ f = EZ.JRNL_REG_W1_WRAPS) : c.Reported (c.wr f v r) := by
    apply Chip.Reported.wr
    obtain hf | hf := hf <;> subst hf <;> revert r <;> decide
  have d : c.Reported (c.inc EZ.JRNL_CTL_DROP) := .inc c _ _ _ (by decide)
  unfold Chip.jrnlPut
  split
  · exact .same c
  · split
    · exact d
    · dsimp only
      split
      · exact ⟨d.1, d.2.1, d.2.2⟩
      · have j : c.Reported { c with jrnl := ringWrite c.jrnl (c.regionBase r) (c.regionSize r) (c.rd EZ.JRNL_REG_W1_WR r) bs } :=
          ⟨rfl, fun _ _ => rfl, rfl⟩
        have k := j.trans (w _ EZ.JRNL_REG_W1_WR ((c.rd EZ.JRNL_REG_W1_WR r + bs.length) % c.regionSize r) (.inl rfl))
        split
        · exact k.trans (w _ EZ.JRNL_REG_W1_WRAPS _ (.inr rfl))
        · exact k

theorem Chip.rd_lt (c : Chip pt) (f : Fld) (i : Nat) : c.rd f i < 2 ^ (f.hi + 1 - f.lo) := natBits_lt _ _ _

theorem ezRing_lt (c : Chip .elzel) (i : Nat) : c.rd EZ.EVT_ROUTE_RING i < 64 := c.rd_lt EZ.EVT_ROUTE_RING i

theorem Chip.Reported.ezRoute (c : Chip .elzel) (ws : List Word) (rings : Option (List Nat)) (h : ∀ l, rings = some l → ∀ r ∈ l, r < 64) :
    c.Reported (c.ezRoute ws rings) := by
  have up (d : Chip .elzel) (k : c.Reported d) :
      c.Reported (if d.flag EZ.EVT_ROUTE_UP (recType ws) && !d.isRoot then d.sendUp d.uplink ws else d) := by
    split
    · exact k.trans (.sendUp _ _ _ _)
    · exact k
  cases rings with
  | some l => exact up _ (.enqueueRec c ws l (h l rfl))
  | none =>
    refine up _ (.enqueueRec c ws _ ?_)
    dsimp only
    split
    · intro r m; rw [List.mem_singleton] at m; rw [m]; exact ezRing_lt c _
    · intro r m; cases m

theorem Chip.Reported.ezTrace (c : Chip .elzel) (ws : List Word) : c.Reported (c.ezTrace ws) := by
  have put (c : Chip .elzel) (bs : List (BitVec 8)) : c.Reported (c.jrnlPut 3 bs).1 := .jrnlPut c 3 bs (by omega)
  have tail (c : Chip .elzel) (w : List Word) : c.Reported
      (if (c.ezRoute w none).flag EZ.EVT_ROUTE_JRNL EV.JRNL_WRAP then ((c.ezRoute w none).jrnlPut 3 (w.flatMap (fun w => bytesBE 8 w.toNat))).1
        else c.ezRoute w none) := by
    have r : c.Reported (c.ezRoute w none) := .ezRoute c w none (fun l k => by cases k)
    split
    · exact r.trans (put _ _)
    · exact r
  have q := put c (ws.flatMap (fun w => bytesBE 8 w.toNat))
  unfold Chip.ezTrace
  split
  · exact .same c
  · split <;> rename_i e <;> rw [e] at q <;> dsimp only at q ⊢ <;> try exact q
    all_goals exact q.trans (tail _ _)

theorem onesOf_lt (v n r : Nat) (h : r ∈ onesOf v n) : r < n := by
  simp [onesOf] at h; exact h.1

/-- A change of the power state between states in which the main clocks run only reports. -/
theorem Chip.Reported.pw (d : Chip pt) (q : Power) (a : d.pw.st ≠ .burrow) (b : d.pw.st ≠ .denOnly) (a' : q.st ≠ .burrow) (b' : q.st ≠ .denOnly) :
    Chip.Reported d { d with pw := q } := by
  refine ⟨rfl, fun _ _ => rfl, ?_⟩
  have z (x : PowerState) : (x != .burrow && x != .denOnly) = (decide (x ≠ .burrow) && decide (x ≠ .denOnly)) := by cases x <;> rfl
  simp only [Chip.clocked, z, a, b, a', b', decide_true, Bool.true_and, ne_eq, not_false_eq_true]

theorem Chip.Reported.wakeRec (c : Chip .garja) (l k : Nat) : c.Reported (c.wakeRec l k) := by
  unfold Chip.wakeRec
  exact ((Chip.Reported.wr c _ _ _ (by decide)).trans (.wr _ _ _ _ (by decide))).trans (.inc _ _ _ _ (by decide))

@[simp] theorem Chip.wakeRec_pw (c : Chip pt) (l k : Nat) : (c.wakeRec l k).pw = c.pw := by simp [Chip.wakeRec]

/-- A wake of a Garja that is not in BURROW only reports. -/
theorem Chip.Reported.wake (c : Chip .garja) (k : Nat) (h : c.pw.st ≠ .burrow) : c.Reported (c.wake k) := by
  unfold Chip.wake
  split
  case h_1 e =>
    have w := Chip.Reported.wakeRec c 2 k
    have st := c.wakeRec_pw 2 k
    generalize c.wakeRec 2 k = d at w st
    exact w.trans (.pw d _ (by simp [st, e]) (by simp [st, e]) (by simp) (by simp))
  case h_2 e => exact absurd e h
  case h_3 e => exact .pw c _ (by simp [e]) (by simp [e]) (by simp) (by simp)
  case h_4 e => exact .pw c _ (by simp [e]) (by simp [e]) (by simp [e]) (by simp [e])
  case h_5 e => exact .same c

theorem gjRing_lt (c : Chip .garja) (i : Nat) : c.rd GJ.EVT_CTXRING_RING i < 16 := c.rd_lt GJ.EVT_CTXRING_RING i

theorem Chip.Reported.gjRoute (c : Chip .garja) (ws : List Word) (ctx : Option Nat) (rings : Option (List Nat))
    (h : ∀ l, rings = some l → ∀ r ∈ l, r < 16) : c.Reported (c.gjRoute ws ctx rings) := by
  have up (d : Chip .garja) (b : Bool) (k : c.Reported d) :
      c.Reported (if (if b then d.sendUp (d.upPort ctx) ws ctx else d).pw.st == .burrow then (if b then d.sendUp (d.upPort ctx) ws ctx else d)
        else (if b then d.sendUp (d.upPort ctx) ws ctx else d).wake 4) := by
    have q : c.Reported (if b then d.sendUp (d.upPort ctx) ws ctx else d) := by
      split
      · exact k.trans (.sendUp _ _ _ _)
      · exact k
    generalize (if b then d.sendUp (d.upPort ctx) ws ctx else d) = x at q
    split
    · exact q
    · rename_i n; exact q.trans (.wake _ _ (by simpa using n))
  have one (l : List Nat) (m : ∀ r ∈ l, r < 16) : c.Reported (c.enqueueRec ws l) := .enqueueRec c ws l m
  have sh : ∀ r ∈ onesOf (bits (c.get (gjRouteOff (recType ws))) 63 48) 16, r < 16 := fun r m => onesOf_lt _ _ _ m
  unfold Chip.gjRoute
  cases rings with
  | some l => exact up _ _ (one l (h l rfl))
  | none =>
    cases ctx with
    | none => exact up _ _ (one _ sh)
    | some x =>
      refine up _ _ (one _ ?_)
      dsimp only
      split
      · intro r m; rw [List.mem_singleton] at m; rw [m]; exact gjRing_lt c _
      · exact sh

/-- A delivered record only reports. -/
theorem Chip.Reported.deliver (c : Chip pt) (ws : List Word) (ctx : Option Nat) (rings : Option (List Nat))
    (h : ∀ l, rings = some l → ∀ r ∈ l, r < ringCount pt) : c.Reported (c.deliver ws ctx rings) := by
  unfold Chip.deliver
  cases pt with
  | garja => exact .gjRoute c ws ctx rings h
  | elzel => exact (Chip.Reported.ezRoute c ws rings h).trans (.ezTrace _ _)

/-- Raising an event only reports. -/
theorem Chip.Reported.raise (c : Chip pt) (typ : Nat) (ctx step : Option Nat) (items : List Item) : c.Reported (c.raise typ ctx step items) :=
  .deliver c _ ctx none (fun l k => by cases k)

theorem Chip.Reported.epochMark (c : Chip pt) : c.Reported c.epochMark := by
  refine .deliver c _ none _ (fun l k r m => ?_)
  cases k
  have := List.mem_range.mp (List.mem_filter.mp m).1
  cases pt <;> exact this

/-- An entry of the journal only reports. -/
theorem Chip.Reported.jrnlAppend (c : Chip .elzel) (r : Nat) (bs : List (BitVec 8)) (h : r < 5) : c.Reported (c.jrnlAppend r bs) := by
  have q := Chip.Reported.jrnlPut c r bs h
  unfold Chip.jrnlAppend
  split <;> rename_i e <;> rw [e] at q <;> dsimp only at q ⊢
  · exact q.trans (.raise _ _ _ _ _)
  · exact q.trans (.raise _ _ _ _ _)
  · exact q

end Sys2Proof.Machine
end

