-- ==== Sys2Proof/Laws/Yields.lean ====
section
/-!
SUPPORT. Sys2Proof/Laws/Yields.lean: how a meaning that changes what all chips have on one part comes to its result, once for each
way in which commands reach a part.
-/
namespace Sys2Proof.Machine

/-! ### A part with another power state -/

variable {pt : Part}

/-- The part with the power state q. -/
def Chip.withPw (c : Chip pt) (q : Power) : Chip pt := { c with pw := q }

@[simp] theorem Chip.withPw_prm (c : Chip pt) (q : Power) : (c.withPw q).prm = c.prm := (rfl)
@[simp] theorem Chip.withPw_regs (c : Chip pt) (q : Power) : (c.withPw q).regs = c.regs := (rfl)
@[simp] theorem Chip.withPw_now (c : Chip pt) (q : Power) : (c.withPw q).now = c.now := (rfl)
@[simp] theorem Chip.withPw_free (c : Chip pt) (q : Power) : (c.withPw q).free = c.free := (rfl)
@[simp] theorem Chip.withPw_gt (c : Chip pt) (q : Power) : (c.withPw q).gt = c.gt := (rfl)
@[simp] theorem Chip.withPw_htSec (c : Chip pt) (q : Power) : (c.withPw q).htSec = c.htSec := (rfl)
@[simp] theorem Chip.withPw_htNs (c : Chip pt) (q : Power) : (c.withPw q).htNs = c.htNs := (rfl)
@[simp] theorem Chip.withPw_htFrac (c : Chip pt) (q : Power) : (c.withPw q).htFrac = c.htFrac := (rfl)
@[simp] theorem Chip.withPw_steps (c : Chip pt) (q : Power) : (c.withPw q).steps = c.steps := (rfl)
@[simp] theorem Chip.withPw_tb (c : Chip pt) (q : Power) : (c.withPw q).tb = c.tb := (rfl)
@[simp] theorem Chip.withPw_tracks (c : Chip pt) (q : Power) : (c.withPw q).tracks = c.tracks := (rfl)
@[simp] theorem Chip.withPw_ref (c : Chip pt) (q : Power) : (c.withPw q).ref = c.ref := (rfl)
@[simp] theorem Chip.withPw_tdc (c : Chip pt) (q : Power) : (c.withPw q).tdc = c.tdc := (rfl)
@[simp] theorem Chip.withPw_links (c : Chip pt) (q : Power) : (c.withPw q).links = c.links := (rfl)
@[simp] theorem Chip.withPw_ev (c : Chip pt) (q : Power) : (c.withPw q).ev = c.ev := (rfl)
@[simp] theorem Chip.withPw_jrnl (c : Chip pt) (q : Power) : (c.withPw q).jrnl = c.jrnl := (rfl)
@[simp] theorem Chip.withPw_traceStopped (c : Chip pt) (q : Power) : (c.withPw q).traceStopped = c.traceStopped := (rfl)
@[simp] theorem Chip.withPw_fresh (c : Chip pt) (q : Power) : (c.withPw q).fresh = c.fresh := (rfl)
@[simp] theorem Chip.withPw_cmd (c : Chip pt) (q : Power) : (c.withPw q).cmd = c.cmd := (rfl)
@[simp] theorem Chip.withPw_den (c : Chip pt) (q : Power) : (c.withPw q).den = c.den := (rfl)
@[simp] theorem Chip.withPw_stage (c : Chip pt) (q : Power) : (c.withPw q).stage = c.stage := (rfl)
@[simp] theorem Chip.withPw_stageEnds (c : Chip pt) (q : Power) : (c.withPw q).stageEnds = c.stageEnds := (rfl)
@[simp] theorem Chip.withPw_pw (c : Chip pt) (q : Power) : (c.withPw q).pw = q := (rfl)
@[simp] theorem Chip.withPw_get (c : Chip pt) (q : Power) (o : Nat) : (c.withPw q).get o = c.get o := (rfl)
@[simp] theorem Chip.withPw_rd (c : Chip pt) (q : Power) (f : Fld) (i : Nat) : (c.withPw q).rd f i = c.rd f i := (rfl)
@[simp] theorem Chip.withPw_rdS (c : Chip pt) (q : Power) (f : Fld) (i : Nat) : (c.withPw q).rdS f i = c.rdS f i := (rfl)
@[simp] theorem Chip.withPw_flag (c : Chip pt) (q : Power) (f : Fld) (i : Nat) : (c.withPw q).flag f i = c.flag f i := (rfl)
@[simp] theorem Chip.withPw_set (c : Chip pt) (q : Power) (o : Nat) (v : Word) : (c.withPw q).set o v = (c.set o v).withPw q := (rfl)
@[simp] theorem Chip.withPw_wr (c : Chip pt) (q : Power) (f : Fld) (v i : Nat) : (c.withPw q).wr f v i = (c.wr f v i).withPw q := (rfl)
@[simp] theorem Chip.withPw_wrS (c : Chip pt) (q : Power) (f : Fld) (v : Int) (i : Nat) : (c.withPw q).wrS f v i = (c.wrS f v i).withPw q := (rfl)
@[simp] theorem Chip.withPw_inc (c : Chip pt) (q : Power) (f : Fld) (i k : Nat) : (c.withPw q).inc f i k = (c.inc f i k).withPw q := (rfl)

/-- A part that runs, with another power state in which it runs. -/
theorem Chip.Reported.withPw (d : Chip pt) (q : Power) (a : d.pw.st = .run) (b : q.st = .run) : d.Reported (d.withPw q) :=
  .pw d q (by simp [a]) (by simp [a]) (by simp [b]) (by simp [b])

/-! ### Ways to a part -/

variable {u : Part}

@[simp] theorem State.onDen_chip (s : State) (f : Chip u → Chip u) : (s.onDen u f).chip u = f (s.chip u) := by cases u <;> rfl

@[simp] theorem State.onDen_onDen (s : State) (f g : Chip u → Chip u) : (s.onDen u f).onDen u g = s.onDen u (fun c => g (f c)) := by cases u <;> rfl

@[simp] theorem State.onDen_pending (s : State) (f : Chip u → Chip u) : (s.onDen u f).pending = s.pending := by cases u <;> rfl
@[simp] theorem State.onDen_dieMem (s : State) (f : Chip u → Chip u) : (s.onDen u f).dieMem = s.dieMem := by cases u <;> rfl
@[simp] theorem State.onDen_hostMem (s : State) (f : Chip u → Chip u) : (s.onDen u f).hostMem = s.hostMem := by cases u <;> rfl

theorem State.onDen_const (s : State) (f : Chip u → Chip u) : s.onDen u f = s.onDen u (fun _ => f (s.chip u)) := by cases u <;> rfl

@[simp] theorem State.chip_garja (s : State) : s.chip .garja = s.gj.c := (rfl)
@[simp] theorem State.chip_elzel (s : State) : s.chip .elzel = s.ez.c := (rfl)

/-- A change of the Den. -/
theorem Yields.onDen {i : Instr} {s : State} {d : Chip u} {f : Chip u → Chip u} (e : exec i s = .next (s.onDen u f))
    (r : d.Reported (f (s.chip u))) : Yields u i s d :=
  ⟨_, e, by rw [State.onDen_chip, ← State.onDen_const], by rw [State.onDen_chip]; exact r⟩

/-- A change while the main clocks run. -/
theorem Yields.onChip {i : Instr} {s : State} {d : Chip u} {f : Chip u → Chip u} (e : exec i s = .next (s.onChip u f))
    (h : (s.chip u).clocked = true) (r : d.Reported (f (s.chip u))) : Yields u i s d :=
  .onDen e (by simpa [h] using r)

/-- A register command of a part that runs: Garja's target port ends a run of idle time first. -/
theorem Yields.onReg {i : Instr} {s : State} {d : Chip u} {f : Chip u → Chip u} (e : exec i s = .next (s.onReg u f))
    (h : s.running u) (r : ∀ q : Power, q.st = .run → d.Reported (f ((s.chip u).withPw q)))  : Yields u i s d := by
  obtain ⟨a, b⟩ := h
  cases u with
  | garja =>
    refine .onDen e ?_
    have a' : s.gj.c.pw.st = .run := a
    have b' : s.gj.c.den.dead = false := b
    simp only [State.chip, b', Chip.wake, a']
    exact r _ rfl
  | elzel =>
    refine .onChip e (by simp at a b; simp [Chip.clocked, a, b]) ?_
    exact r (s.ez.c.pw) a

end Sys2Proof.Machine
end

