-- ==== Sys2Proof/WellFormed.lean ====
section
/-!
DEFINITION. Sys2Proof/WellFormed.lean: the commands whose operands name what the block has: a port, a channel, a ring, a queue pair, a
packet of the kind that the command takes. The machine takes any command; one that names nothing changes nothing.
-/
namespace Sys2Proof

open Sys2Proof.Machine

/-! ### Operands -/

/-- A step link port (R68, R75): A and B of Garja; DN0 to DN63, the uplinks and the peer ports of Elzel. -/
def portOk (u : Part) (p : Nat) : Bool := match u with | .garja => decide (p < 2) | .elzel => decide (p < 68)
/-- An interpolator channel (R68, R69). -/
def chOk (u : Part) (n : Nat) : Bool := match u with | .garja => decide (n < 4) | .elzel => decide (n < 76)
/-- An event ring (R322, R333). -/
def ringOk (u : Part) (r : Nat) : Bool := match u with | .garja => decide (r < 16) | .elzel => decide (r < 64)
/-- A queue pair (R342, R343). -/
def queueOk (u : Part) (q : Nat) : Bool := match u with | .garja => decide (q < 8) | .elzel => decide (q < 1024)
/-- A stage set (R277). -/
def setOk (u : Part) (k : Nat) : Bool := match u with | .garja => decide (k < 4) | .elzel => decide (k < 16)
/-- A function of R208: DOORBELL, OBJWIN, SIG_A, SIG_B, and the taps from 16 on. -/
def fnOk (fn : Nat) : Bool := decide (fn < 4) || decide (16 ≤ fn)

/-- Who can ask the part (R169, R379, R404): the host asks Elzel, and tiles and processors ask Garja. -/
def askerOk (u : Part) (r : Requester) : Bool :=
  match u, r with
  | .garja, .host => false
  | .elzel, .tile _ => false
  | .elzel, .proc _ => false
  | _, _ => true

/-- A path of the part (R338). A command of a queue pair came in no packet. -/
def orderOk (u : Part) (o : Order) : Bool :=
  match o.src with
  | .queue q => queueOk u q.toNat && !o.routed && o.sender == 0
  | .port p => portOk u p.toNat

/-- A target that Elzmon is given (R466): the part itself is named without a coordinate. -/
def targetOk (t : MonTarget) : Bool := !t.own || (t.level == 0 && t.coord == 0)

/-! ### Packets (R77, R91) -/

/-- A packet of a TYPE, as long as its LEN says. -/
def pktOk (typ : Nat) (pkt : Pkt) : Bool :=
  match pkt with
  | [] => false
  | f :: body => bits f 127 124 == typ && bits f 123 118 == body.length

/-- A single flit of a TYPE. -/
def flitOk (typ : Nat) (f : Flit) : Bool := bits f 127 124 == typ && bits f 123 118 == 0

/-- A MGMT packet of a CLASS. -/
def mgmtOk (cls : Nat) (pkt : Pkt) : Bool := pktOk 6 pkt && bits (pkt.headD 0) 117 114 == cls

/-! ### Commands -/

/-- The operands of a command name what the block has. -/
def Instr.wf (i : Instr) : Bool :=
  match i with
  | .gjPorstN => true
  | .ezPorstN _ _ _ => true
  | .resetEngine u r _ => askerOk u r
  | .resetContext u r _ => askerOk u r
  | .resetPartition u r _ => askerOk u r
  | .resetUnit u r => askerOk u r
  | .coldReset u r => askerOk u r
  | .powerGoodTimeout _ => true
  | .captureOnly u r => askerOk u r
  | .capsuleCaptureDone _ => true
  | .resetDone _ => true
  | .resetBoundOver _ => true
  | .capDataRead _ => true
  | .registerWrite u r _ _ _ => askerOk u r
  | .gtRead => true
  | .htSecRead => true
  | .tbAdjWrite _ _ => true
  | .tbIncrWrite _ _ => true
  | .tbSteerWrite _ _ => true
  | .steerStep _ => true
  | .forceHoldWrite _ _ => true
  | .clkfixWrite _ => true
  | .servoUpdate u p _ => portOk u p.toNat
  | .epochMark _ => true
  | .holdExpired _ => true
  | .refclkMeasure _ => true
  | .holdPause _ => true
  | .launch _ => true
  | .launchMissed _ => true
  | .regionTick _ _ => true
  | .rgnStretchRise _ => true
  | .tdcEdge u ch _ => chOk u ch.toNat
  | .stampAgeDiscard u ch => chOk u ch.toNat
  | .tdcFifoRead u ch => chOk u ch.toNat
  | .calibrationStart u ch _ => chOk u ch.toNat
  | .tdcCalForce _ => true
  | .calibrationDone u ch hits _ _ => chOk u ch.toNat && decide (hits.length = 96)
  | .lineSwap u ch => chOk u ch.toNat
  | .tdcDisable u ch => chOk u ch.toNat
  | .ssArmWrite u ch r _ => chOk u ch.toNat && askerOk u r
  | .ssTimeout u ch => chOk u ch.toNat
  | .freqArmWrite u ch r _ => chOk u ch.toNat && askerOk u r
  | .freqTimeout u ch => chOk u ch.toNat
  | .portEnWrite u p _ => portOk u p.toNat
  | .retrain u p => portOk u p.toNat
  | .signalDetect u p => portOk u p.toNat
  | .cdrLock u p => portOk u p.toNat
  | .alignDone u p => portOk u p.toNat
  | .train u p pkt => portOk u p.toNat && mgmtOk 0 pkt
  | .trainSend u p => portOk u p.toNat
  | .trainTimeout u p => portOk u p.toNat
  | .lossOfSignal u p _ => portOk u p.toNat
  | .blockReceived u p _ flits _ => portOk u p.toNat && decide (flits.length = 7)
  | .replayTimer u p => portOk u p.toNat
  | .tickDue u p _ => portOk u p.toNat
  | .tick u p flit _ _ => portOk u p.toNat && flitOk 1 flit
  | .calDue u p => portOk u p.toNat
  | .cal u p flit => portOk u p.toNat && flitOk 8 flit
  | .sigRoute p flit => portOk .elzel p.toNat && flitOk 5 flit
  | .sig p flit => portOk .garja p.toNat && flitOk 5 flit
  | .arrive p pkt => portOk .elzel p.toNat && pktOk 2 pkt
  | .arriveX p pkt => portOk .elzel p.toNat && pktOk 3 pkt
  | .apexRelease _ => true
  | .barDeadline _ => true
  | .releaseForward p pkt => portOk .elzel p.toNat && pktOk 4 pkt
  | .release p pkt => portOk .garja p.toNat && pktOk 4 pkt
  | .releaseRecordAck _ _ => true
  | .squashRestore _ => true
  | .event p pkt => portOk .elzel p.toNat && pktOk 7 pkt
  | .discDown u p pkt => portOk u p.toNat && mgmtOk 1 pkt
  | .discUp p pkt => portOk .elzel p.toNat && mgmtOk 2 pkt
  | .discSum p pkt => portOk .elzel p.toNat && mgmtOk 3 pkt
  | .discTimeout p => portOk .elzel p.toNat
  | .cmd u p pkt => portOk u p.toNat && mgmtOk 4 pkt
  | .reply p pkt => portOk .elzel p.toNat && mgmtOk 5 pkt
  | .cmdForwardTimeout _ => true
  | .debug u p pkt => portOk u p.toNat && mgmtOk 6 pkt
  | .selectorTick obs => decide (obs.length = 6)
  | .refUpdate src _ _ => decide (src.toNat < 6)
  | .qualTimeExpired src => decide (src.toNat < 6)
  | .refHoldoffExpired src => decide (src.toNat < 6)
  | .wtrExpired => true
  | .refAccept src => decide (src.toNat < 6)
  | .loopOpenWrite _ _ => true
  | .dcoTrimWrite _ => true
  | .ocxoCompare _ => true
  | .holdSpecEnd => true
  | .htCarry => true
  | .realignWrite => true
  | .moveWaitExpired _ _ => true
  | .ptpSync p _ _ => decide (p.toNat < 2)
  | .ptpMessage p _ => decide (p.toNat < 2)
  | .ptpClassFetch p _ => decide (p.toNat < 2)
  | .txqEnqueue p _ => decide (p.toNat < 2)
  | .txqDescriptorHead p => decide (p.toNat < 2)
  | .timedFrameLaunch p => decide (p.toNat < 2)
  | .frameTransmitted p _ => decide (p.toNat < 2)
  | .etsRead p => decide (p.toNat < 2)
  | .txStampAgeDiscard p => decide (p.toNat < 2)
  | .ppsOutput _ _ => true
  | .stepPulse _ => true
  | .spulseEnable _ => true
  | .spulseRealign _ => true
  | .epochModeWrite _ => true
  | .semAdd r _ _ => askerOk .garja r
  | .semSub r _ _ => askerOk .garja r
  | .semSet r _ _ => askerOk .garja r
  | .semTry r _ _ => askerOk .garja r
  | .flagSet r _ _ => askerOk .garja r
  | .flagClr r _ _ => askerOk .garja r
  | .flagMode r _ _ => askerOk .garja r
  | .flagTry r _ _ => askerOk .garja r
  | .waitGe r _ _ => askerOk .garja r
  | .waitGeC r _ _ => askerOk .garja r
  | .waitEq r _ _ => askerOk .garja r
  | .waitFlag r _ _ => askerOk .garja r
  | .grantPass _ => true
  | .resultWordRead _ _ => true
  | .soTimeout _ => true
  | .objectWindowWrite r _ _ _ => askerOk .garja r
  | .waiterSlotCapture _ => true
  | .tapPresent _ _ _ _ => true
  | .tapWack _ _ => true
  | .tapValidLow _ => true
  | .activate r _ _ _ => askerOk .garja r
  | .park r _ _ => askerOk .garja r
  | .parkComplete _ => true
  | .resume r _ _ => askerOk .garja r
  | .teardown r _ => askerOk .garja r
  | .abandon r _ => askerOk .garja r
  | .drainComplete _ => true
  | .drainForced _ => true
  | .clearingDone _ => true
  | .functionDisable fn => fnOk fn.toNat
  | .functionDrained fn => fnOk fn.toNat
  | .functionForcedOff fn => fnOk fn.toNat
  | .step _ => true
  | .slack _ => true
  | .sop _ => true
  | .swait _ => true
  | .sigout _ => true
  | .arriveInstruction _ => true
  | .arriveReadDone _ _ => true
  | .br _ => true
  | .setlc _ => true
  | .mark _ => true
  | .halt _ => true
  | .nop _ => true
  | .start o _ _ _ => orderOk .garja o
  | .deadlineStep _ => true
  | .relwait _ => true
  | .programDataAccess _ _ => true
  | .stgOpen u o _ _ _ _ => orderOk u o
  | .stgAdd u o _ _ => orderOk u o
  | .stgPrepare u o _ _ _ => orderOk u o
  | .stgCommit u o _ => orderOk u o
  | .stgAbort u o _ => orderOk u o
  | .stgQuery u o _ => orderOk u o
  | .stageApplicationPoint u set => setOk u set.toNat
  | .stageApplyEnd u set => setOk u set.toNat
  | .stageOrphan u set => setOk u set.toNat
  | .commitLeadExpired _ => true
  | .shelfPoll _ => true
  | .pwrTelemLost => true
  | .pollTakeover => true
  | .pollResumeRequest => true
  | .rampArm _ => true
  | .rampStart => true
  | .rampLevelStep => true
  | .pwrReqRise => true
  | .pwrSlot => true
  | .pwrReqFall => true
  | .powerStateEntry => true
  | .wake cause => decide (1 ≤ cause.toNat) && decide (cause.toNat ≤ 9)
  | .burrowRelock => true
  | .ltrWrite _ => true
  | .quietEntry => true
  | .denOnlyRequest _ => true
  | .denOnlyWake cause => decide (1 ≤ cause.toNat) && decide (cause.toNat ≤ 4)
  | .thermalSample _ => true
  | .combineClockChange => true
  | .halfExitTimer => true
  | .thermalTrip => true
  | .eventRecordWrite u ring _ => ringOk u ring.toNat
  | .recordAgeDrop u ring => ringOk u ring.toNat
  | .ringEnable u ring => ringOk u ring.toNat
  | .messageDelivery => true
  | .eoi _ _ => true
  | .msgRaise _ => true
  | .irqPendClear _ _ => true
  | .denWatch _ reason => reason.toNat != 0
  | .ringDoorbell ring _ => ringOk .elzel ring.toNat
  | .sqTailWrite u q _ => queueOk u q.toNat
  | .cqDoorbell q _ => queueOk .elzel q.toNat
  | .queueEnable u q => queueOk u q.toNat
  | .nopCmd u o => orderOk u o
  | .identify u o => orderOk u o
  | .regRead u o _ _ => orderOk u o
  | .regWrite u o _ _ _ => orderOk u o
  | .jobSubmit o _ _ _ _ _ _ _ _ => orderOk .elzel o
  | .jobChange o _ _ _ _ _ _ => orderOk .elzel o
  | .jobEnd o _ _ _ => orderOk .elzel o
  | .barMove o _ _ => orderOk .elzel o
  | .discover o _ => orderOk .elzel o
  | .dieWake o _ => orderOk .elzel o
  | .txqSubmit o _ _ _ _ => orderOk .elzel o
  | .txqStamp o _ _ => orderOk .elzel o
  | .healthRead o _ => orderOk .elzel o
  | .owlPair o _ _ _ _ => orderOk .elzel o
  | .rollback o _ _ => orderOk .elzel o
  | .jrnlCopy o _ _ _ _ => orderOk .elzel o
  | .capsuleRead o _ _ _ _ => orderOk .elzel o
  | .hltTally _ => true
  | .hltUnattributed _ _ => true
  | .hltRefWrite _ => true
  | .owlDigests _ _ _ digests => decide (digests.length = 4)
  | .owlNostart _ => true
  | .owlCleared _ => true
  | .scoreDecay => true
  | .ckptHandleWrite _ => true
  | .spareTrial _ => true
  | .spareMapPresent tiles _ => decide (1 ≤ tiles.length) && decide (tiles.length ≤ 128)
  | .spareMapTake => true
  | .spareMapDone => true
  | .heartbeat _ => true
  | .hbSummary => true
  | .denBeat => true
  | .fwVerify => true
  | .fwProgram => true
  | .fwConfig => true
  | .fwOpDone _ => true
  | .monitorVerify _ => true
  | .monitorProgram _ => true
  | .monitorConfig _ => true
  | .monitorStatus => true
  | .elzmonId target => targetOk target
  | .elzmonTime => true
  | .elzmonRef => true
  | .elzmonPorts => true
  | .elzmonBind => true
  | .elzmonEvt _ => true
  | .elzmonRd _ _ => true
  | .elzmonWr _ _ => true
  | .elzmonGjRd target _ => targetOk target
  | .elzmonGjWr target _ _ => targetOk target
  | .elzmonGjObj target _ _ _ => targetOk target
  | .elzmonGjDb target _ _ _ => targetOk target
  | .elzmonGjCap target => targetOk target
  | .elzmonRst target _ _ => targetOk target
  | .elzmonFwStatus => true
  | .elzmonFwProgram _ => true
  | .blockTransmit u p => portOk u p.toNat
  | .digestValidLatch _ => true
  | .evtInEdgeLatch _ _ => true
  | .gpllLockLoss _ => true
  | .ptpMessageDue p _ => decide (p.toNat < 2)
  | .announceReceiptTimeout p => decide (p.toNat < 2)
  | .moduleInputLoss => true
  | .tapValidEarlyFall _ => true
  | .cqReplyWritten u q _ => queueOk u q.toNat

end Sys2Proof
end

