-- ==== Sys2Proof/Tests/Slice0.lean ====
section
/-!
SUPPORT. Sys2Proof/Tests/Slice0.lean: tests of the model by fixed values, each with an expected result from the manual; the smoke
test of WellFormed; and for every obligation with hypotheses a witness that meets them.
-/
namespace Sys2Proof.Tests

open Sys2Proof.Machine

set_option maxRecDepth 100000
set_option Elab.async false

/-! ### Small states -/

/-- The parameters that a test builds with. -/
def p0 : Params :=
  { flagBuild := false, nProc := 2, sigTaps := 1, slTxLat := 0, slRxLat := 0, balStepW := 1, hostStepping := 2, stepping := 1, regBase := 0,
    dbBase := 0, objBase := 0 }

def flash0 : Flash := { headerOk := true, seqMax := 0, image := none, config := none }

/-- The block just powered, with those parameters. -/
def s0 : State := { gj := Garja.init p0, ez := Elzel.init p0 flash0, dieMem := [], hostMem := [], pending := [] }

/-- The block with Garja's chip changed, and with Elzel's. -/
def gw (f : Chip .garja → Chip .garja) (s : State := s0) : State := { s with gj := { s.gj with c := f s.gj.c } }
def ew (f : Chip .elzel → Chip .elzel) (s : State := s0) : State := { s with ez := { s.ez with c := f s.ez.c } }

/-! ### Nothing waits -/

/-- Registers that are not the indices of a submission queue. -/
def offQueues (u : Part) (o : Nat) : Bool :=
  match u with
  | .garja => decide (o < 0xF820) || decide (0xFA20 ≤ o) || (o - 0xF820) % 0x40 != 0
  | .elzel => decide (o < 0xC80020) || decide (0xC90020 ≤ o) || (o - 0xC80020) % 0x40 != 0

/-- The other build, of flags. -/
def p1 : Params := { p0 with flagBuild := true }

theorem gj_index_reset : ∀ p ∈ [p0, p1], ∀ q, q < 8 → gjReset p (0xF820 + 0x40 * q) = 0 := by decide +kernel
theorem ez_index_reset : ∀ q, q < 1024 → ezReset (0xC80020 + 0x40 * q) = 0 := by decide +kernel

theorem regFind_off {u : Part} (l : RegFile) (o : Nat) (h : l.all (fun r => offQueues u r.1) = true) (k : offQueues u o = false) : regFind l o = none := by
  induction l with
  | nil => rfl
  | cons x l ih =>
    obtain ⟨a, v⟩ := x
    simp only [List.all_cons, Bool.and_eq_true] at h
    have : (a == o) = false := by
      rw [beq_eq_false_iff_ne]; intro e; rw [e, k] at h; simp at h
    simp [regFind, this, ih h.2]

theorem noQueued_gj (c : Chip .garja) (p : c.prm ∈ [p0, p1]) (h : c.regs.all (fun r => offQueues .garja r.1) = true) : c.NoQueued := by
  intro q hq
  change q < 8 at hq
  have key : c.get (0xF820 + 0x40 * q) = 0 := by
    have n : offQueues .garja (0xF820 + 0x40 * q) = false := by simp [offQueues]; omega
    rw [Chip.get, regGet, regFind_off c.regs _ h n]
    exact gj_index_reset _ p q hq
  simp only [Chip.rd, PT.QP_SQ_IDX_HEAD, PT.QP_SQ_IDX_TAIL, GJ.CQP_SQ_IDX_TAIL, GJ.CQP_SQ_IDX_HEAD, key]
  decide

theorem noQueued_ez (c : Chip .elzel) (h : c.regs.all (fun r => offQueues .elzel r.1) = true) : c.NoQueued := by
  intro q hq
  change q < 1024 at hq
  have key : c.get (0xC80020 + 0x40 * q) = 0 := by
    have n : offQueues .elzel (0xC80020 + 0x40 * q) = false := by simp [offQueues]; omega
    rw [Chip.get, regGet, regFind_off c.regs _ h n]
    exact ez_index_reset q hq
  simp only [Chip.rd, PT.QP_SQ_IDX_HEAD, PT.QP_SQ_IDX_TAIL, EZ.QP_SQ_IDX_TAIL, EZ.QP_SQ_IDX_HEAD, key]
  decide

/-- Nothing waits in Garja. -/
def calmG (g : Garja) : Bool :=
  g.ctxs.all (fun r => r.due.isNone) && g.seqs.all (fun q => q.ended.isNone && !q.waiting && !q.await_) && g.so.intake.isEmpty
    && decide (g.c.prm ∈ [p0, p1]) && g.c.regs.all (fun r => offQueues .garja r.1)

theorem calm_gj (g : Garja) (h : calmG g = true) : g.Calm := by
  simp only [calmG, Bool.and_eq_true, List.all_eq_true, Option.isNone_iff_eq_none, Bool.not_eq_true', List.isEmpty_iff, decide_eq_true_eq] at h
  obtain ⟨⟨⟨⟨a, b⟩, c⟩, d⟩, e⟩ := h
  exact ⟨a, fun q m => ⟨(b q m).1.1, (b q m).1.2, (b q m).2⟩, c, noQueued_gj g.c d (List.all_eq_true.mpr e)⟩

/-- Nothing waits in Elzel. -/
def calmE (e : Elzel) : Bool :=
  e.mgr.planq.isEmpty && e.mgr.late.isEmpty && e.mgr.coords.isEmpty && e.mgr.toHost.isEmpty && e.c.regs.all (fun r => offQueues .elzel r.1)
    && e.mgr.ramps.all (fun r => decide (e.c.gtInt < r.ends)) && e.mgr.plans.all (fun p => match p.endAt with | some t => decide (e.c.gtInt < t) | none => true)
    && e.mgr.hlt.admits.all (fun x => decide (e.c.gtInt < x.1))

theorem calm_ez (e : Elzel) (h : calmE e = true) : e.Calm := by
  simp only [calmE, Bool.and_eq_true, List.all_eq_true, List.isEmpty_iff, decide_eq_true_eq] at h
  obtain ⟨⟨⟨⟨⟨⟨⟨a, b⟩, c⟩, d⟩, f⟩, g⟩, i⟩, j⟩ := h
  refine ⟨a, b, c, d, noQueued_ez e.c (List.all_eq_true.mpr f), g, fun p m t k => ?_, j⟩
  have := i p m
  rw [k] at this
  simpa using this

/-! ### WellFormed: an ill-formed command for each check, and a well-formed one beside it -/

def q0 : Order := { src := .queue 1, tag := 77, lvl := 1, routed := false, sender := 0 }
def disc : Pkt := [BitVec.ofNat 128 (6 * 2 ^ 124 + 2 ^ 118 + 2 ^ 114), 0]

theorem test_wf_port : (Instr.retrain .garja 2).wf = false ∧ (Instr.retrain .garja 1).wf = true ∧ (Instr.retrain .elzel 68).wf = false
    ∧ (Instr.retrain .elzel 67).wf = true := by decide
theorem test_wf_channel : (Instr.tdcFifoRead .garja 4).wf = false ∧ (Instr.tdcFifoRead .elzel 76).wf = false ∧ (Instr.tdcFifoRead .elzel 75).wf = true := by
  decide
theorem test_wf_ring : (Instr.ringEnable .garja 16).wf = false ∧ (Instr.ringEnable .elzel 16).wf = true := by decide
theorem test_wf_queue : (Instr.queueEnable .garja 8).wf = false ∧ (Instr.queueEnable .elzel 1023).wf = true := by decide
theorem test_wf_set : (Instr.stageApplyEnd .garja 4).wf = false ∧ (Instr.stageApplyEnd .elzel 16).wf = false ∧ (Instr.stageApplyEnd .elzel 15).wf = true := by
  decide
theorem test_wf_function : (Instr.functionDisable 4).wf = false ∧ (Instr.functionDisable 16).wf = true := by decide
theorem test_wf_asker : (Instr.resetUnit .garja .host).wf = false ∧ (Instr.resetUnit .elzel (.tile 0)).wf = false
    ∧ (Instr.resetUnit .elzel (.proc 0)).wf = false ∧ (Instr.resetUnit .elzel .host).wf = true := by decide
theorem test_wf_order : (Instr.nopCmd .garja { q0 with src := .queue 8 }).wf = false ∧ (Instr.nopCmd .garja { q0 with routed := true }).wf = false
    ∧ (Instr.nopCmd .garja { q0 with sender := 1 }).wf = false ∧ (Instr.nopCmd .elzel { q0 with src := .port 68 }).wf = false
    ∧ (Instr.nopCmd .elzel { q0 with src := .port 67, routed := true, sender := 1 }).wf = true := by decide
theorem test_wf_target : (Instr.elzmonId { own := true, level := 1, coord := 0 }).wf = false ∧ (Instr.elzmonId { own := true, level := 0, coord := 1 }).wf = false
    ∧ (Instr.elzmonId { own := false, level := 1, coord := 1 }).wf = true := by decide
theorem test_wf_packet : (Instr.discDown .elzel 0 []).wf = false ∧ (Instr.discDown .elzel 0 (disc ++ [0])).wf = false
    ∧ (Instr.discUp 0 disc).wf = false ∧ (Instr.discDown .elzel 0 disc).wf = true := by decide
theorem test_wf_flit : (Instr.cal .garja 0 0).wf = false ∧ (Instr.cal .garja 0 (BitVec.ofNat 128 (8 * 2 ^ 124 + 2 ^ 118))).wf = false
    ∧ (Instr.cal .garja 0 (BitVec.ofNat 128 (8 * 2 ^ 124))).wf = true := by decide
theorem test_wf_lengths : (Instr.blockReceived .garja 0 0 [] 0).wf = false ∧ (Instr.calibrationDone .garja 0 [] true true).wf = false
    ∧ (Instr.selectorTick []).wf = false ∧ (Instr.owlDigests 0 false 0 [0, 0, 0]).wf = false ∧ (Instr.spareMapPresent [] 0).wf = false := by decide
theorem test_wf_numbers : (Instr.qualTimeExpired 6).wf = false ∧ (Instr.txStampAgeDiscard 2).wf = false ∧ (Instr.wake 0).wf = false ∧ (Instr.wake 10).wf = false
    ∧ (Instr.denOnlyWake 5).wf = false ∧ (Instr.denWatch .garja 0).wf = false := by decide

/-! ### Witnesses: time base and interpolator (02, 03) -/

theorem running_of {s : State} {u : Part} (h : ((s.chip u).pw.st == .run && !(s.chip u).den.dead) = true) : s.running u := by
  simpa [State.running] using h

theorem runs0 (u : Part) : s0.running u := running_of (by cases u <;> decide)

theorem witness_time_registers : s0.running .garja ∧ s0.running .elzel ∧ s0.ez.c.clocked = true ∧ s0.gj.c.flag GJ.TB_CTL_SERVO_EN = true
    ∧ (gw (·.wr GJ.TB_CTL_SERVO_EN 0)).gj.c.flag GJ.TB_CTL_SERVO_EN = false := ⟨runs0 _, runs0 _, by decide +kernel⟩

/-- LOCKED, and HOLDOVER just beyond its limit. -/
def locked (u : Part) : State := match u with | .garja => gw (·.wr GJ.TB_STATUS_LOCK 2) | .elzel => ew (fun c => c.wr EZ.TS_STATUS_STATE 2)
def heldG : State := gw (fun c => { (c.wr GJ.TB_STATUS_LOCK 3).wr GJ.TB_LOCKCFG_HOLD_LIMIT 0 with now := 1000 })

theorem witness_force_hold : (locked .garja).running .garja ∧ (locked .garja).gj.c.lock = 2 ∧ (locked .elzel).running .elzel ∧ (locked .elzel).ez.c.lock = 2
    ∧ s0.gj.c.lock ≠ 2 ∧ s0.gj.c.lock ≠ 3 := ⟨running_of (by decide +kernel), by decide +kernel, running_of (by decide +kernel), by decide +kernel⟩

theorem witness_hold_expired : heldG.gj.c.clocked = true ∧ heldG.gj.c.lock = 3
    ∧ heldG.gj.c.rd (PT.TB_LOCKCFG_HOLD_LIMIT .garja) * 1000 < (heldG.gj.c.now - heldG.gj.c.tb.holdSince) / 1000 := by decide +kernel

theorem witness_refclk_and_budget : (locked .garja).gj.c.clocked = true ∧ (locked .garja).gj.c.lock = 2
    ∧ (let c := (gw (fun c => { c with tb := { c.tb with effNs := 2 ^ 40 } })).gj.c
       c.clocked = true ∧ c.rd GJ.HOLD_BUDGET_BUDGET 255 < c.tb.effNs / 1000 ∧ c.tb.effNs / 1000 < 2 ^ 32 ∧ c.flag GJ.HOLD_BUDGET_PAUSED 255 = false)
    ∧ (gw (·.wr GJ.CLK_STATUS_GPLL_LOCK 1)).gj.c.flag GJ.CLK_STATUS_GPLL_LOCK = true := by decide +kernel

theorem witness_steer : let c := (gw (fun c => { c.wr GJ.TB_STEER_PEND 0xFFFF with tb := { c.tb with sinceStep := 64 } })).gj.c
    c.clocked = true ∧ c.rdS (PT.TB_STEER_PEND .garja) ≠ 0 ∧ 40 ≤ c.tb.sinceStep ∧ c.rd (PT.TB_STEER_INTERVAL .garja) ≤ c.tb.sinceStep := by decide +kernel

theorem witness_time_step : (gw (·.wr GJ.TB_CTL_SERVO_EN 0)).gj.c.flag GJ.TB_CTL_SERVO_EN = false ∧ s0.gj.c.anyCtx = false
    ∧ (ew (·.wr EZ.TB_CTL_SERVO_EN 0)).ez.c.flag EZ.TB_CTL_SERVO_EN = false ∧ s0.ez.c.anyJob = false := by decide +kernel

theorem witness_servo : let c := (gw (fun c => (c.wr GJ.TB_STATUS_LOCK 2).wr GJ.SL_STATUS_RANGE_VALID 1)).gj.c
    c.clocked = true ∧ c.portInput 0 = some c.input ∧ c.rangeValid 0 = true ∧ c.lock = 2 ∧ c.flag (PT.TB_CTL_SERVO_EN .garja) = true := by decide +kernel

theorem witness_marks : s0.gj.c.clocked = true ∧ s0.gj.c.gtInt % 2 ^ 29 = 0 ∧ s0.gj.c.tb.markAt ≠ some s0.gj.c.gtInt ∧ s0.gj.c.ev.queue.length < s0.gj.c.queueCap
    ∧ (List.range (ringCount .garja)).filter (fun r => (gw (·.wr GJ.EVT_RING_CFG_EN 1 15)).gj.c.flag (PT.EVT_RING_CFG_EN .garja) r) = [15] := by
  decide +kernel

theorem witness_carry : let c := (ew (fun c => { c with htNs := 999999999, gt := 999999999 * 2 ^ 32 })).ez.c
    c.clocked = true ∧ 1000000000 ≤ c.htNs + (c.rd EZ.TB_INCR_INT * 2 ^ 32 + c.rd EZ.TB_INCR_FRAC) / 2 ^ 32
      ∧ (c.gt + (c.rd EZ.TB_INCR_INT * 2 ^ 32 + c.rd EZ.TB_INCR_FRAC)) % 2 ^ 96 / 2 ^ 32 = 1000000000 := by decide +kernel

theorem witness_clkfix : s0.gj.c.flag GJ.TB_CTL_CLKFIX = false ∧ s0.gj.c.anyCtx = false := by decide +kernel

def edge0 : TdcEdge := default
/-- A channel that runs: the last of each part. -/
def chOn (u : Part) (f : Tdc → Tdc := id) : State :=
  match u with
  | .garja => gw (fun c => { c.wr GJ.TDC_CTL_EN 1 3 with tdc := upd c.tdc 3 f })
  | .elzel => ew (fun c => { c.wr EZ.TDC_CTL_EN 1 75 with tdc := upd c.tdc 75 f })

theorem witness_edge : let c := (chOn .garja).gj.c
    c.clocked = true ∧ 3 < c.nCh ∧ c.flag (PT.TDC_CTL_EN .garja) 3 = true ∧ c.polarityOk 3 edge0.falling = true ∧ c.tdc[3]? = some ({} : Tdc)
      ∧ (∀ x ∈ c.tdc, x.ss = .idle) ∧ c.flag (PT.TDC_CTL_NOFIFO .garja) 3 = false := by decide +kernel
theorem witness_edge_held_off : let c := (chOn .garja (fun t => { t with holdEnd := some (2 ^ 40) })).gj.c
    c.tdc[3]? = some ({ holdEnd := some (2 ^ 40) } : Tdc) ∧ 13 * c.stampOf 3 edge0 + 2 ^ 18 < 13 * 2 ^ 40 := by decide +kernel
theorem witness_fifo : let c := (chOn .garja (fun t => { t with fifo := [(5, 0)] })).gj.c
    c.tdc[3]? = some ({ fifo := [(5, 0)] } : Tdc) ∧ (gw (fun c => { c with gt := 2 ^ 39 * 2 ^ 32 })).gj.c.gtInt ≥ 0 + 2 ^ 39 := by decide +kernel
theorem witness_event_input : s0.gj.c.polarityOk 2 false = true ∧ s0.gj.c.polarityOk 3 false = true
    ∧ (gw (fun c => { c.wr GJ.PST_WAKE_EVT0 1 with pw := { c.pw with st := .burrow } })).gj.c.flag GJ.PST_WAKE_EVT0 = true := by decide +kernel

theorem witness_calibration : let c := (chOn .elzel).ez.c
    c.clocked = true ∧ 75 < c.nCh ∧ c.flag (PT.TDC_CTL_EN .elzel) 75 = true ∧ c.flag (PT.TDC_STATUS_CALIB .elzel) 75 = false := by decide +kernel
theorem witness_calibration_done : let h := List.replicate 96 10000
    (gw (·.wr GJ.TDC_STATUS_CALIB 1 3)).gj.c.flag (PT.TDC_STATUS_CALIB .garja) 3 = true ∧ (∀ f, f < 90 → h.getD f 0 ≠ 0)
      ∧ (∀ f, f < 96 → binWidth (h.getD f 0) (min 24 (max 20 (s0.gj.c.rd (PT.TDC_CAL_LOG2N .garja)))) ≤ 524) := by decide +kernel
theorem witness_swap : (chOn .garja (fun t => { t with newTab := some { hits := [], log2n := 20 } })).gj.c.tdc[3]?
    = some ({ newTab := some { hits := [], log2n := 20 } } : Tdc) := by decide +kernel
theorem witness_disable : ∀ x ∈ (chOn .garja).gj.c.tdc, x.ss = .idle ∧ x.freq = none := by decide +kernel
theorem witness_arm : s0.gj.c.flag GJ.TDC_SS_ARM 3 = false ∧ s0.gj.c.flag GJ.TDC_FREQ_ARM 2 = false := by decide +kernel
theorem witness_timeouts : let c := (gw (fun c => { c with gt := 1000 * 2 ^ 32, tdc := upd c.tdc 3 (fun t => { t with ss := .waitStop 0 }) })).gj.c
    c.tdc[3]? = some ({ ss := .waitStop 0 } : Tdc) ∧ c.flag (PT.TDC_SSRES_DONE .garja) 3 = false ∧ c.flag (PT.TDC_SS_REPEAT .garja) 3 = false
      ∧ 0 + max 1000 (c.rd (PT.TDC_SS_TIMEOUT .garja) 3) * 65536 ≤ c.gtInt * 65536 := by decide +kernel
theorem witness_freq_timeout : let f : FreqRun := ⟨1, 1, 0, 0, 0, 0, 0⟩
    let c := (gw (fun c => { c with gt := 1001 * 2 ^ 32, tdc := upd c.tdc 3 (fun t => { t with freq := some f }) })).gj.c
    c.tdc[3]? = some ({ freq := some f } : Tdc) ∧ f.k ≠ 0 ∧ f.last + max 1000 (c.rd (PT.TDC_SS_TIMEOUT .garja) 3) * 65536 < c.gtInt * 65536 := by decide +kernel

/-! ### Witnesses: step link and hall (04, 01) -/

/-- Port 1 of Garja and port 67 of Elzel in a state, the part's EN bits set, at 2 ms. -/
def port (u : Part) (st : Nat) (f : Link → Link := id) : State :=
  match u with
  | .garja => gw (fun c => { ((c.wr GJ.SL_STATUS_STATE st 1).wr GJ.CMD_CAP_LVL_MIN 1).wr GJ.CMD_CAP_LVL_MAX 1 with
      now := 2000000, links := upd c.links 1 f })
  | .elzel => ew (fun c => { (((c.wr EZ.SL_STATUS_STATE st 67).wr EZ.ROLE_ROLE 3).wr EZ.CMD_CAP_LVL_MIN 1).wr EZ.CMD_CAP_LVL_MAX 1 with
      now := 2000000, links := upd c.links 67 f })
def portOf : Part → Nat
  | .garja => 1
  | .elzel => 67

theorem witness_ports_train : ∀ u ∈ [Part.garja, .elzel], ∀ st, st < 7 →
    let c := (port u st).chip u
    portOf u < c.nPorts ∧ portOf u < c.links.length ∧ c.clocked = true ∧ c.portUsed (portOf u) = true ∧ c.rd (PT.SL_STATUS_STATE u) (portOf u) = st
      ∧ (c.link (portOf u)).since + 1000000 ≤ c.now := by decide +kernel
theorem witness_ports_run (u : Part) (st : Nat) : (port u st).running u := running_of (by cases u <;> rfl)

theorem witness_train_up : let c := (port .garja 4 (fun l => { l with seenSent := true })).gj.c
    let b : Flit := f128 (put 127 120 1 + put 119 112 3 + put 111 104 1 + 2 ^ 99)
    c.rd (PT.SL_STATUS_STATE .garja) 1 = 4 ∧ (c.link 1).seenSent = true ∧ bit b 99 = true ∧ c.initiates 1 = false ∧ bits b 111 104 = 1
      ∧ c.lvlMin = 1 ∧ c.lvlMax = 1 ∧ bits b 127 120 ≤ 1 ∧ 1 ≤ bits b 119 112 := by decide +kernel

theorem witness_blocks : let c := (port .elzel 5 (fun l => { l with retry := [⟨0, List.replicate 7 0, 1975000, []⟩] })).ez.c
    c.clocked = true ∧ c.rd (PT.SL_STATUS_STATE .elzel) 67 = 5 ∧ (c.link 67).need = 0 ∧ (c.link 67).resend = [] ∧ (c.link 67).nAcc = 0
      ∧ (c.link 67).failing = false ∧ crcOk (crcSeq (c.link 67).seqRx) [] (f128 1) = false ∧ (c.link 67).resends < 8 ∧ c.rangeValid 67 = false
      ∧ 1975000 + 25000 ≤ c.now ∧ (c.link 67).idleUntil ≤ c.now := by decide +kernel
theorem witness_send : let c := (port .elzel 5 (fun l => { l with txq := ⟨[], [], [], [{ flits := [0] }], []⟩, far := ⟨1, 1, 1, 1, 1⟩ })).ez.c
    (c.link 67).resend = [] ∧ (c.link 67).retry = [] ∧ (c.link 67).cur = [] ∧ (c.link 67).tickDue = none ∧ (c.link 67).calDue = false
      ∧ (c.link 67).trainDue = none ∧ (c.link 67).txq = ⟨[], [], [], [{ flits := [0] }], []⟩ ∧ 1 ≤ (c.link 67).credit .mgmt
      ∧ (∀ x ∈ (port .elzel 5).gj.seqs, x.sigs = []) := by decide +kernel

theorem witness_ticks : (port .garja 5 (fun l => { l with tickId := 1 })).gj.c.up 1 = true ∧ (port .garja 5).gj.c.initiates 1 = false
    ∧ (port .garja 5 (fun l => { l with tickId := 1 })).gj.c.lock ≠ 2
    ∧ (let c := (ew (fun c => { c.wr EZ.SL_STATUS_STATE 5 63 with links := upd c.links 63 (fun l => { l with ownTick := some ⟨7, 100, false⟩ }) })).ez.c
       let f : Flit := f128 (put 127 124 1 + put 107 100 7 + 2 ^ 99)
       c.up 63 = true ∧ c.initiates 63 = true ∧ (c.link 63).ownTick = some ⟨7, 100, false⟩ ∧ (c.link 63).have_ = false ∧ (c.link 63).good < 15
         ∧ bit f 99 = true ∧ bit f 98 = false ∧ bits f 107 100 = 7 ∧ c.rdS EZ.SL_ASYM_ASYM 63 = 0 ∧ c.rangeValid 63 = false) := by decide +kernel

/-- A MGMT first flit of a class; ROUTED with a level. -/
def mgmtHead (cls len : Nat) (lvl : Option Nat := none) : Flit :=
  f128 (put 127 124 6 + put 123 118 len + put 117 114 cls + (match lvl with | some l => 2 ^ 113 + 2 ^ 112 + put 111 110 l | none => 0))

/-- A leaf of depth 3 with a die bound to port 63, and the uplink up. -/
def leaf : State := ew (fun c => ((((((c.wr EZ.ROLE_ROLE 1).wr EZ.ROLE_DEPTH 3).wr EZ.SL_STATUS_STATE 5 63).wr EZ.SL_STATUS_STATE 5 64).wr EZ.BIND_VALID 1 63).wr
  EZ.BIND_EXPECTED 0x2B06 63).wr EZ.ROLE_PREFIX 64)

theorem witness_discovery_down : (port .garja 5).gj.c.up 1 = true ∧ flitType (mgmtHead 1 1) = 6 ∧ (mgmtOf (mgmtHead 1 1)).cls = 1
    ∧ (mgmtOf (mgmtHead 1 1)).routed = false ∧ leaf.ez.c.clocked = true ∧ leaf.ez.c.uplink = 64 ∧ leaf.ez.c.isRoot = false ∧ leaf.ez.c.up 64 = true := by
  decide +kernel
theorem witness_discovery_up : let b : Flit := f128 (2 ^ 126 + put 125 108 0x2B06)
    leaf.ez.c.rd EZ.ROLE_ROLE = 1 ∧ leaf.ez.c.up 63 = true ∧ (mgmtOf (mgmtHead 2 1)).cls = 2 ∧ bit b 127 = false ∧ bit b 126 = true
      ∧ leaf.ez.c.flag EZ.BIND_VALID 63 = true ∧ leaf.ez.c.flag EZ.BIND_KIND 63 = false ∧ leaf.ez.mgr.oks = [] ∧ leaf.ez.mgr.plans = []
      ∧ bits b 125 108 = leaf.ez.c.rd EZ.BIND_EXPECTED 63 := by decide +kernel
theorem witness_summaries : (mgmtOf (mgmtHead 3 1 (some 1))).cls = 3 ∧ (mgmtOf (mgmtHead 3 1 (some 1))).routed = true
    ∧ (mgmtOf (mgmtHead 3 1 (some 1))).level = leaf.ez.c.rd EZ.ROLE_ROLE ∧ bit ((wordsOf [f128 (2 ^ 126)]).headD 0) 62 = true := by decide +kernel
theorem witness_discovery_late : let c := (ew (fun c => { c with now := 10000, links := upd c.links 63 (fun l => { l with discAt := some 0 }) }) leaf).ez.c
    c.up 63 = true ∧ (c.link 63).discAt = some 0 ∧ (c.link 63).discLate = false ∧ 0 + 10000 ≤ c.now := by decide +kernel

/-! ### Witnesses: start and resets (19, 23) -/

def img0 : FwImage := { digestOk := true, sigOk := true, level := 3, lvlMin := 1, lvlMax := 2 }
def thr : StgEntry := ⟨w64 (put 47 24 EZ.TB_LOCKCFG_LOCK_THR.off), w64 (put 63 48 0xFFFF), 0⟩
def cfg0 : FwConfig := { sigOk := true, seq := 0, entries := [thr] }

theorem witness_boot : s0.ez.flash.headerOk = true ∧ (∀ i, s0.ez.flash.image = some i → i.digestOk = false ∨ i.sigOk = false) := ⟨rfl, fun i h => by cases h⟩
theorem witness_boot_to_run : let f : Flash := { flash0 with image := some img0, config := some cfg0 }
    f.headerOk = true ∧ img0.digestOk = true ∧ img0.sigOk = true ∧ cfg0.sigOk = true ∧ f.seqMax ≤ cfg0.seq
      ∧ formatOk .elzel EZ.TB_LOCKCFG_LOCK_THR.off thr.w1 = true := by decide +kernel
theorem witness_den_only_exit : let e := (ew (fun c => { c with pw := { c.pw with st := .denOnly } })).ez
    e.c.pw.st = .denOnly ∧ e.th.tripped = false ∧ { e.flash with headerOk := false }.headerOk = false ∧ e.c.rd EZ.BOOT_STATUS_STRAPS % 4 = 0 := by decide +kernel

/-- A reset under way. -/
def rst (u : Part) (r : RstRun) : State :=
  match u with
  | .garja => gw (fun c => { c with now := 10000, den := { c.den with run := some r } })
  | .elzel => ew (fun c => { c with now := 10000, den := { c.den with run := some r } })
def run0 (lvl : Nat) (cap started : Bool) : RstRun := { level := lvl, at_ := 0, by_ := 9, capturing := cap, started := started }

theorem witness_power_good : (rst .garja (run0 4 false true)).gj.c.den.run = some (run0 4 false true) ∧ (rst .garja (run0 4 false true)).gj.c.lock ≠ 2
    ∧ s0.ez.mgr.toHost = [] := by decide +kernel
theorem witness_resets_begin : s0.running .garja ∧ s0.running .elzel ∧ (∀ u ∈ [Part.garja, .elzel], (s0.chip u).den.run = none ∧ (s0.chip u).applying = false)
    ∧ s0.mayReset .garja .elzel = true ∧ s0.mayReset .garja (.proc 1) = true ∧ s0.mayReset .elzel .host = true ∧ s0.mayReset .elzel .debug = true
    ∧ s0.ez.mgr.toHost = [] ∧ s0.gj.Calm ∧ s0.gj.ctxState 255 = 0 ∧ (∀ k, k < 4 → s0.gj.c.rd GJ.STG_S_W0_STATE k = 0) :=
  ⟨runs0 _, runs0 _, by decide +kernel, by decide, by decide, by decide, by decide, rfl, calm_gj _ (by decide +kernel), by decide +kernel, by decide +kernel⟩
theorem witness_captures_end : ∀ u ∈ [Part.garja, .elzel], ∀ l ∈ [7, 4],
    ((rst u (run0 l true false)).chip u).den.run = some (run0 l true false) ∧ ((rst u (run0 l true false)).chip u).den.queued = none
      ∧ ((rst u (run0 l true false)).chip u).den.caps[1]? = some ({} : CapSlot) := by decide +kernel
theorem witness_resets_end : (∀ u, (rst u (run0 0 false true)).running u) ∧ (rst .elzel (run0 0 false true)).ez.Calm
    ∧ (∀ u ∈ [Part.garja, .elzel], ((rst u (run0 0 false true)).chip u).den.run = some (run0 0 false true) ∧ (run0 0 false true).orders = []
      ∧ (run0 0 false true).at_ + 10000 ≤ ((rst u (run0 0 false true)).chip u).now) :=
  ⟨fun u => running_of (by cases u <;> rfl), calm_ez _ (by decide +kernel), by decide +kernel⟩
theorem witness_watch : let e : EvRec := { words := [0], rings := [0], at_ := 0, era := 0 }
    let c := (gw (fun c => { c.wr GJ.DEN_WATCH_WATCH_US 10 with now := 10000, ev := { c.ev with queue := [e] } })).gj.c
    c.ev.queue = [e] ∧ c.rd (PT.DEN_WATCH_WATCH_US .garja) = 10 ∧ (c.rd (PT.IRQ_PEND_PEND .garja)).testBit 9 = false ∧ e.at_ + 10 * 1000 ≤ c.now
      ∧ c.ev.denFrom + 10 * 1000 ≤ c.now := by decide +kernel
theorem witness_beats : let g := (gw (fun c => { c.wr GJ.RST_HBCFG_HB_EN 1 with now := 2 ^ 40 })).gj.c
    let e := (ew (fun c => { c.wr EZ.RST_HBCFG_HB_EN 1 with now := 2 ^ 40 }) leaf).ez.c
    g.flag GJ.RST_HBCFG_HB_EN = true ∧ g.den.beatAt + max 100 (g.rd GJ.RST_HBCFG_HB_INT) * 1000 ≤ g.now ∧ e.flag EZ.RST_HBCFG_HB_EN = true
      ∧ e.den.run = none ∧ e.den.beatAt + max 100 (e.rd EZ.RST_HBCFG_HB_INT) * 1000 ≤ e.now ∧ e.rd EZ.ROLE_ROLE = 1
      ∧ e.den.sumAt + max 100 (e.rd EZ.RST_HBCFG_HB_INT) * 1000 ≤ e.now ∧ e.den.denAt + max 100 (e.rd EZ.RST_HBCFG_HB_INT) * 1000 ≤ e.now := by
  decide +kernel
theorem witness_firmware : s0.ez.fw = none ∧ (ew (·.wr EZ.FW_CTL_LEN 65536)).ez.c.rd EZ.FW_CTL_LEN = 65536 ∧ (ew (·.wr EZ.FW_CTL_LEN 1)).ez.c.rd EZ.FW_CTL_LEN = 1
    ∧ (ew (·.wr EZ.BOOT_STATUS_STAGE 4)).ez.c.rd EZ.BOOT_STATUS_STAGE = 4
    ∧ (let c := (ew (fun c => (c.wr EZ.BOOT_STATUS_STAGE 5).wr EZ.BOOT_STATUS_STRAPS 0xFE)).ez.c
       c.rd EZ.BOOT_STATUS_STAGE = 5 ∧ c.rd EZ.BOOT_STATUS_STRAPS % 4 = 2 ∧ ∀ p, p < 68 → c.rd EZ.SL_STATUS_STATE p ≠ 5) := by decide +kernel

/-! ### Witnesses: sync objects and contexts (08, 09) -/

/-- Context 255 in a state, its window 50 objects from 100 on, in the build of semaphores or of flags. -/
def ctxAt (st : Nat) (flags : Bool := false) (f : Chip .garja → Chip .garja := id) (k : Garja → Garja := id) : State :=
  let g := Garja.init (if flags then p1 else p0)
  { s0 with gj := k { g with c := f ((((((((g.c.wr GJ.CTX_STATE_STATE st 255).wr GJ.CTX_STATE_CUR 9 255).wr GJ.CTX_XLAT_BASE 100 255).wr GJ.CTX_XLAT_SIZE 50 255).wr
      GJ.PWR_CFG_CTX 77).wr GJ.CHIP_VALID 1).wr GJ.CHIP_CHIP 33).set GJ.FN_CTL (w64 (put 63 60 15 + 1000))) } }
/-- The last object of the window at a word. -/
def objAt (w : Nat) (flags : Bool := false) : State := ctxAt 1 flags (k := fun g => { g with so := { g.so with objs := [(149, w64 w)] } })

theorem runs_gj {s : State} (h : (s.gj.c.pw.st == .run && !s.gj.c.den.dead) = true) : s.running .garja := running_of h
theorem door_calm : ∀ flags, ∀ w ∈ [0, 1, 4, 2 ^ 62 + 1], calmG (objAt w flags).gj = true ∧ ((objAt w flags).gj.c.pw.st == .run && !(objAt w flags).gj.c.den.dead) = true
    ∧ (objAt w flags).gj.c.fnOn 0 = true ∧ ∀ r ∈ [Requester.tile 4095, .proc 1], (objAt w flags).gj.serves r = true := by decide +kernel
theorem door_engine : ∀ flags, ∀ w ∈ [0, 1, 4, 2 ^ 62 + 1], (objAt w flags).gj.EngineReady 255 49 := by unfold Garja.EngineReady; decide +kernel
theorem witness_doorbells (flags : Bool) (w : Nat) (m : w ∈ [0, 1, 4, 2 ^ 62 + 1]) (r : Requester) (n : r ∈ [Requester.tile 4095, .proc 1]) :
    (objAt w flags).DoorReady r 255 49 :=
  have k := door_calm flags w m
  ⟨runs_gj k.2.1, calm_gj _ k.1, k.2.2.2 r n, door_engine flags w m, k.2.2.1⟩
theorem witness_doorbell_builds : (objAt 4).gj.flagBuild = false ∧ (objAt 4 true).gj.flagBuild = true ∧ bits ((objAt 4).gj.obj ((objAt 4).gj.physOf 255 49)) 31 0 = 4
    ∧ bit ((objAt 1 true).gj.obj 149) 0 = true ∧ bit ((objAt 1 true).gj.obj 149) 62 = false ∧ bit ((objAt (2 ^ 62 + 1) true).gj.obj 149) 62 = true
    ∧ (objAt 4).gj.so.waiters = [] ∧ (ctxAt 1 false (·.wr GJ.SO_TMO_NS 1 15)).gj.c.rd GJ.SO_TMO_NS 15 ≠ 0 := by decide +kernel
theorem witness_doorbell_refused : (∀ st ∈ [0, 1, 2, 3, 4], (ctxAt st).gj.ctxState 255 = st ∧ (ctxAt st).gj.serves (.tile 0) = true ∧ (ctxAt st).gj.c.den.run = none
    ∧ (ctxAt st).gj.c.fnOn 0 = true ∧ (ctxAt st).gj.flagBuild = false)
    ∧ bits (doorData 9 0 0 50) 63 56 = (ctxAt 1).gj.c.rd GJ.CTX_STATE_CUR 255 ∧ (ctxAt 1).gj.c.rd GJ.CTX_XLAT_SIZE 255 ≤ bits (doorData 9 0 0 50) 16 0
    ∧ bits (doorData 8 0 0 50) 63 56 ≠ (ctxAt 1).gj.c.rd GJ.CTX_STATE_CUR 255 := by decide +kernel

def waitC (slot n : Nat) (d : Option Nat := none) : Waiter :=
  { slot := slot, ctx := 255, obj := 49, phys := 149, cond := 1, n := n, to_ := 0, deadline := d, stamp := 0 }
theorem witness_grants : let g := (ctxAt 1 (k := fun g => { g with so := { g.so with objs := [(149, 5)], passes := [{ phys := 149 }], waiters := [waitC 3 3, waitC 4095 4] } })).gj
    g.Calm ∧ g.flagBuild = false ∧ g.fox.undo = [] ∧ g.fox.squash = none ∧ g.so.passes = [{ phys := 149 }] ∧ g.so.waiters = [waitC 3 3, waitC 4095 4]
      ∧ 3 ≤ bits (g.obj 149) 31 0 ∧ bits (g.obj 149) 31 0 - 3 < 4 := ⟨calm_gj _ (by decide +kernel), by decide +kernel⟩
theorem witness_timeout : let g := (ctxAt 1 false (fun c => { c with gt := 600 * 2 ^ 32 }) (fun g => { g with so := { g.so with waiters := [waitC 4095 9 (some 600)] } })).gj
    g.Calm ∧ g.c.applying = false ∧ g.so.passes = [] ∧ g.so.waiters = [waitC 4095 9 (some 600)] ∧ 0 ≤ sdiff 64 g.c.gtInt 600 :=
  ⟨calm_gj _ (by decide +kernel), by decide +kernel⟩
theorem witness_object_window : (ctxAt 1).gj.EngineReady 255 49 ∧ (ctxAt 1).gj.c.fnOn 1 = true ∧ (ctxAt 1).gj.flagBuild = false ∧ (ctxAt 1).gj.smap = none
    ∧ (ctxAt 1).gj.c.den.run = none ∧ (1 : Nat) < (ctxAt 1).gj.c.prm.nProc := ⟨by unfold Garja.EngineReady; decide +kernel, by decide +kernel⟩

def sig0 : TapSig := { addr := w64 (put 63 56 9 + put 42 25 33 + put 24 17 255 + put 16 0 49), op := 1, val := 6 }
def tapped (t : Tap) : State := ctxAt 1 (k := fun g => { g with so := { g.so with objs := [(149, 4)] }, taps := upd g.taps 15 (fun _ => t) })
theorem witness_signals : (ctxAt 1 false (fun c => (c.wr GJ.SO_TAP_PRESENT 0xFFFF).wr GJ.SO_TAP_EN 0xFFFF)).gj.tapOpen 0 = true
    ∧ (∀ t ∈ [({ } : Tap), { sig := some sig0 }, { sig := some sig0, done := true }], (tapped t).gj.taps[15]? = some t) ∧ sig0.cut = false
    ∧ (tapped {}).gj.c.flag GJ.CHIP_VALID = true ∧ sig0.addr = w64 (put 63 56 ((tapped {}).gj.c.rd GJ.CTX_STATE_CUR 255) + put 42 25 ((tapped {}).gj.c.rd GJ.CHIP_CHIP) + put 24 17 255 + put 16 0 49)
    ∧ bits ((tapped {}).gj.obj 149) 31 0 + sig0.val ≤ 0xFFFFFFFF := by decide +kernel
theorem witness_signal_calm : ∀ t ∈ [({ } : Tap), { sig := some sig0 }, { sig := some sig0, done := true }], calmG (tapped t).gj = true := by decide +kernel
def sigF (chip : Nat) : Flit := f128 (put 127 124 5 + put 117 110 3 + put 95 64 77 + (w64 (put 63 56 9 + put 42 25 chip + put 24 17 255 + put 16 0 49)).toNat)
theorem witness_sig : bits (sigF 33) 63 0 = sig0.addr.toNat ∧ bits (sigF 33) 117 110 = 3 ∧ bits (sigF 33) 95 64 ≠ bits ((tapped {}).gj.obj 149) 31 0
    ∧ bits (sigF 34) 42 25 ≠ (tapped {}).gj.c.rd GJ.CHIP_CHIP ∧ (tapped {}).gj.c.fnOn 2 = true ∧ (tapped {}).gj.c.fnOn 3 = true := by decide +kernel

theorem witness_activate : let g := (ctxAt 0).gj
    g.Calm ∧ g.commands (.proc 1) = true ∧ g.ctxState 255 = 0 ∧ g.c.ctxLocked 255 = false ∧ (∀ i, i < 4 → natBits (g.c.rd GJ.CTX_STATE_HIST 255) (8 * i + 7) (8 * i) ≠ 9)
      ∧ g.c.rd GJ.CTX_XLAT_SIZE 255 ≠ 0 ∧ g.c.rd GJ.CTX_XLAT_BASE 255 + g.c.rd GJ.CTX_XLAT_SIZE 255 ≤ g.objCount ∧ (∀ y, y < 256 → y ≠ 255 → g.ctxState y = 0)
      ∧ (g.run 255).freeAt = none ∧ g.c.rd GJ.CTX_XLAT_SIZE 254 = 0 := ⟨calm_gj _ (by decide +kernel), by decide +kernel⟩
theorem witness_context_denied : ∀ st ∈ [0, 1, 2, 3, 4], ((ctxAt st).gj.run 255).park = none ∧ (ctxAt st).gj.c.ctxLocked 255 = false ∧ (ctxAt st).gj.ctxState 255 = st
    ∧ ownerCode (.proc 1) ≠ (ctxAt st).gj.c.rd GJ.CTX_STATE_OWNER 255 := by decide +kernel
def parking : CtxCmd := { kind := .park, by_ := 8, via := .reg, flag := true }
theorem witness_park : (ctxAt 1).gj.c.foxCtx = none ∧ (ctxAt 1).gj.so.passes = [] ∧ 8 ≤ ownerCode .elzel ∧ ((ctxAt 1).gj.commands .elzel) = true
    ∧ (let g := (ctxAt 1 false (fun c => (c.wr GJ.CTX_CMDSTAT_OP 2).wr GJ.CTX_CMDSTAT_CTX 255) (fun g => { g with ctxs := upd g.ctxs 255 (fun z => { z with park := some parking }) })).gj
       g.Calm ∧ g.ctxs[255]? = some ({ park := some parking } : CtxRun) ∧ (g.seq 255).inStep = false ∧ (g.seq 255).busy = false ∧ g.fox.squash = none ∧ g.sqState 255 = 0
         ∧ g.c.rd GJ.CTX_CMDSTAT_OP = 2 ∧ g.c.rd GJ.CTX_CMDSTAT_CTX = 255 ∧ g.c.rd GJ.PWR_CFG_CTX ≠ 255 ∧ g.c.tb.clkfixWait = none
         ∧ ∀ n, n < 64 → g.c.flag GJ.RGN_LOST_OPEN n = false) :=
  ⟨by decide +kernel, by decide +kernel, by decide, by decide +kernel, calm_gj _ (by decide +kernel), by decide +kernel⟩
theorem witness_resume : let w : Waiter := { waitC 3 4 with cond := 0, parked := true }
    let g := (ctxAt 2 (k := fun g => { g with so := { g.so with objs := [(149, 3)], waiters := [w] } })).gj
    g.Calm ∧ g.ctxState 255 = 2 ∧ g.sqState 255 ≠ 5 ∧ (g.seq 255).last = none ∧ g.so.waiters = [w] ∧ bits (g.obj w.phys) 31 0 < w.n ∧ g.c.ctxLocked 255 = false :=
  ⟨calm_gj _ (by decide +kernel), by decide +kernel⟩
theorem witness_teardown : (ctxAt 1).gj.Plain 255 ∧ (ctxAt 2).gj.Plain 255 ∧ (ctxAt 1).gj.ctxs[255]? = some ({} : CtxRun) := by unfold Garja.Plain; decide +kernel
theorem witness_drain : let g := (ctxAt 3 false (fun c => { c with now := 2 ^ 40, links := upd c.links 1 (fun l => { l with txq := { l.txq with sig := [{ flits := [1], ctx := some 255 }] } }) })).gj
    g.Calm ∧ g.ctxState 255 = 3 ∧ (∀ t ∈ g.taps, t.sig = none) ∧ (ctxAt 3).gj.inflOut 255 = 0 ∧ g.inflOut 255 ≠ 0
      ∧ (g.run 255).drainAt + g.c.rd GJ.CTX_CFG_DRAIN_NS ≤ g.c.now ∧ ((ctxAt 4).gj.run 255).freeing = [] ∧ (ctxAt 4).gj.ctxState 255 = 4 :=
  ⟨calm_gj _ (by decide +kernel), by decide +kernel⟩

/-- FN_CTL and FN_STATUS with one function on, draining. -/
def fnAt (ctl st : Nat) (f : Garja → Garja := id) : Garja := f (gw (fun c => { (c.set GJ.FN_CTL (w64 ctl)).set GJ.FN_STATUS (w64 st) with now := 2 ^ 40 })).gj
theorem witness_functions : (∀ i, i < 4 → bit ((fnAt (2 ^ (63 - i)) 0).c.get GJ.FN_CTL) (63 - i) = true ∧ bits ((fnAt 0 0).c.get GJ.FN_STATUS) (63 - 2 * i) (62 - 2 * i) ≠ 1
      ∧ bits ((fnAt 0 (2 ^ (62 - 2 * i))).c.get GJ.FN_STATUS) (63 - 2 * i) (62 - 2 * i) = 1)
    ∧ (fnAt 0 0).so.intake = [] ∧ bit ((fnAt 0 0).c.get GJ.FN_CTL) 63 = false ∧ ((fnAt 0 0).fnAt.getD 0 0) + (fnAt 0 0).c.rd GJ.FN_CTL_DRAIN_NS ≤ (fnAt 0 0).c.now
    ∧ (∀ n, n < 16 → bits ((fnAt 0 (2 ^ (24 + 2 * n))).c.get GJ.FN_STATUS) (25 + 2 * n) (24 + 2 * n) = 1
      ∧ bit ((fnAt 0 0).c.set GJ.SO_TAP (w64 (2 ^ n)) |>.get GJ.SO_TAP) n = true ∧ bit ((fnAt 0 0).c.get GJ.SO_TAP) n = false
      ∧ ((fnAt 0 0).fnAt.getD (4 + n) 0) + (fnAt 0 0).c.rd GJ.FN_CTL_DRAIN_NS ≤ (fnAt 0 0).c.now)
    ∧ (∀ d : Bool, (fnAt 0 (2 ^ 54) (fun g => { g with taps := upd g.taps 15 (fun _ => { sig := some sig0, done := d }) })).taps[15]? = some { sig := some sig0, done := d }) := by
  decide +kernel

/-! ### Witnesses: sequencer, lane, barriers in the tree (12, 10, 11) -/

/-- The sequencer of context 255 issues w at the last PC of its code, 4094. -/
def seqAt (w : Nat) (f : Chip .garja → Chip .garja := id) (k : Garja → Garja := id) (q : SeqCtx := {}) : State :=
  ctxAt 1 false (fun c => f { ((((c.wr GJ.SQ_CTX_STATE_STATE 1 255).wr GJ.SQ_CTX_STATE_PC 4094 255).wr GJ.SQ_CTX_CFG_CODE_LO 4094 255).wr GJ.SQ_CTX_CFG_CODE_HI 4094 255) with
    now := 5000, gt := 123456789 * 2 ^ 32 }) (fun g => k { g with prog := [(4094, w64 w)], seqs := upd g.seqs 255 (fun _ => q) })

theorem witness_sequencer : ∀ w ∈ [put 63 58 11, put 63 58 8 + 99, put 63 58 9 + 7, put 63 58 10, put 63 58 7 + 30, put 63 58 7 + put 57 55 5, put 63 58 1, put 63 58 2 + put 51 46 63,
      put 63 58 3 + put 57 50 1 + put 49 33 49 + 3, put 63 58 4 + put 48 32 49 + 1, put 63 58 5 + put 57 50 1, put 63 58 6 + put 57 48 9 + 2 ^ 43, put 63 58 12, put 63 58 63],
    w < 2 ^ 64 ∧ calmG (seqAt w).gj = true ∧ (seqAt w).gj.Issues 255 {} (w64 w) := by unfold Garja.Issues; decide +kernel
theorem witness_branches : let q : SeqCtx := { last := some 7, rels := [{ step := 7, p := true, tl := 0 }] }
    (seqAt (put 63 58 7 + put 57 55 1) (q := q)).gj.Issues 255 q (w64 (put 63 58 7 + put 57 55 1)) ∧ q.rels.find? (fun r => r.step == 7) = some ⟨7, true, 0⟩
      ∧ (seqAt (put 63 58 7 + put 57 55 2) (q := { last := some 7 })).gj.Issues 255 { last := some 7 } (w64 (put 63 58 7 + put 57 55 2)) := by
  unfold Garja.Issues; decide +kernel
theorem witness_step : ∀ q ∈ [({ first := true, nxt := 2 ^ 48 - 1 } : SeqCtx), { nxt := 20, rels := [{ step := 19, p := true, tl := 0 }] }, { nxt := 20 }],
    (seqAt (put 63 58 1) (q := q)).gj.Issues 255 q (w64 (put 63 58 1)) ∧ q.nxt < 2 ^ 48 ∧ q.begun = false := by unfold Garja.Issues; decide +kernel
theorem witness_sop : (seqAt 0).gj.EngineReady 255 49 ∧ (seqAt 0).gj.flagBuild = false ∧ (∀ y ∈ (seqAt 0).gj.so.waiters, y.slot ≠ 4096 + 255)
    ∧ bits ((seqAt 0 (k := fun g => { g with so := { g.so with objs := [(149, 4)] } })).gj.obj ((seqAt 0).gj.physOf 255 49)) 31 0 = 4 := by
  unfold Garja.EngineReady; decide +kernel
def arriving : SeqCtx := { begun := true, inStep := true }
theorem witness_arrive : let s := seqAt (put 63 58 6 + put 57 48 9 + put 47 44 2) (·.wr GJ.SQ_CTX_STATE_STEP 70 255) (q := arriving)
    s.gj.Issues 255 arriving (w64 (put 63 58 6 + put 57 48 9 + put 47 44 2)) ∧ s.gj.Bare 255 ∧ s.gj.lane.store = [] ∧ (∀ k, k < 4 → s.gj.c.rd GJ.STG_S_W0_STATE k ≠ 3) := by
  unfold Garja.Issues Garja.Bare; decide +kernel

/-- Context 255 awaits its launch at T, `late` ns ago. -/
def awaiting (late cls : Nat) (first : Bool) : State :=
  let q : SeqCtx := { await_ := true, first := first, cls := cls, mask := 0xF0, rels := [{ step := 9, p := true, tl := 123456789 - late }] }
  seqAt 0 (fun c => ((((c.wr GJ.TB_STATUS_LOCK 2).wr GJ.SQ_CTX_STATE_STATE 3 255).wr GJ.SQ_CTX_ANCHOR_ANCHOR (123456789 - late - 1000) 255).wr GJ.SQ_CTX_CFG_PERIOD 100 255).wr
    GJ.SQ_CTX_STATE_STEP 10 255) (q := q)
/-- Nothing waits but what context 255 waits for. -/
def calmBut (g : Garja) : Bool :=
  g.ctxs.all (fun r => r.due.isNone) && g.so.intake.isEmpty && decide (g.c.prm ∈ [p0, p1]) && g.c.regs.all (fun r => offQueues .garja r.1)
    && (List.range g.seqs.length).all (fun y => y == 255 || match g.seqs[y]? with | some q => q.ended.isNone && !q.waiting && !q.await_ | none => true)
theorem calm_but (g : Garja) (h : calmBut g = true) : g.CalmOff 255 := by
  simp only [calmBut, Bool.and_eq_true, List.all_eq_true, Option.isNone_iff_eq_none, List.isEmpty_iff, decide_eq_true_eq] at h
  obtain ⟨⟨⟨⟨a, c⟩, d⟩, e⟩, b⟩ := h
  refine ⟨a, fun y q m n => ?_, c, noQueued_gj g.c d (List.all_eq_true.mpr e)⟩
  have l : y < g.seqs.length := by
    rcases Nat.lt_or_ge y g.seqs.length with l | l
    · exact l
    · rw [List.getElem?_eq_none l] at m; cases m
  have := b y (List.mem_range.mpr l)
  rw [m] at this
  simp [n] at this
  exact ⟨this.1.1, this.1.2, this.2⟩
theorem awaits_calm : ∀ a ∈ [(0, true), (1, false), (2, true)], calmBut (awaiting a.1 2 a.2).gj = true := by decide +kernel
theorem awaits_rest : ∀ a ∈ [(0, true), (1, false), (2, true)], let g := (awaiting a.1 2 a.2).gj; let q := g.seq 255
    g.Bare 255 ∧ g.seqs[255]? = some q ∧ q.await_ = true ∧ q.ended = none ∧ q.waiting = false ∧ q.busy = false ∧ g.ctxState 255 = 1
      ∧ g.c.rd GJ.SQ_CTX_STATE_STATE 255 = 3 ∧ (g.run 255).park = none ∧ g.c.pw.st = .run ∧ q.first = a.2 ∧ q.cls = 2
      ∧ 123456789 - a.1 = (g.c.rd GJ.SQ_CTX_ANCHOR_ANCHOR 255 + g.c.rd GJ.SQ_CTX_STATE_STEP 255 * g.c.rd GJ.SQ_CTX_CFG_PERIOD 255) % 2 ^ 64
      ∧ q.rels.find? (fun r => r.step + 1 == g.c.rd GJ.SQ_CTX_STATE_STEP 255) = some ⟨9, true, 123456789 - a.1⟩
      ∧ sdiff 64 g.c.gtInt (123456789 - a.1) = a.1 ∧ g.launch = none ∧ g.mayLaunch 255 ∧ (∀ n, n < 64 → (g.c.rd GJ.RGN_EN_EN).testBit n = false) := by
  unfold Garja.Bare Garja.mayLaunch; decide +kernel
theorem witness_launch (a : Nat × Bool) (l : a ∈ [(0, true), (1, false), (2, true)]) :
    (awaiting a.1 2 a.2).gj.Launching 255 ((awaiting a.1 2 a.2).gj.seq 255) (123456789 - a.1) := by
  obtain ⟨b, c, d, e, f, g, h, i, j, k, m, _, n, o, _⟩ := awaits_rest a l
  refine ⟨calm_but _ (awaits_calm a l), b, c, d, e, f, g, h, i, j, k, ?_⟩
  rcases Bool.eq_false_or_eq_true a.2 with p | p
  · exact .inl ⟨m.trans p, n⟩
  · exact .inr ⟨m.trans p, _, o, rfl⟩
theorem witness_step_deadline : ∀ cls ∈ [0, 1, 2], let q : SeqCtx := { inStep := true, dl := 5, launchGt := 123456784, cls := cls }
    let g := (seqAt 0 (q := q)).gj
    calmG g = true ∧ g.Bare 255 ∧ g.seqs[255]? = some q ∧ g.c.rd GJ.SQ_CTX_STATE_STATE 255 = 1 ∧ 0 ≤ sdiff 64 g.c.gtInt (q.launchGt + q.dl) := by
  unfold Garja.Bare; decide +kernel
theorem witness_relwait : let q : SeqCtx := { unrel := [(3, 1000)], await_ := true }
    let g := (seqAt 0 (fun c => (c.wr GJ.SQ_CFG_REL_WAIT 4).wr GJ.SQ_CTX_STATE_STATE 4 255) (q := q)).gj
    (3, 1000) ∈ q.unrel ∧ g.CalmOff 255 ∧ g.Bare 255 ∧ g.seqs[255]? = some q ∧ g.ctxState 255 = 1 ∧ 1000 + g.c.rd GJ.SQ_CFG_REL_WAIT * 1000 ≤ g.c.now
      ∧ ∀ n ∈ [0, 5, 6], g.c.rd GJ.SQ_CTX_STATE_STATE 255 ≠ n := ⟨by decide, calm_but _ (by decide +kernel), by unfold Garja.Bare; decide +kernel⟩

def region (open_ sl : Nat) (r : Region) : State :=
  seqAt 0 (fun c => ((c.wr GJ.RGN_EN_EN (2 ^ 63)).wr GJ.RGN_LOST_OPEN open_ 63).wr GJ.RGN_SLACK_SLACK sl 63) (fun g => { g with regions := upd g.regions 63 (fun _ => r) })
def region0 (t0 : Option Nat) : Region := { t0 := t0, k := 2, pnom := 65536, ctx := 255, step := 9, stretched := 1 }
theorem witness_regions : (region 0 0 {}).gj.c.flag GJ.RGN_LOST_OPEN 63 = false
    ∧ (∀ t0 ∈ [none, some (123456787 - 48 - 10)], (region 1 10 (region0 t0)).gj.regions[63]? = some (region0 t0) ∧ (region 1 10 (region0 t0)).gj.c.flag GJ.RGN_LOST_OPEN 63 = true)
    ∧ ((region 1 10 {}).gj.c.rd GJ.RGN_EN_EN).testBit 63 = true ∧ (region 1 10 {}).gj.c.rd GJ.RGN_SLACK_SLACK 63 = 10
    ∧ divZero (((123456787 : Int) - (123456787 - 48 - 10 : Nat)) * 65536 - ((3 * 16 * 65536 : Nat) : Int)) 65536 = 10 ∧ calmG (region 1 10 (region0 none)).gj = true := by decide +kernel
def undo0 : UndoEntry := { phys := 149, base := false, op := 1, n := 3, step := some 7, changed := true }
theorem witness_squash : let z : Squash := { ctx := 255, first := 7, steps := [7, 8], at_ := 0 }
    let g := (seqAt 0 (k := fun g => { g with fox := { g.fox with squash := some z, undo := [{ phys := 149, base := true, word := 6 }, undo0] } })).gj
    g.fox.squash = some z ∧ z.at_ + 3 + g.c.rd GJ.SQ_CFG_SQUASH_NS ≤ g.c.now ∧ g.so.intake = [] ∧ g.fox.undo = [{ phys := 149, base := true, word := 6 }, undo0] := by decide +kernel

theorem witness_program : (∃ x, x < 256 ∧ (seqAt 0).gj.ctxState x ≠ 0 ∧ (seqAt 0).gj.c.rd GJ.SQ_CTX_CFG_CODE_LO x ≤ 4094 ∧ 4094 ≤ (seqAt 0).gj.c.rd GJ.SQ_CTX_CFG_CODE_HI x)
    ∧ ¬ ∃ x, x < 256 ∧ (seqAt 0).gj.ctxState x ≠ 0 ∧ (seqAt 0).gj.c.rd GJ.SQ_CTX_CFG_CODE_LO x ≤ 4095 ∧ 4095 ≤ (seqAt 0).gj.c.rd GJ.SQ_CTX_CFG_CODE_HI x := by
  refine ⟨⟨255, by decide +kernel⟩, ?_⟩
  decide +kernel
theorem witness_lane_read : let r : LaneRead := { ctx := 255, step := 70, bar := 3, fmt := 1, addr := 128, port := none }
    let g := (seqAt 0 (k := fun g => { g with lane := { g.lane with reads := [r] } })).gj
    g.Calm ∧ g.c.applying = false ∧ g.lane.reads = [r] := ⟨calm_gj _ (by decide +kernel), by decide +kernel⟩
def rel0 (status : Nat) : Pkt := releasePkt 0 255 3 1 70 status true false 2 999 55 (List.replicate 64 7)
def releasing (st port : Nat) : Garja := (ctxAt st false (fun c => { c.wr GJ.BDOM_PORT port 255 with links := upd c.links 1 (fun l => { l with rx := { l.rx with rel := [rel0 0] } }) })
    (fun g => { g with lane := { g.lane with store := [{ ctx := 255, step := 70, pkt := [] }] } })).gj
theorem witness_release : (∀ st ∈ [0, 1, 3, 4], ∀ port ∈ [0, 1], let g := releasing st port
      g.c.applying = false ∧ (g.c.link 1).rx.rel = [rel0 0] ∧ g.ctxState 255 = st ∧ g.c.rd GJ.BDOM_PORT 255 = port ∧ g.lane.store.any (fun e => e.ctx == 255 && e.step == 70) = true)
    ∧ bits ((rel0 0).headD 0) 105 98 = 255 ∧ bits ((rel0 0).headD 0) 87 40 = 70 ∧ bits ((rel0 0).headD 0) 39 32 = 0 ∧ 2 ≤ (rel0 0).length := by decide +kernel
def record0 : RelRecord := { ctx := 255, step := 70, status := 0, p := true, tl := 999, addr := 256, bytes := [1, 2, 3], failed := false }
theorem witness_record : ∀ a ∈ [(1, false), (4, true)], let q : SeqCtx := { unrel := [(70, 5)], last := some 70, await_ := a.2 }
    let g := (seqAt 0 (fun c => (c.wr GJ.SQ_CTX_STATE_STATE a.1 255).wr GJ.SQ_CTX_STATE_STEP 71 255) (fun g => { g with lane := { g.lane with records := [record0] } }) q).gj
    calmBut g = true ∧ g.Bare 255 ∧ g.c.applying = false ∧ g.lane.records = [record0] ∧ g.seqs[255]? = some q ∧ g.ctxState 255 = 1 ∧ g.fox.spec = []
      ∧ g.c.rd GJ.SO_RLN_CTX_PERIOD 255 = 0 ∧ g.c.flag GJ.TB_STATUS_CLKFIX_ACT = false ∧ g.c.rd GJ.SQ_CTX_STATE_STATE 255 = a.1 ∧ g.c.rd GJ.SQ_CTX_STATE_STEP 255 = 70 + 1 := by
  unfold Garja.Bare; decide +kernel

/-- Elzel as a leaf (role 1) or above, with job 4095 of context 255, ports 1 and 2 its members, released to step 9, and descriptor 16383 at its last barrier. -/
def jobAt (role apex : Nat) (f : Elzel → Elzel := id) (fmt op : Nat := 0) : State :=
  let e := s0.ez
  let c := (((((e.c.wr EZ.ROLE_ROLE role).wr EZ.ROLE_DEPTH 3).wr EZ.SL_STATUS_STATE 5 1).wr EZ.SL_STATUS_STATE 5 2).wr EZ.SL_STATUS_STATE 5 64).wr EZ.CMB_JOB_W0_VALID 1 4095
  let c := ((((c.wr EZ.CMB_JOB_W0_CTX 255 4095).wr EZ.CMB_JOB_W0_APEX apex 4095).wr EZ.CMB_JOB_W1_BAR_BASE 16380 4095).wr EZ.CMB_JOB_W1_BAR_CNT 4 4095).wr EZ.CMB_JOB_W2_REL_THRU 9 4095
  let c := (((c.wr EZ.CMB_BDESC_W0_VALID 1 16383).wr EZ.CMB_BDESC_W0_FMT fmt 16383).wr EZ.CMB_BDESC_W0_OP op 16383).wr EZ.CMB_BDESC_W0_DEADLINE 789 16383
  { s0 with ez := f { e with c := { (c.set (diesOff 4095 0 1) 1).set (diesOff 4095 0 2) 1 with now := 5000, gt := 123456789 * 2 ^ 32 } } }
def rxAt (p : Nat) (k : Cls) (pkt : Pkt) (e : Elzel) : Elzel := { e with c := { e.c with links := upd e.c.links p (fun l => { l with rx := l.rx.mod k (fun _ => [pkt]) }) } }
/-- The ARRIVE or partial of step n at the last barrier. -/
def item (typ ctx bar n count : Nat) : Pkt := [f128 (put 127 124 typ + put 123 118 1 + put 117 106 (if typ = 3 then 4095 else 0) + put 105 98 ctx + put 97 88 bar + put 87 40 n + put 28 10 count), f128 (7 * 2 ^ 64)]
def inst0 : Inst := { job := 4095, step := 10, bar := 3, ctx := 255, fmt := 0, setts := 1 }

def combB (e : Elzel) : Bool :=
  e.c.clocked && calmE e && !e.c.applying && e.c.den.run.isNone && (List.range 16).all (fun k => e.c.rd EZ.STG_S_W0_STATE k == 0)
    && (List.range 64).all (fun p => (e.c.link p).barHeld.isEmpty && (e.c.link p).chain.isEmpty) && (List.range 64).all (fun k => !e.c.flag EZ.HLT_OWL_W0_VALID k)
    && e.cmb.replays.isEmpty && e.cmb.owlWait.isEmpty && e.cmb.moved.isEmpty
theorem combines (e : Elzel) (h : combB e = true) : e.Combining := by
  simp only [combB, Bool.and_eq_true, Bool.not_eq_true', Option.isNone_iff_eq_none, List.all_eq_true, List.mem_range, beq_iff_eq, List.isEmpty_iff] at h
  obtain ⟨⟨⟨⟨⟨⟨⟨⟨⟨a, b⟩, c⟩, d⟩, f⟩, g⟩, i⟩, j⟩, k⟩, m⟩ := h
  exact ⟨a, calm_ez e b, c, d, f, g, i, j, k, m⟩

theorem witness_arrives : ∀ pkt ∈ [item 2 255 3 9 1, item 2 255 3 10 1, item 2 255 3 13 1, item 2 255 3 14 1, item 2 255 4 13 1, item 2 254 3 10 1, item 2 255 3 10 2],
    let e := (jobAt 1 1 (rxAt 1 .bar pkt)).ez
    combB e = true ∧ e.c.up 1 = true ∧ e.c.typeAllowed 1 2 = true ∧ bits (pkt.headD 0) 127 124 = 2 ∧ (e.c.link 1).rx.at .bar = pkt :: [] ∧ e.c.farElzel 1 = false ∧ e.c.jobs = [4095]
      ∧ e.c.jobValid 4095 = true ∧ e.c.rd EZ.CMB_JOB_W0_CTX 4095 = 255 ∧ e.c.relNext 4095 = 10 ∧ e.c.dies 4095 10 1 = 1 ∧ e.c.dies 4095 13 1 = 1 ∧ e.c.rd EZ.CMB_JOB_W1_BAR_CNT 4095 = 4 := by
  decide +kernel
theorem witness_item : (∀ n ∈ [10, 13], (jobAt 1 1).ez.ItemOf 4095 16383 ((item 2 255 3 n 1).headD 0) ∧ (jobAt 2 0).ez.ItemOf 4095 16383 ((item 3 255 3 n 1).headD 0)) ∧ s0.ez.c.jobs = []
    ∧ (jobAt 1 1).ez.instOf 4095 10 = none ∧ (jobAt 1 1).ez.cmb.recs = [] ∧ (jobAt 1 1).ez.c.rd EZ.CMB_JOB_W0_RESERVE 4095 ≤ 16384
    ∧ (∀ i ∈ [inst0, { inst0 with ports := [{ port := 1, sum := 1 }] }], (jobAt 1 1 (fun e => { e with cmb := { e.cmb with insts := [i] } })).ez.instOf 4095 10 = some i)
    ∧ inst0.st = .open_ ∧ inst0.port 1 = none ∧ ({ inst0 with ports := [{ port := 1, sum := 1 }] } : Inst).port 1 = some ({ port := 1, sum := 1 } : PortAcc) := by
  unfold Elzel.ItemOf; decide +kernel
theorem witness_partials : let e := (jobAt 2 0 (fun e => rxAt 1 .bar (item 3 255 3 10 1) { e with c := ((e.c.wr EZ.CMB_CTL_BYP_EN 1).wr EZ.CMB_JOB_W0_VALID 1 8).wr EZ.SL_STATUS_FAR_KIND 1 1 })).ez
    e.Combining ∧ e.c.up 1 = true ∧ e.c.typeAllowed 1 3 = true ∧ (e.c.link 1).rx.at .bar = [item 3 255 3 10 1] ∧ bits ((item 3 255 3 10 1).headD 0) 117 106 = 4095 ∧ e.c.dies 4095 10 1 = 1
      ∧ e.c.isApex 4095 = false ∧ e.c.flag EZ.CMB_CTL_BYP_EN = true
      ∧ (let i8 : Inst := { inst0 with job := 8, setts := 16384 }
         ({ e with cmb := { e.cmb with insts := [i8] } } : Elzel).room 4095 = 0 ∧ ({ e with cmb := { e.cmb with insts := [i8] } } : Elzel).instOf 4095 10 = none) :=
  ⟨combines _ (by decide +kernel), by decide +kernel⟩
/-- The first segment of a stream of limbs, or one of another number. -/
def segment (seg : Nat) : Pkt :=
  [f128 (put 127 124 3 + put 123 118 63 + put 117 106 4095 + put 105 98 255 + put 97 88 3 + put 87 40 10 + put 32 29 6 + put 28 10 1), 0, f128 (put 126 120 seg)] ++ List.replicate 61 0
theorem witness_stream : ∀ seg ∈ [0, 127], let pkt := segment seg
    let e := (jobAt 2 0 (rxAt 1 .bar pkt) 6 0).ez
    e.ItemOf 4095 16383 (pkt.headD 0) ∧ bits (pkt.headD 0) 32 29 ≠ 0 ∧ e.c.rd EZ.CMB_BDESC_W0_OP 16383 = 0 ∧ 3 ≤ pkt.length ∧ bits (pkt.getD 2 0) 126 120 = seg
      ∧ bit (pkt.getD 2 0) 127 = false ∧ bits (pkt.headD 0) 123 118 = 63 := by unfold Elzel.ItemOf; decide +kernel
theorem witness_apex : ∀ role ∈ [1, 2], ∀ dig ∈ [0, 1, 2], let i : Inst := { inst0 with st := .complete, count := 2, digest := 55, mis := dig == 2, done := 123456000 }
    let e := (jobAt role 1 (fun e => { e with c := e.c.wr EZ.CMB_BDESC_W0_DIG dig 16383, cmb := { e.cmb with insts := [i] } })).ez
    combB e = true ∧ e.c.jobValid 4095 = true ∧ e.c.isApex 4095 = true ∧ e.instOf 4095 10 = some i ∧ e.c.relNext 4095 = 10 ∧ e.c.relThru 4095 ≤ 10 ∧ e.c.flag EZ.CMB_BDESC_W0_VALID 16383 = true
      ∧ e.c.rd EZ.CMB_BDESC_W0_OP 16383 = 0 ∧ e.c.rd EZ.CMB_BDESC_W0_CMP 16383 = 0 ∧ e.c.rd EZ.CMB_BDESC_W0_DIG 16383 = dig ∧ e.c.isLeaf = decide (role = 1)
      ∧ ∀ q, q < 64 → e.c.portHeld q = false := by decide +kernel
theorem witness_bar_deadline : ∀ n ∈ [10, 11], let i := { inst0 with step := n, count := 1 }
    let e := (jobAt 1 1 (fun e => { e with cmb := { e.cmb with insts := [i], tls := [(4095, 10, 123456000), (4095, 11, 123456000)] } })).ez
    combB e = true ∧ e.cmb.insts = [i] ∧ e.cmb.tls.find? (fun t => t.1 == 4095 && t.2.1 == i.step) = some (4095, i.step, 123456000)
      ∧ 123456000 + e.c.rd EZ.CMB_BDESC_W0_DEADLINE 16383 ≤ e.c.gtInt ∧ e.c.relNext 4095 = 10 := by decide +kernel
theorem witness_release_down : let pkt := releasePkt 4095 255 3 0 10 0 true false 2 999 5 []
    let e := (jobAt 1 0 (rxAt 64 .rel pkt)).ez
    e.Combining ∧ e.c.up 64 = true ∧ e.c.typeAllowed 64 4 = true ∧ bits (pkt.headD 0) 127 124 = 4 ∧ (e.c.link 64).rx.at .rel = [pkt] ∧ bits (pkt.headD 0) 117 106 = 4095
      ∧ bit (pkt.headD 0) 30 = false ∧ e.c.relNext 4095 ≤ bits (pkt.headD 0) 87 40 ∧ s0.ez.c.jobValid 4095 = false := ⟨combines _ (by decide +kernel), by decide +kernel⟩
def sigT (chip ctx job : Nat) : Flit := f128 (put 127 124 5 + put 117 110 1 + put 109 98 job + put 95 64 3 + chip * 2 ^ 25 + ctx * 2 ^ 17 + 7)
theorem witness_sig_route : ∀ p ∈ [1, 64], ∀ role ∈ [1, 3], let f := sigT 333 255 4095
    let e := (jobAt role 0 (fun e => rxAt p .sig [f] { e with c := (((e.c.wr EZ.BIND_VALID 1 2).wr EZ.BIND_SEEN 1 2).wr EZ.BIND_REPORTED 333 2).wr EZ.ROLE_DEPTH 1 })).ez
    calmE e = true ∧ e.c.up p = true ∧ e.c.typeAllowed p 5 = true ∧ (e.c.link p).rx.at .sig = [[f]] ∧ e.c.isLeaf = true ∧ e.c.farElzel p = false ∧ e.c.jobs = [4095] ∧ e.c.jobValid 4095 = true
      ∧ e.c.dies 4095 (e.c.relNext 4095) 1 ≠ 0 ∧ e.c.portOfChip 333 = some 2 ∧ e.c.portOfChip 334 = none ∧ e.c.dies 4095 (e.c.relNext 4095) 2 ≠ 0 ∧ e.c.portHeld 2 = false
      ∧ e.c.isRoot = decide (role = 3) ∧ bits f 42 25 = 333 ∧ bits f 24 17 = 255 ∧ bits f 109 98 = 4095 ∧ e.c.uplink = 64 := by decide +kernel
theorem witness_event_packet : ∀ len ∈ [3, 4], let pkt : Pkt := [f128 (put 127 124 7 + put 123 118 len), 5, 6, 7, 8]
    let e := (jobAt 2 0 (fun e => rxAt 1 .evt pkt { e with c := e.c.wr EZ.SL_STATUS_FAR_KIND 1 1 })).ez
    calmE e = true ∧ e.c.up 1 = true ∧ e.c.typeAllowed 1 7 = true ∧ (e.c.link 1).rx.at .evt = [pkt] ∧ e.c.isRootA = false ∧ e.c.farElzel 1 = true ∧ bits (pkt.headD 0) 123 118 = len := by
  decide +kernel
theorem witness_reductions : (∀ fmt ∈ [1, 2, 3, 4, 5, 6, 7], redSupported fmt RO.SUM = true) ∧ (List.replicate 64 (0xFF : BitVec 8)).length = 64 ∧ 7 < 64 / laneBytes 7
    ∧ (let a := fun b : List (BitVec 8) => (Lanes.ofPayload 5 RO.SUM b).acc.getD 0 0
       let lo : List (BitVec 8) := List.replicate 64 0x80
       let hi : List (BitVec 8) := List.replicate 64 0x7F
       a lo + a lo < -(2 ^ (8 * laneBytes 5 - 1) : Int) ∧ (2 ^ (8 * laneBytes 5 - 1) : Int) ≤ a hi + a hi ∧ -(2 ^ (8 * laneBytes 5 - 1) : Int) ≤ a lo + a hi) := by decide +kernel

/-! ### Witnesses: staged changes (13) -/

/-- Both parts with their last queue pair enabled, protocol level 1, Elzel a root with its firmware in RUN, at 5 ms. -/
def cmdSt : State :=
  ew (fun c => { (((((c.wr EZ.CMD_CAP_LVL_MIN 1).wr EZ.CMD_CAP_LVL_MAX 1).wr EZ.QP_CFG_EN 1 1023).wr EZ.BOOT_STATUS_STAGE 4).wr EZ.ROLE_ROLE 3).wr EZ.ROLE_DEPTH 1 with
    now := 5000000, gt := 123456789 * 2 ^ 32 })
    (gw (fun c => { ((c.wr GJ.CMD_CAP_LVL_MIN 1).wr GJ.CMD_CAP_LVL_MAX 1).wr GJ.CQP_CFG_EN 1 7 with now := 5000000, gt := 123456789 * 2 ^ 32 }))
def lastQ : Part → Nat
  | .garja => 7
  | .elzel => 1023
def ord (u : Part) : Order := { src := .queue (BitVec.ofNat 10 (lastQ u)), tag := 77, lvl := 1, routed := false, sender := 0 }
def calmS (s : State) : Part → Bool
  | .garja => calmG s.gj
  | .elzel => calmE s.ez && s.ez.c.rd EZ.BOOT_STATUS_STAGE == 4
def servesB (s : State) (u : Part) : Bool :=
  ((s.chip u).pw.st == .run && !(s.chip u).den.dead) && (s.chip u).den.run.isNone && decide ((s.chip u).cmd = {}) && calmS s u
theorem serves_of {s : State} {u : Part} (h : servesB s u = true) : s.Serves u := by
  simp only [servesB, Bool.and_eq_true, Option.isNone_iff_eq_none, decide_eq_true_eq] at h
  refine ⟨running_of (by simpa using h.1.1.1), h.1.1.2, h.1.2, ?_⟩
  cases u
  · exact calm_gj _ h.2
  · have := h.2
    simp only [calmS, Bool.and_eq_true, beq_iff_eq] at this
    exact ⟨calm_ez _ this.1, this.2⟩
def takesB (s : State) (u : Part) : Bool :=
  servesB s u && decide ((s.chip u).rd (PT.CMD_CAP_LVL_MIN u) ≤ 1) && decide (1 ≤ (s.chip u).rd (PT.CMD_CAP_LVL_MAX u)) && (s.chip u).flag (PT.QP_CFG_EN u) (lastQ u)
theorem takes_of {s : State} {u : Part} (h : takesB s u = true) : s.Takes u (ord u) := by
  simp only [takesB, Bool.and_eq_true, decide_eq_true_eq] at h
  refine ⟨serves_of h.1.1.1, rfl, h.1.1.2, h.1.2, _, rfl, ?_⟩
  cases u <;> exact h.2

/-- The last set of a part in a state, with change 0xFFFFFFFF. -/
def setAt (u : Part) (st : Nat) (f : (v : Part) → Chip v → Chip v := fun _ => id) : State :=
  match u with
  | .garja => gw (fun c => f .garja ((c.wr GJ.STG_S_W0_STATE st 3).wr GJ.STG_S_W0_CHANGE 0xFFFFFFFF 3)) cmdSt
  | .elzel => ew (fun c => f .elzel ((c.wr EZ.STG_S_W0_STATE st 15).wr EZ.STG_S_W0_CHANGE 0xFFFFFFFF 15)) cmdSt
def setOf : Part → Nat
  | .garja => 3
  | .elzel => 15
theorem witness_stage_commands : ∀ u ∈ [Part.garja, .elzel], ∀ st ∈ [0, 1, 2, 3, 4], takesB (setAt u st) u = true ∧ ((setAt u st).chip u).rd (PT.STG_S_W0_STATE u) (setOf u) = st
    ∧ ((setAt u 0).chip u).holdsNot 0xFFFFFFFF ∧ ((setAt u 1).chip u).holds (setOf u) 0xFFFFFFFF ∧ ((setAt u 1).chip u).holdsNot 5 := by
  unfold Chip.holds Chip.holdsNot; decide +kernel
theorem witness_stage_full : ∀ u ∈ [Part.garja, .elzel], let c := (List.range 16).foldl (fun c k => c.wr (PT.STG_S_W0_STATE u) 1 k) (cmdSt.chip u)
    (∀ j, j < c.nSets → c.rd (PT.STG_S_W0_STATE u) j ≠ 0) ∧ 1 ≤ ((setAt u 1).chip u).stageRoom (setOf u) ∧ entryTaken ⟨w64 (put 47 24 0x100), 0, 0⟩ = true
      ∧ (∀ p, p < 64 → (cmdSt.ez.c.link p).barHeld = []) ∧ ({ c with stageEnds := [⟨99, true, 2, 55, 4⟩] } : Chip u).stageEnds.find? (fun r => r.change == 99) = some ⟨99, true, 2, 55, 4⟩ := by
  decide +kernel
theorem witness_prepare : ∀ u ∈ [Part.garja, .elzel], ((setAt u 1).chip u).flag (PT.STG_S_W0_SCOPED u) (setOf u) = false ∧ (((setAt u 1).chip u).stageAt (setOf u)).entries = []
    ∧ (((setAt u 1).chip u).gtInt + 250000 : Int) ≤ (w64 123706789).toNat ∧ bits (w64 (put 47 24 0xFFFFFC)) 47 24 % 8 ≠ 0 ∧ bits (w64 (put 47 24 0xFFFFFC)) 63 62 = 0 := by decide +kernel
theorem witness_apply : ∀ u ∈ [Part.garja, .elzel], ∀ st ∈ [2, 3, 4], let c := (setAt u st (fun v c => c.wr (PT.STG_CFG_ORPHAN v) 30)).chip u
    c.clocked = true ∧ setOf u < c.nSets ∧ c.flag (PT.STG_S_W0_SCOPED u) (setOf u) = false ∧ c.rd (PT.STG_S_W1_T u) (setOf u) ≤ c.gtInt ∧ c.rd (PT.STG_S_W0_STATE u) (setOf u) = st ∧ c.applying = false
      ∧ 0 < c.rd (PT.STG_CFG_ORPHAN u) ∧ (c.stageAt (setOf u)).orphanAt + c.rd (PT.STG_CFG_ORPHAN u) * 1000 ≤ c.now := by decide +kernel
theorem witness_apply_end : (∀ w : StgEntry, w ∈ [(⟨w64 (put 47 24 (GJ.SQ_ADDR + 8 * 255)), 5, 6⟩ : StgEntry)] →
      ∀ x ∈ [({ applying := some (5, 0) } : StageX), { applying := some (5, 0), entries := [w] }],
        (setAt .garja 3 (fun v c => { c with stage := upd c.stage (setOf v) (fun _ => x) })).gj.c.stage[3]? = some x ∧ bits w.w0 63 62 = 0 ∧ bits w.w0 47 24 = GJ.SQ_ADDR + 8 * 255)
    ∧ (∀ w : StgEntry, w ∈ [(⟨w64 (put 47 24 (EZ.CMB_BDESC_W1 + 16 * 16383)), 5, 6⟩ : StgEntry)] →
      (setAt .elzel 3 (fun v c => { c with stage := upd c.stage (setOf v) (fun _ => { applying := some (5, 0), entries := [w] }) })).ez.c.stage[15]? = some { applying := some (5, 0), entries := [w] }
        ∧ bits w.w0 47 24 = EZ.CMB_BDESC_W1 + 16 * 16383) ∧ cmdSt.gj.so.passes = [] ∧ cmdSt.gj.c.den.run = none ∧ cmdSt.ez.cmb.replays = [] := by decide +kernel
theorem witness_calm (u : Part) : cmdSt.calm u := by
  cases u
  · exact calm_gj _ (by decide +kernel)
  · exact calm_ez _ (by decide +kernel)

/-! ### Witnesses: power, heat, commands and registers (14, 15, 17, 20) -/

theorem witness_ramp : (∀ run ∈ [0, 1], (gw (·.wr GJ.PWR_RAMP0_RUN run)).gj.c.flag GJ.PWR_RAMP0_RUN = decide (run = 1))
    ∧ (let g := (gw (·.wr GJ.PWR_RAMP0_ARM 1)).gj
       g.c.flag GJ.PWR_RAMP0_ARM = true ∧ 0 ≤ sdiff 64 g.c.gtInt (g.c.rd GJ.PWR_RAMP1_START) ∧ g.c.flag GJ.PWR_RAMP0_TRIG = false)
    ∧ (let g := (gw (fun c => { ((c.wr GJ.PWR_RAMP0_RUN 1).wr GJ.PWR_RAMP0_TO 2) with gt := 2 ^ 32 * 1000000 })).gj
       g.c.flag GJ.PWR_RAMP0_RUN = true ∧ g.bal.made < 2 ∧ 0 ≤ sdiff 64 g.c.gtInt (g.bal.s0 + g.bal.made * 64000 + 1 * 64000 / 64))
    ∧ (let late : Garja := (gw (fun c => { ((c.wr GJ.PWR_RAMP0_ARM 1).wr GJ.PWR_RAMP0_TRIG 1) with gt := 2 ^ 32 * 1000000 })).gj; late.c.flag GJ.PWR_RAMP0_RUN = false ∧ 0 < sdiff 64 late.c.gtInt (late.c.rd GJ.PWR_RAMP1_START))
    ∧ (∀ req ∈ [0, 1], let g := (gw (fun c => { (c.wr GJ.PWR_STATUS_REQ req) with gt := 2 ^ 32 * (300000 * 64) })).gj
        g.c.flag GJ.PWR_STATUS_REQ = decide (req = 1) ∧ g.c.gtInt / (g.c.rd GJ.PWR_CFG_SLOT * 1000) % 64 = 0 ∧ g.bal.reqGt ≤ g.c.gtInt / (g.c.rd GJ.PWR_CFG_SLOT * 1000) * (g.c.rd GJ.PWR_CFG_SLOT * 1000)) := by decide +kernel
theorem witness_idle : let g := (gw (fun c => { (c.wr GJ.PST_CTL_NAP_EN 1).wr GJ.PST_LTR_ACCESS 2000 with now := 2 ^ 50, pw := { c.pw with idleSince := some 0 } })).gj
    g.c.den.dead = false ∧ g.c.pw.st = .run ∧ g.idle = true ∧ 0 + g.c.rd GJ.PST_CTL_IDLE_US * 1000 ≤ g.c.now ∧ g.level = 0 ∧ g.c.flag GJ.PST_CTL_BURROW_EN = false
      ∧ (let c := ((g.c.wr GJ.PST_CTL_BURROW_EN 1).wr GJ.PST_LTR_ACCESS 15000).wr GJ.PST_LTR_TIME 0xFFFF
         c.flag GJ.PST_CTL_BURROW_EN = true ∧ c.anyCtx = false ∧ 15000 ≤ c.rd GJ.PST_LTR_ACCESS ∧ c.exitBurrow ≤ c.rd GJ.PST_LTR_TIME)
      ∧ (let h : Garja := { g with c := (g.c.wr GJ.PWR_CFG_FILL_EN 1).wr GJ.PWR_CFG_WAIT_LVL 15, bal := { g.bal with filling := true } }; h.idle = true ∧ h.level = 15) := by decide +kernel
theorem witness_wake : let c := (gw (fun c => { ((c.wr GJ.TB_STATUS_LOCK 3).wr GJ.PST_CTL_BURROW_MAX 9).wr GJ.PST_WAKE_TIMER 1 with pw := { c.pw with st := .burrow }, now := 9000000000 })).gj.c
    c.pw.st = .burrow ∧ c.lock = 3 ∧ c.rd GJ.PST_CTL_BURROW_MAX = 9 ∧ c.tb.holdSince + 9 * 1000000000 ≤ c.now ∧ c.flag GJ.PST_WAKE_TIMER = true
      ∧ 0 ≤ sdiff 64 c.gtInt (c.rd GJ.PST_TIMER_WAKE_AT) := by decide +kernel
theorem witness_quiet : let e := (ew (fun c => { c.wr EZ.PST_CTL_QUIET_EN 1 with now := 2 ^ 50, pw := { c.pw with idleSince := some 0 } })).ez
    e.c.clocked = true ∧ e.c.pw.st = .run ∧ e.idle = true ∧ 0 + e.c.rd EZ.PST_CTL_IDLE_MS * 1000000 ≤ e.c.now ∧ e.c.anyMember = false ∧ (jobAt 1 1).ez.c.anyMember = true := by decide +kernel

def shelf (role : Nat) (ok : Bool) : State := ew (fun c => { (((c.wr EZ.ROLE_ROLE role).wr EZ.ROLE_DEPTH (if role = 3 then 3 else 1)).wr EZ.PWR_CTL_EN 1).wr EZ.PWR_CTL_MASTER (b2n ok) with now := 2 ^ 40 })
theorem witness_shelf : (∀ ok, (shelf 1 ok).ez.c.clocked = true ∧ (shelf 1 ok).ez.c.den.run = none ∧ (shelf 1 ok).ez.c.flag EZ.PWR_CTL_EN = true ∧ (shelf 1 ok).ez.c.flag EZ.PWR_CTL_MASTER = ok
      ∧ 1000000000 ≤ (shelf 1 ok).ez.c.now - (shelf 1 ok).ez.shelf.polledAt ∧ (shelf 1 ok).ez.shelf.lostAt = none ∧ (shelf 1 ok).ez.c.isRootA = false
      ∧ (shelf 1 ok).ez.c.rd EZ.PWR_SHELF1_CMD_TAU = 0 ∧ (shelf 1 ok).ez.c.rd EZ.PWR_SHELF1_CMD_PBUF = 0 ∧ (shelf 1 ok).ez.c.rd EZ.PWR_SHELF1_CMD_EBUF = 0 ∧ (shelf 1 ok).ez.c.rd EZ.PWR_SHELF1_CMD_SOC = 0)
    ∧ (shelf 1 true).ez.c.isLeaf = true ∧ (shelf 3 true).ez.c.isLeaf = false ∧ (shelf 3 true).ez.c.isRootA = true ∧ calmE (shelf 1 true).ez = true := by decide +kernel

def hot (th : Thermal) : Elzel := { s0.ez with th := th, c := { s0.ez.c with now := 1000000000 } }
theorem witness_heat : s0.ez.c.pw.st ≠ .denOnly ∧ s0.ez.c.den.dead = false ∧ s0.ez.th.want = false ∧ (hot { want := true, coolSince := some 0 }).th.coolSince = some 0 ∧ s0.ez.c.clocked = true
    ∧ (hot { tripDue := true }).th.tripDue = true ∧ s0.ez.c.applying = false ∧ s0.ez.c.den.run = none ∧ s0.ez.fw = none := by decide +kernel

theorem witness_takes (u : Part) : cmdSt.Takes u (ord u) := by cases u <;> exact takes_of (by decide +kernel)
theorem witness_serves (u : Part) : cmdSt.Serves u := (witness_takes u).1
theorem witness_bad_runs : ∀ u ∈ [Part.garja, .elzel], (4 : BitVec 24).toNat % 8 ≠ 0 ∧ regWindow u < (BitVec.ofNat 24 (regWindow u - 8)).toNat + 8 * ((1 : BitVec 4).toNat + 1) := by decide
def starting (st sq : Nat) (sent : Option Nat) : State :=
  let s := gw (fun c => (c.wr GJ.CTX_STATE_STATE st 255).wr GJ.SQ_CTX_STATE_STATE sq 255) cmdSt
  { s with gj := { s.gj with seqs := upd s.gj.seqs 255 (fun q => { q with sent := sent }) } }
theorem witness_start : ∀ a ∈ [(0, 0, none), (1, 0, none), (1, 1, none), (1, 5, none), (1, 6, some 499), (2, 0, none), (4, 0, none)],
    takesB (starting a.1 a.2.1 a.2.2) .garja = true ∧ (starting a.1 a.2.1 a.2.2).gj.ctxState 255 = a.1 ∧ (starting a.1 a.2.1 a.2.2).gj.c.rd GJ.SQ_CTX_STATE_STATE 255 = a.2.1
      ∧ (starting a.1 a.2.1 a.2.2).gj.c.lockedEntries = [] ∧ ((starting a.1 a.2.1 a.2.2).gj.seq 255).sent = a.2.2 ∧ (starting a.1 a.2.1 a.2.2).gj.c.rd GJ.SO_RLN_CTX_COUNT 255 = 0 := by
  decide +kernel
theorem witness_registers : (∀ j, j < 4 → cmdSt.gj.c.rd GJ.STG_S_W0_STATE j = 0) ∧ (∀ j, j < 16 → cmdSt.ez.c.rd EZ.STG_S_W0_STATE j = 0)
    ∧ (BitVec.ofNat 24 (GJ.SQ_ADDR + 8 * 240)).toNat = GJ.SQ_ADDR + 8 * 240 ∧ (15 : BitVec 4).toNat + 1 = 16 ∧ cmdSt.gj.smap = none
    ∧ (let w : StgEntry := ⟨w64 (put 47 24 EZ.LNC_CTL), 5, 6⟩
       let c := (setAt .elzel 2 (fun v c => { c with stage := upd c.stage (setOf v) (fun x => { x with entries := [w] }) })).ez.c
       2 ≤ c.rd EZ.STG_S_W0_STATE 15 ∧ w ∈ (c.stageAt 15).entries ∧ bits w.w0 63 62 = 0 ∧ bits w.w0 47 24 = EZ.LNC_CTL)
    ∧ (∀ i ∈ [0, 2047], (cmdSt.gj.c.wr GJ.CAP_CTL_INDEX i).rd GJ.CAP_CTL_INDEX = i) := by decide +kernel

/-- The last pair with 16 slots, its submission queue at 64 and its completion queue at 2048, and a NOP of level 1 in the first slot. -/
def queued (u : Part) (r : List ReplyRec := []) : State :=
  let m := memWriteWord [] 64 (w64 (put 63 56 1 + put 55 48 1 + put 47 32 77))
  let f : (v : Part) → Chip v → Chip v := fun v c =>
    { ((((c.wr (PT.QP_CFG_LOG2N_SQ v) 4 (lastQ v)).wr (PT.QP_CFG_LOG2N_CQ v) 4 (lastQ v)).wr (PT.QP_SQ_BASE_BASE v) 1 (lastQ v)).wr (PT.QP_CQ_BASE_BASE v) 32 (lastQ v)).wr
        (PT.QP_PSHADOW_PSHADOW v) 3 (lastQ v) with cmd := { c.cmd with replies := r } }
  { (match u with | .garja => gw (f .garja) cmdSt | .elzel => ew (f .elzel) cmdSt) with dieMem := m, hostMem := m }
theorem witness_queues : ∀ u ∈ [Part.garja, .elzel], let c := (queued u).chip u
    takesB (queued u) u = true ∧ lastQ u < c.nQueues ∧ c.rd (PT.QP_SQ_IDX_HEAD u) (lastQ u) = 0 ∧ c.rd (PT.QP_CFG_LOG2N_SQ u) (lastQ u) = 4 ∧ c.rd (PT.QP_CFG_LOG2N_CQ u) (lastQ u) = 4
      ∧ c.rd (PT.QP_CQ_IDX_PROD u) (lastQ u) = c.rd (PT.QP_CQ_IDX_CONS u) (lastQ u) ∧ 64 * c.rd (PT.QP_SQ_BASE_BASE u) (lastQ u) + 64 * (0 % 2 ^ 4) = 64
      ∧ (let w := memReadWord (queued u).dieMem 64; bits w 63 56 = 1 ∧ bits w 31 0 = 0 ∧ bits w 55 48 = 1 ∧ bits w 47 32 = 77 ∧ memReadWord (queued u).dieMem 72 = 0)
      ∧ (queued u).dieMem = (queued u).hostMem ∧ ((s0.chip u).flag (PT.QP_CFG_EN u) (lastQ u)) = false := by decide +kernel
theorem witness_replies : ∀ u ∈ [Part.garja, .elzel], let r : ReplyRec := { q := lastQ u, words := [1, 2, 3, 4, 5, 6, 7, 8, 9] }
    let c := (queued u [r]).chip u
    c.cmd.replies = [r] ∧ c.flag (PT.QP_CFG_EN u) (lastQ u) = true ∧ (queued .garja [r]).gj.c.flag GJ.CQP_CFG_DONE_EN 7 = false ∧ (queued .elzel [r]).ez.c.flag EZ.QP_CFG_ARM 1023 = false := by decide +kernel
theorem witness_reply_runs : ∀ u ∈ [Part.garja, .elzel], ((queued u).chip u).pw.st = .run ∧ ((queued u).chip u).den.dead = false ∧ calmG (queued .garja).gj = true ∧ calmE (queued .elzel).ez = true := by
  decide +kernel

/-- A NOP on a port, whole in one flit; and a REPLY with tree tag 3 * 4096 + 7. -/
def nopOn : Mgmt := { len := 1, cls := 4, level := 0, src := 99, dst := 1234, tag := 555, routed := false, up := false, lvl := 1 }
def onPort (u : Part) (p : Nat) (pkt : Pkt) : State :=
  match u with
  | .garja => gw (fun c => { c.wr GJ.SL_STATUS_STATE 5 p with links := upd c.links p (fun l => { l with rx := { l.rx with mgmt := [pkt] } }) }) cmdSt
  | .elzel => ew (fun c => { c.wr EZ.SL_STATUS_STATE 5 p with links := upd c.links p (fun l => { l with rx := { l.rx with mgmt := [pkt] } }) }) cmdSt
theorem witness_cmd : ∀ a ∈ [(Part.garja, 1), (.elzel, 63)], let pkt := nopOn.flit :: [cmdW0 1 1 555 0 ++ (0 : Word)]
    let s := onPort a.1 a.2 pkt
    servesB s a.1 = true ∧ (s.chip a.1).rd (PT.CMD_CAP_LVL_MIN a.1) = 1 ∧ (s.chip a.1).rd (PT.CMD_CAP_LVL_MAX a.1) = 1 ∧ a.2 < (s.chip a.1).nPorts ∧ (s.chip a.1).up a.2 = true
      ∧ ((s.chip a.1).link a.2).rx.mgmt = [pkt] := by decide +kernel
theorem witness_cmd_up : ∀ role ∈ [1, 3], let pkt := ({ nopOn with routed := true, up := true, level := 2 } : Mgmt).flit :: [cmdW0 1 1 555 0 ++ (0 : Word)]
    let e := (ew (fun c => (c.wr EZ.ROLE_DEPTH 3).wr EZ.ROLE_ROLE role) (onPort .elzel 63 pkt)).ez
    e.c.clocked = true ∧ calmE e = true ∧ e.c.up 63 = true ∧ e.c.typeAllowed 63 6 = true ∧ bits (pkt.headD 0) 127 124 = 6 ∧ (e.c.link 63).rx.at .mgmt = [pkt]
      ∧ (mgmtOf (pkt.headD 0)).routed = true ∧ (mgmtOf (pkt.headD 0)).cls = 4 ∧ (mgmtOf (pkt.headD 0)).up = true ∧ (mgmtOf (pkt.headD 0)).level ≠ e.c.rd EZ.ROLE_ROLE
      ∧ e.c.isRoot = decide (role = 3) := by decide +kernel
def treeTag : PoolEnt := { idx := 7, wrap := 3, lvl := 1, op := 0x21, at_ := 10, tmo := 100, why := .submit (ord .elzel) }
theorem witness_reply : let pkt := ({ nopOn with cls := 5, tag := 4096 * 3 + 7 } : Mgmt).flit :: [w64 (put 25 18 6) ++ w64 (put 63 48 3 + put 47 32 9 + 77)]
    let s := onPort .elzel 63 pkt
    let e := { s.ez with c := { s.ez.c with cmd := { open_ := [ord .elzel] } }, mgr := { s.ez.mgr with pool := [treeTag] } }
    e.Calm ∧ e.c.clocked = true ∧ (mgmtOf (pkt.headD 0)).cls = 5 ∧ (mgmtOf (pkt.headD 0)).routed = false ∧ e.mgr.pool = [treeTag] ∧ treeTag.idx = (mgmtOf (pkt.headD 0)).tag % 4096
      ∧ treeTag.wrap = (mgmtOf (pkt.headD 0)).tag / 4096 ∧ e.c.flag EZ.QP_CFG_EN 1023 = true ∧ e.c.cmd = { open_ := [ord .elzel] } ∧ treeTag.at_ + treeTag.tmo * 1000 ≤ e.c.now :=
  ⟨calm_ez _ (by decide +kernel), by decide +kernel⟩

/-! ### Witnesses: jobs and Elzel's own commands (13, 14, 17, 18) -/

/-- The domain-A root as planner, with plans, and the image of a plan of job 4095 at 0x1000 of host memory. -/
def planner (plans : Elzel → List Plan) (f : Elzel → Elzel := id) : State :=
  let e := { cmdSt.ez with c := (cmdSt.ez.c.wr EZ.ROLE_PREFIX 0x2A000).wr EZ.STG_CFG_LEAD 250 }
  let e := f { e with mgr := { e.mgr with plans := plans e } }
  { cmdSt with ez := e, hostMem := memWriteWords [] 0x1000 [e.ownHdr 1, 0, (anchorEntry 4095 77).w0, (anchorEntry 4095 77).w1, 77] }
def jobPlan (e : Elzel) : Plan :=
  { job := 4095, ctx := 3, change := 5, fp := 6, blocks := [{ hdr := e.ownHdr 1, scopeKind := 2, scope := 4095, entries := [anchorEntry 4095 77] }] }
def plansB (s : State) (plans : List Plan) : Bool :=
  let e := s.ez
  (takesB s .elzel && decide (e.c.rd EZ.ROLE_ROLE = 3) && decide (e.c.rd EZ.ROLE_DOMAIN = 0) && (List.range 16).all (fun k => e.c.rd EZ.STG_S_W0_STATE k == 0) && decide (e.mgr.plans = plans)
    && plans.all (fun p => p.endAt.isNone) && decide (e.mgr.ramps = []) && decide (e.mgr.pool = []))
  && (decide (e.mgr.hlt.admits = []) && decide (e.c.flag EZ.JRNL_CTL_EN = false) && decide (250 ≤ e.c.rd EZ.STG_CFG_LEAD) && decide (e.c.applying = false) && decide (e.cmb.replays = [])
    && (List.range 64).all (fun k => !e.c.flag EZ.HLT_OWL_W0_VALID k) && (List.range 64).all (fun k => !e.c.flag EZ.HLT_SPARE_RESERVED k))
theorem plans_of {s : State} {plans : List Plan} (h : plansB s plans = true) : s.Plans (ord .elzel) plans := by
  simp only [plansB, Bool.and_eq_true, decide_eq_true_eq, List.all_eq_true, Option.isNone_iff_eq_none, List.mem_range, beq_iff_eq, Bool.not_eq_true'] at h
  obtain ⟨⟨⟨⟨⟨⟨⟨⟨a, b⟩, c⟩, d⟩, e⟩, f⟩, g⟩, i⟩, ⟨⟨⟨⟨⟨j, k⟩, m⟩, n⟩, o⟩, p⟩, q⟩ := h
  exact ⟨takes_of a, b, c, d, e, f, g, i, j, k, m, n, o, p, q⟩
def withPlan (f : Elzel → Elzel := id) : State := planner (fun e => [jobPlan e]) f
theorem witness_job_submit : (planner (fun _ => [])).Plans (ord .elzel) [] ∧ (let s := planner (fun _ => [])
      s.ez.c.stage = List.replicate 16 {} ∧ memReadWord s.hostMem 0x1000 = s.ez.ownHdr 1 ∧ memReadWord s.hostMem 0x1008 = 0 ∧ memReadWord s.hostMem 0x1010 = (anchorEntry 4095 77).w0
        ∧ memReadWord s.hostMem 0x1018 = w64 (2 ^ 64 - 1) ∧ memReadWord s.hostMem 0x1020 = 77 ∧ s.ez.c.gtInt + s.ez.c.rd EZ.STG_CFG_LEAD * 1000 < 2 ^ 64) :=
  ⟨plans_of (by decide +kernel), by decide +kernel⟩
theorem witness_job_change : let s := withPlan (fun e => { e with c := (e.c.wr EZ.LNC_JOB_W0_PERIOD 777 4095).wr EZ.LNC_JOB_W1_ANCHOR 1000 4095 })
    s.Plans (ord .elzel) [jobPlan s.ez] ∧ s.ez.c.rd EZ.LNC_JOB_W0_PERIOD 4095 ≠ 0 ∧ s.ez.c.rd EZ.LNC_JOB_W1_ANCHOR 4095 < s.ez.c.gtInt + s.ez.c.rd EZ.STG_CFG_LEAD * 1000
      ∧ s.ez.c.flag EZ.CMB_JOB_W0_VALID 4095 = false ∧ (jobPlan s.ez).waitLvl = 0 ∧ (jobPlan s.ez).domain = 0 := ⟨plans_of (by decide +kernel), by decide +kernel⟩
theorem witness_move_and_rollback : let s := withPlan (fun e => { e with c := (e.c.wr EZ.CMB_JOB_W0_VALID 1 4095).wr EZ.CMB_JOB_W2_REL_THRU 40 4095 })
    s.Plans (ord .elzel) [jobPlan s.ez] ∧ s.ez.c.jobs = [4095] ∧ s.ez.c.fresh.contains 4095 = false ∧ s.ez.c.rd EZ.CMB_JOB_W2_REL_THRU 4095 = 40 := ⟨plans_of (by decide +kernel), by decide +kernel⟩
theorem witness_rollback : let s := withPlan (fun e => { e with c := (e.c.wr EZ.JRNL_REG_W0_SIZE 1 0).wr EZ.JRNL_REG_W0_SIZE 1 1, mgr := { e.mgr with hlt := { e.mgr.hlt with
        snaps := [⟨4095, 100, 0, 0, 0, 0⟩, ⟨4095, 50, 0, 0, 0, 0⟩] } } })
    s.Plans (ord .elzel) [jobPlan s.ez] ∧ s.ez.c.rd EZ.JRNL_REG_W0_SIZE 0 ≠ 0 ∧ s.ez.c.rd EZ.JRNL_REG_W0_SIZE 1 ≠ 0 ∧ (∃ r ∈ s.ez.mgr.hlt.snaps, r.job = 4095 ∧ r.step = 50)
      ∧ (∀ r ∈ s.ez.mgr.hlt.snaps, r.job = 4095 → r.step ≤ 50 ∨ 99 < r.step) := ⟨plans_of (by decide +kernel), by decide +kernel⟩
theorem witness_commit_lead : let part : StagePart := { hdr := 0x1234, scopeKind := 0, scope := 0, entries := [], phase := 1 }
    let k : Coord := { change := 0xFFFFFFFF, parts := [part], t := 123456789 + 5000, order := some (ord .elzel), op := 0x30 }
    let e := (ew (fun c => { c.wr EZ.STG_CFG_COMMIT_LEAD 5 with cmd := { open_ := [ord .elzel] } }) cmdSt).ez
    let e := { e with mgr := { e.mgr with coords := [k] } }
    { e with mgr := { e.mgr with coords := [] } }.Calm ∧ k.decided = none ∧ k.probing = false ∧ k.fin = .own 0 ∧ e.c.flag EZ.QP_CFG_EN 1023 = true ∧ e.c.cmd = { open_ := [ord .elzel] }
      ∧ e.c.flag EZ.JRNL_CTL_EN = false ∧ k.t ≤ e.c.gtInt + e.c.rd EZ.STG_CFG_COMMIT_LEAD * 1000 := ⟨calm_ez _ (by decide +kernel), by decide +kernel⟩
theorem witness_move_wait : let b : StagePart := { hdr := w64 (put 59 42 555 + 1), scopeKind := 1, scope := 3, entries := [anchorEntry 1 1] }
    let p : Plan := { job := 4095, ctx := 3, change := 5, blocks := [b] }
    let e := (ew (fun c => { (((c.wr EZ.BIND_REPORTED 555 63).wr EZ.DOM_CTL_AUTO 1).wr EZ.DOM_CTL_MOVE_WAIT 100) with
      links := upd c.links 63 (fun l => { l with outSince := some 4900000 }) }) cmdSt).ez
    let e := { e with mgr := { e.mgr with plans := [p], sums := [(66, [⟨555, 1, false⟩])] } }
    e.Calm ∧ p.domain = 0 ∧ p.moved = false ∧ bit b.hdr 63 = false ∧ bits b.hdr 59 42 = 555 ∧ e.c.rd EZ.ROLE_ROLE = 3 ∧ e.c.rd EZ.ROLE_DEPTH = 1 ∧ e.c.rd EZ.ROLE_DOMAIN = 0 ∧ e.mgr.pool = []
      ∧ (∀ r, r < 64 → (e.c.rd EZ.BIND_REPORTED r = 555 ↔ r = 63)) ∧ (e.c.link 63).outSince = some 4900000 ∧ e.c.flag EZ.DOM_CTL_AUTO = true
      ∧ 4900000 + e.c.rd EZ.DOM_CTL_MOVE_WAIT * 1000 ≤ e.c.now := ⟨calm_ez _ (by decide +kernel), by decide +kernel⟩

/-- A descriptor of a frame of some bytes, in the last frame buffer. -/
def frameOf (len : Nat) : Word := w64 (put 29 18 len + put 17 12 63)
theorem witness_frames : (∀ len ∈ [63, 64, 1522, 1523], bits (frameOf len) 29 18 = len ∧ bits (frameOf len) 11 0 = 0)
    ∧ (∀ n ∈ [31, 32], let e := cmdSt.ez.onPtp 1 (fun x => { x with txq := List.replicate n ⟨0, 0⟩ }); (e.port 1).txq.length + (if (e.port 1).head = .none_ then 0 else 1) = n) := by decide +kernel
theorem witness_health_read : let c := cmdSt.ez.c.set (EZ.HLT_DIE_W0 + 0x20 * 63) (w64 (2 ^ 60 + put 59 42 9))
    c.flag EZ.HLT_DIE_W0_VALID 63 = true ∧ c.rd EZ.HLT_DIE_W0_CHIP 63 = 9 ∧ (∀ q, q < 63 → c.flag EZ.HLT_DIE_W0_VALID q = false)
      ∧ ∀ p, p < 64 → c.flag EZ.HLT_DIE_W0_VALID p = false ∨ c.rd EZ.HLT_DIE_W0_CHIP p ≠ 10 := by decide +kernel
def subject : Plan := { job := 4095, ctx := 3, change := 5, blocks := [{ hdr := w64 (put 59 42 11 + 1), scopeKind := 1, scope := 3, entries := [anchorEntry 1 1] }] }
theorem witness_owl_pair : let s := planner (fun _ => [subject]) (fun e => { e with c := (e.c.wr EZ.HLT_SPARE_VALID 1 63).wr EZ.HLT_SPARE_CHIP 12 63 })
    let c := s.ez.c
    s.Plans (ord .elzel) [subject] ∧ c.flag EZ.ROLE_DOMAIN = false ∧ (c.flag EZ.HLT_SPARE_VALID 63 = true ∧ c.flag EZ.HLT_SPARE_TRIAL 63 = false ∧ c.flag EZ.HLT_SPARE_INUSE 63 = false
      ∧ c.flag EZ.HLT_SPARE_RESERVED 63 = false) ∧ c.rd EZ.HLT_SPARE_CHIP 63 = 12 ∧ (∀ i, i < 63 → c.flag EZ.HLT_SPARE_VALID i = false) ∧ c.rd EZ.HLT_OWL_W0_OUTCOME 0 ≠ 5
      ∧ (∃ x ∈ subject.blocks, bit x.hdr 63 = false ∧ bits x.hdr 59 42 = 11) ∧ (∀ x ∈ subject.blocks, ¬ (bit x.hdr 63 = false ∧ bits x.hdr 59 42 = 13))
      ∧ (ew (·.wr EZ.ROLE_ROLE 2) cmdSt).ez.c.rd EZ.ROLE_ROLE ≠ 3 := ⟨plans_of (by decide +kernel), by decide +kernel⟩
theorem witness_journal_copy : let e : Elzel := { cmdSt.ez with hbmBad := [2 ^ 25 + 1], c := cmdSt.ez.c.wr EZ.JRNL_REG_W0_SIZE 1 4 |>.wr EZ.JRNL_REG_W0_BASE 1 4 }
    let bad := fun (i : Nat) => e.hbmBad.contains ((e.c.rd EZ.JRNL_REG_W0_BASE 4 * 2 ^ 30 + i % (e.c.rd EZ.JRNL_REG_W0_SIZE 4 * 2 ^ 30)) / 32)
    e.c.rd EZ.JRNL_REG_W0_SIZE 4 * 2 ^ 30 ≠ 0 ∧ (∀ i, i < 32 → bad i = false) ∧ bad 32 = true := by decide +kernel
theorem witness_capsule_read : let r : CapRec := { own := false, chip := 9, seq := 1, off := 64, len := 128 }
    (∀ r ∈ cmdSt.ez.mgr.caps, r.own = false) ∧ (∀ p, p < 64 → cmdSt.ez.c.flag EZ.BIND_VALID p = false)
      ∧ ({ cmdSt.ez with mgr := { cmdSt.ez.mgr with caps := [r] } } : Elzel).mgr.caps = r :: [] ∧ r.own = false := by decide +kernel

/-! ### Witnesses: health, spare maps, Elzmon (18, 20, 21) -/

def die (a : Nat) : StagePart := { hdr := w64 (put 59 42 a + 1), scopeKind := 1, scope := 3, entries := [] }
def threeDies : Plan := { job := 4095, ctx := 3, change := 5, blocks := [die 1, die 2, die 3] }
def tallyOf (k : Nat) : TallyRec := { leaf := 0x2A000, job := 4095, step := 100, counts := [(5, BitVec.ofNat 19 k)] }
theorem witness_tally : let e := (planner (fun _ => [threeDies])).ez
    e.Calm ∧ e.c.rd EZ.ROLE_ROLE = 3 ∧ e.c.flag EZ.ROLE_DOMAIN = false ∧ e.mgr.hlt.tallies = [] ∧ e.c.jrnl = [] ∧ e.mgr.plans = [threeDies] ∧ e.c.rd EZ.ROLE_DEPTH = 1
      ∧ (tallyOf 1).leaf.toNat = e.c.rd EZ.ROLE_PREFIX ∧ (threeDies.blocks.filter (fun b => !bit b.hdr 63)).length = 3 := ⟨calm_ez _ (by decide +kernel), by decide +kernel⟩
theorem witness_unattributed : ∀ a ∈ [(9999999, 2, false), (10000000, 2, true), (0, 3, true)], let t : Tally := { job := 4095, step := 100, count := 3, at_ := 20000000 - a.1, leaves := [], counts := [(5, a.2.1)] }
    let e := (planner (fun _ => []) (fun e => { e with c := { e.c with now := 20000000 }, mgr := { e.mgr with hlt := { e.mgr.hlt with tallies := [t] } } })).ez
    calmE e = true ∧ e.mgr.hlt.tallies = [t] ∧ t.done = false ∧ decide (t.count ≤ (t.counts.map (fun x : Word × Nat => x.2)).sum ∨ 10000000 ≤ e.c.now - t.at_) = a.2.2 := by decide +kernel
def refChip : Chip .elzel :=
  let c := cmdSt.ez.c.set EZ.HLT_REF_W0 (w64 (put 63 52 4095 + 100))
  let c := ((c.wr EZ.CMB_JOB_W0_VALID 1 4095).set (EZ.HLT_DIE_W0 + 0x20 * 63) (w64 (2 ^ 60 + put 59 42 9))).wr EZ.BIND_REPORTED 9 63
  let c := (((c.wr EZ.JRNL_REG_W0_SIZE 1 0).wr EZ.CMB_JOB_W0_CTX 3 4095).wr EZ.HLT_LIM_AUTO_OWL 0).set (diesOff 4095 0 63) 1
  let m := memWriteWords [] 0 [w64 (put 61 50 4095 + put 49 32 9), w64 (put 63 16 100), 0, 77]
  { c with jrnl := m }
theorem witness_reference_digest : let c := refChip
    calmE { cmdSt.ez with c := c } = true ∧ c.rd EZ.BOOT_STATUS_STAGE = 4 ∧ c.members 4095 100 = [63] ∧ c.ledgerDigest 4095 100 (c.rd EZ.BIND_REPORTED 63) = some 77
      ∧ c.flag EZ.HLT_DIE_W0_VALID 63 = true ∧ c.rd EZ.HLT_DIE_W1_LAST_STEP 63 ≠ 100 ∧ c.rd EZ.HLT_DIE_W0_STATE 63 ≤ 1
      ∧ min 65535 (c.rd EZ.HLT_DIE_W0_SCORE 63 + c.rd EZ.HLT_WGT_DIG) < c.rd EZ.HLT_CFG_EXPEL := by decide +kernel
theorem witness_checkpoint : ∀ a ∈ [(100, false), (101, true)], let e := (planner (fun _ => [threeDies]) (fun e => { e with
      c := (((e.c.wr EZ.JRNL_REG_W0_SIZE 0 2).wr EZ.CMB_JOB_W0_VALID 1 4095).wr EZ.CMB_JOB_W2_REL_THRU 99 4095).set EZ.JRNL_CKPT_W0 (w64 (put 63 52 4095 + a.1)) })).ez
    calmE e = true ∧ e.mgr.plans = [threeDies] ∧ bits (e.c.get EZ.JRNL_CKPT_W0) 63 52 = 4095 ∧ decide (e.c.relNext 4095 < bits (e.c.get EZ.JRNL_CKPT_W0) 47 0) = a.2 ∧ threeDies.period = 0
      ∧ e.c.rd EZ.JRNL_REG_W0_SIZE 2 = 0 := by decide +kernel
theorem witness_decay : ∀ sec ∈ ([59, 60] : List Nat), let c : Chip .elzel := { cmdSt.ez.c with htSec := sec }
    c.clocked = true ∧ c.rd EZ.HLT_CFG_DECAY_INT ≠ 0 ∧ decide (c.htSec % c.rd EZ.HLT_CFG_DECAY_INT = 0) = decide (sec = 60) := by decide +kernel

def pairedC (c : Chip .elzel) (now gt : Nat) : Chip .elzel :=
  { ((c.wr EZ.HLT_OWL_W0_VALID 1 63).wr EZ.HLT_OWL_W0_JOB 4095 63) with now := now, gt := gt * 2 ^ 32 }
def paired (p : Pairing) (now gt : Nat) : Elzel :=
  (planner (fun _ => [threeDies]) (fun e =>
    let h : Health := { e.mgr.hlt with pairs := [p] }
    let m : Mgr := { e.mgr with hlt := h }
    { e with c := pairedC e.c now gt, mgr := m })).ez
def pair0 : Pairing := { k := 63, port := 64, t := 1000, since := 1000 }
theorem witness_pairings : ∀ p ∈ [pair0, { pair0 with subj := [(100, 5)] }, { pair0 with begun := true }], let e := paired p (1000 + 2 ^ 20 * 1000000000) 60000001000
    calmE e = true ∧ e.mgr.hlt.pairs = [p] ∧ e.c.rd EZ.ROLE_ROLE = 3 ∧ e.c.flag EZ.ROLE_DOMAIN = false ∧ e.c.relThru (e.c.rd EZ.HLT_OWL_W0_JOB 63) ≤ 100 + 1000000 ∧ e.c.flag EZ.HLT_OWL_W0_VALID 63 = true
      ∧ (∀ q, q < 64 → e.c.flag EZ.HLT_DIE_W0_VALID q = false) ∧ e.c.rd EZ.HLT_OWL_W1_MIS 63 + 1 < e.c.rd EZ.HLT_LIM_OWL_CONFIRM ∧ e.mgr.hlt.tallies = [] ∧ e.mgr.hlt.wanting = [] ∧ e.mgr.pool = []
      ∧ p.t + 60000000000 ≤ e.c.gtInt ∧ e.c.rd EZ.HLT_LIM_OWL_CLEAR * 1000000000 ≤ e.c.now - p.since ∧ e.c.flag EZ.HLT_OWL_W0_TRIAL 63 = false ∧ e.mgr.plans = [threeDies] := by decide +kernel
theorem witness_spare_trial : let e := (planner (fun _ => []) (fun e => { e with c := ((((e.c.wr EZ.HLT_SPARE_VALID 1 63).wr EZ.HLT_SPARE_TRIAL 1 63).wr EZ.HLT_SPARE_CHIP 9 63).wr EZ.BIND_VALID 1 62).wr EZ.BIND_REPORTED 9 62 })).ez
    e.Calm ∧ e.mgr.pool = [] ∧ e.c.flag EZ.HLT_SPARE_VALID 63 = true ∧ e.c.flag EZ.HLT_SPARE_TRIAL 63 = true ∧ e.c.flag EZ.HLT_SPARE_INUSE 63 = false ∧ e.coordOfChip 10 = none := ⟨calm_ez _ (by decide +kernel), by decide +kernel⟩
theorem witness_spare_repair : let e := (planner (fun _ => []) (fun e => { e with c := ((((((e.c.wr EZ.HLT_SPARE_VALID 1 63).wr EZ.HLT_SPARE_TRIAL 1 63).wr EZ.HLT_SPARE_CHIP 9 63).wr EZ.HLT_DIE_W0_VALID 1 63).wr EZ.HLT_DIE_W0_CHIP 9 63).wr EZ.HLT_DIE_W0_STATE 5 63) })).ez
    e.Calm ∧ e.mgr.pool = [] ∧ e.c.flag EZ.HLT_SPARE_INUSE 63 = false ∧ e.coordOfChip 9 = none ∧ e.c.flag EZ.HLT_DIE_W0_VALID 63 = true ∧ e.c.rd EZ.HLT_DIE_W0_CHIP 63 = 9 ∧ e.c.rd EZ.HLT_DIE_W0_STATE 63 = 5
      ∧ (∀ i, i < 63 → e.c.flag EZ.HLT_DIE_W0_VALID i = false) := ⟨calm_ez _ (by decide +kernel), by decide +kernel⟩
theorem witness_spare_map : let used : Garja := { s0.gj with so := { s0.gj.so with results := [(5, w64 (2 ^ 55))] } }
    s0.gj.smap = none ∧ (∀ t ∈ [4095], bit (sparseGet s0.gj.so.results t) 55 = false ∧ ∀ w ∈ s0.gj.so.waiters, w.slot ≠ t) ∧ ¬ (∀ t ∈ [5], bit (sparseGet used.so.results t) 55 = false)
      ∧ (∀ taken, ({ s0.gj with smap := some { tiles := [4095], used := 3, taken := taken } } : Garja).smap = some { tiles := [4095], used := 3, taken := taken }) ∧ 128 < (List.replicate 129 (0 : BitVec 12)).length := by
  decide +kernel

def below0 : MonTarget := { own := false, level := 2, coord := 0x3F045 }
theorem witness_elzmon : (∀ w ∈ [0, 1], let e := (ew (·.wr EZ.MON_CTL_WRITE_EN w) cmdSt).ez
      calmE e = true ∧ e.c.rd EZ.BOOT_STATUS_STAGE = 4 ∧ e.c.den.run = none ∧ e.mon = none ∧ e.mgr.pool = [] ∧ e.c.flag EZ.MON_CTL_WRITE_EN = decide (w = 1) ∧ e.c.rd EZ.ROLE_ROLE = 3 ∧ e.fw = none
        ∧ (∀ j, j < 16 → e.c.rd EZ.STG_S_W0_STATE j = 0) ∧ ∀ p, p < 68 → e.c.rd EZ.SL_STATUS_STATE p ≠ 5)
    ∧ below0.own = false ∧ below0.level.toNat < 3 ∧ img0.digestOk = true ∧ img0.sigOk = true
    ∧ (∀ n ∈ [6, 16], let c := cmdSt.ez.c.wr EZ.EVT_RING_CFG_LOG2N n 0; c.rd EZ.EVT_RING_CFG_LOG2N 0 = n)
    ∧ (let m := memWriteWord [] (64 * 63) (w64 (put 63 54 (EV.EPOCH_MARK .elzel))); bits (memReadWord m (64 * ((64 + 2 ^ 32 - 1) % 2 ^ 32 % 2 ^ 6))) 63 54 = EV.EPOCH_MARK .elzel) := by decide +kernel
def ask : Mgmt := { len := 1, cls := 6, routed := true, up := false, level := 2, dst := 0x2A000, src := 0x30000, tag := 0xBEEF, lvl := 1 }
def asked (op win off : Nat) : Flit := f128 (put 127 124 op + put 123 122 win + put 95 64 off)
theorem witness_debug_elzel : ∀ a ∈ [(3, { ask with routed := false }), (3, ask), (64, ask), (3, { ask with up := true, level := 3 })], ∀ x ∈ [(0, 0, 8), (1, 0, EZ.LNC_CTL), (1, 3, 8)], let pkt := a.2.flit :: [asked x.1 x.2.1 x.2.2]
    let e := (ew (fun c => { (((c.wr EZ.ROLE_ROLE 2).wr EZ.ROLE_DEPTH 3).wr EZ.ROLE_PREFIX 0x2A000).wr EZ.SL_STATUS_STATE 5 a.1 with links := upd c.links a.1 (fun l => { l with rx := { l.rx with mgmt := [pkt] } }) }) cmdSt).ez
    e.c.up a.1 = true ∧ e.c.typeAllowed a.1 6 = true ∧ bits (pkt.headD 0) 127 124 = 6 ∧ (e.c.link a.1).rx.at .mgmt = [pkt] ∧ (mgmtOf (pkt.headD 0)).cls = 6 ∧ (mgmtOf (pkt.headD 0)).routed = a.2.routed
      ∧ (mgmtOf (pkt.headD 0)).up = a.2.up ∧ e.c.uplink = 64 ∧ (mgmtOf (pkt.headD 0)).dst = e.c.rd EZ.ROLE_PREFIX ∧ (a.1 = 64 → (mgmtOf (pkt.headD 0)).level = e.c.rd EZ.ROLE_ROLE) := by decide +kernel
theorem witness_debug_reply : let x : MonRun := { tag := 0xBEEF, at_ := 0, dest := { port := 3, routed := true, level := 1, dst := 5 }, cur := { write := false, win := 0, off := 8 }, rest := [], got := [] }
    ({ cmdSt.ez with mon := some x } : Elzel).mon = some x ∧ x.tag = (mgmtOf ({ ask with up := true } : Mgmt).flit).tag ∧ x.rest = [] := by decide +kernel
theorem witness_debug_garja : ∀ i ∈ [0, 1], ∀ x ∈ [(0, 8), (1, GJ.SQ_ADDR + 8 * 255)], let pkt := ask.flit :: [asked x.1 0 x.2]
    let g := (gw (fun c => { c.wr GJ.SL_STATUS_STATE 5 i with links := upd c.links i (fun l => { l with rx := { l.rx with mgmt := [pkt] } }) })).gj
    calmG g = true ∧ g.c.den.run = none ∧ g.c.up i = true ∧ bits (pkt.headD 0) 127 124 = 6 ∧ (g.c.link i).rx.mgmt = [pkt] ∧ (mgmtOf (pkt.headD 0)).up = false ∧ (mgmtOf (pkt.headD 0)).routed = true := by
  decide +kernel

/-! ### Witnesses: references, PTP, timed frames and outputs (05, 07) -/

def rS (f : Chip .elzel → Chip .elzel) : State := ew f cmdSt
def jumpsB (c : Chip .elzel) (n : Nat) (off : BitVec 48) (tn td : Nat) : Bool :=
  decide (((off.toInt - c.rdS EZ.REF_SST_OFFSET n) * (td : Int) - c.rdS EZ.CLN_DCO_TRIM * (tn : Int)).natAbs > c.rd EZ.REF_SRC_JUMP_THR n * 65536 * td)
theorem runs_cmd : cmdSt.running .elzel ∧ cmdSt.running .garja := ⟨running_of (by decide +kernel), running_of (by decide +kernel)⟩
theorem witness_ref_update : cmdSt.ez.c.srcState 5 = 0 ∧ (∀ n ∈ [0, 1, 2, 4, 5], ∀ off ∈ [5, 70000000000], let c := (rS (fun c => ((c.wr EZ.REF_SST_STATE 2 n).wr EZ.REF_STATUS_SEL 3).onSource n (fun x => { x with known := true }))).ez.c
    c.srcState n ≠ 0 ∧ c.refSel ≠ n ∧ (c.source n).known = true ∧ jumpsB c n (BitVec.ofNat 48 off) (c.refTau n).1 (c.refTau n).2 = decide (off = 70000000000)) := by decide +kernel
theorem witness_clean_up : ∀ n ∈ [2, 3], let c := (rS (fun c => (((c.wr EZ.REF_SST_STATE 2 n).wr EZ.REF_STATUS_SEL n).wr EZ.REF_STATUS_LOCK 2).wrS EZ.CLN_DCO_TRIM (-500))).ez.c
    c.srcState n = 2 ∧ c.refSel = n ∧ (c.source n).known = false ∧ c.flag EZ.CLN_CTL_OPEN = false ∧ c.refLock = 2 ∧ c.refLocal = false ∧ c.flag EZ.TS_STATUS_LATCHED = false
      ∧ (1200 : Int).natAbs * 1000 ≤ c.rd EZ.CLN_CTL_LOCK_THR * 65536 ∧ c.rd EZ.CLN_CTL_LOCK_THR ≤ c.rd EZ.CLN_CTL_UNLOCK_THR := by decide +kernel
theorem witness_qualify : ∀ dt ∈ [0, 1], let c := (rS (fun c =>
      { ((c.wr EZ.REF_SST_STATE 1 5).onSource 5 (fun x => { x with healthySince := some 100 })) with now := 99 + dt + c.rd EZ.REF_SRC_QUAL_TIME 5 * 1000000 })).ez.c
    c.srcState 5 = 1 ∧ (c.source 5).healthySince = some 100 ∧ decide (100 + c.rd EZ.REF_SRC_QUAL_TIME 5 * 1000000 ≤ c.now) = decide (dt = 1) := by decide +kernel
theorem witness_refs : (∀ h ∈ [5000000, 5000001], let c := (rS (fun c => (c.wr EZ.REF_SST_STATE 3 5).onSource 5 (fun x => { x with holdoffEnd := h }))).ez.c
      c.srcState 5 = 3 ∧ (c.source 5).holdoffEnd = h ∧ c.now = 5000000)
    ∧ (∀ a ∈ [(0, 5), (1, 4), (1, 5)], let c := (rS (fun c => { ((((c.wr EZ.REF_CTL_REVERT a.1).wr EZ.REF_STATUS_SEL 3).wr EZ.REF_STATUS_LOCK 2)) with
          now := 95 + a.2 + c.rd EZ.REF_CTL_WTR * 1000000000, ref := { c.ref with better := some (5, 100) } })).ez.c
        c.ref.better = some (5, 100) ∧ c.refSel = 3 ∧ c.isRoot = true ∧ c.refLock = 2 ∧ 100 ≤ c.now
          ∧ decide (c.flag EZ.REF_CTL_REVERT = true ∧ c.rd EZ.REF_CTL_WTR * 1000000000 ≤ c.now - 100) = decide (a = (1, 5)))
    ∧ (∀ st ∈ [0, 1, 2, 3, 4], let c := (rS (·.wr EZ.REF_SST_STATE st 5)).ez.c; (c.srcState 5 = 2 ∨ c.srcState 5 = 4) ↔ (st = 2 ∨ st = 4))
    ∧ (∀ o ∈ [0, 1], (rS (·.wr EZ.CLN_CTL_OPEN o)).ez.c.flag EZ.CLN_CTL_OPEN = decide (o = 1))
    ∧ (∀ l ∈ [1, 2, 3], let c := (rS (fun c => (c.wr EZ.REF_STATUS_LOCK l).wr EZ.REF_STATUS_SEL 2)).ez.c; c.refLock = l ∧ c.refSel ≠ 7)
    ∧ (BitVec.ofInt 32 (-100)).toInt.natAbs ≤ 100 ∧ 100 < (BitVec.ofInt 32 (-101)).toInt.natAbs ∧ cmdSt.ez.c.ref.ocxoBad = false
    ∧ (∀ t ∈ [86399999999999, 86400000000000], let c := (rS (fun c => { (c.wr EZ.REF_STATUS_SPEC 1).wr EZ.REF_STATUS_LOCK 3 with now := t })).ez.c
        c.flag EZ.REF_STATUS_SPEC = true ∧ c.refLock = 3 ∧ decide (86400 * 1000000000 ≤ c.now - c.ref.holdSince) = decide (t = 86400000000000)) := by decide +kernel
def seenAt (k : Nat) (t : Option Nat) (c : Chip .elzel) : Chip .elzel := c.onSource k (fun x => { x with healthySince := t })
theorem witness_selector : ∀ k ∈ [2, 3], let o : SrcObs := { present := true, tenMHz := true, near10 := true, freqPpb := BitVec.ofInt 32 (-2000) }
    let base := fun (c : Chip .elzel) => c.isRoot = true ∧ c.flag EZ.ROLE_DOMAIN = false ∧ (c.up 66 = false ∧ c.up 67 = false) ∧ ∀ n, n < 6 → n ≠ k → c.srcState n = 0
    (o.present = true ∧ o.tenMHz = true ∧ o.near10 = true)
    ∧ (let c := (rS (fun c => c.wr EZ.REF_STATUS_SEL 7)).ez.c
       base c ∧ o.freqPpb.toInt.natAbs ≤ (if 2 ≤ c.refLock then c.rd EZ.REF_SRC_FREQ_LIM k else 2000) ∧ c.srcState k = 0 ∧ (c.source k).healthySince = none ∧ c.refSel = 7 ∧ c.refLock = 0)
    ∧ (let c := (rS (fun c => seenAt k (some 77) (((c.set EZ.REF_PRIO 0).wr EZ.REF_SST_STATE 2 k).wr EZ.REF_STATUS_SEL 7))).ez.c
       base c ∧ c.srcState k = 2 ∧ (c.source k).healthySince = some 77 ∧ c.refSel = 7 ∧ c.refLock = 0 ∧ c.flag EZ.CLN_CTL_OPEN = false ∧ bits (c.get EZ.REF_PRIO) (4 * k + 3) (4 * k) ≠ 15)
    ∧ (let c := (rS (fun c => { ((((c.wr EZ.REF_SST_STATE 2 k).wr EZ.REF_STATUS_SEL k).wr EZ.REF_STATUS_LOCK 2).wr EZ.CLN_CTL_FREEZE 1) with ref := { c.ref with ocxoBad := true } })).ez.c
       base c ∧ c.srcState k = 2 ∧ c.refSel = k ∧ c.refLock = 2 ∧ c.flag EZ.CLN_CTL_FREEZE = true ∧ c.ref.ocxoBad = true) := by decide +kernel

def msg0 : PtpMsg := { kind := .announce, supported := true, sender := 99, prio1 := 1, clockClass := 7, accuracy := 3, variance := 5, prio2 := 6, mpd := 7, stamp := 123456 }
def ptpSt (mode st p2p : Nat) : State := rS (fun c => ((c.wr EZ.PTP_CTL_MODE mode 1).wr EZ.PTP_STATUS_STATE st 1).wr EZ.PTP_CTL_P2P p2p 1)
theorem witness_ptp : cmdSt.ez.c.clocked = true ∧ (∀ mode ∈ [0, 1, 2, 3], ∀ st ∈ [4, 8, 9], ∀ p2p ∈ [0, 1], let e := (ptpSt mode st p2p).ez
      e.c.clocked = true ∧ e.c.rd EZ.PTP_CTL_MODE 1 = mode ∧ e.c.rd EZ.PTP_STATUS_STATE 1 = st ∧ e.c.flag EZ.PTP_CTL_P2P 1 = decide (p2p = 1) ∧ (e.port 1).masters = [] ∧ (e.port 1).best = none)
    ∧ (∀ k ∈ [PtpKind.announce, .delayReq, .pdelayReq, .management, .signalling], ∀ b ∈ [false, true], let m : PtpMsg := { msg0 with kind := k, supported := b }; m.supported = b ∧ m.kind = k)
    ∧ cmdSt.ez.c.rd EZ.REF_SST_STATE (4 + 1) = 0
    ∧ (∀ dt ∈ [0, 1], let e := ({ (ptpSt 1 9 1).ez with c := { ((ptpSt 1 9 1).ez.c.wr EZ.PTP_CTL_LOG_ANN 4 1).wr EZ.PTP_CTL_ANN_TO 7 1 with now := 99 + dt + 7 * 16 * 1000000000 } } : Elzel).onPtp 1 (fun x => { x with masters := [⟨msg0, 100⟩] })
        (e.port 1).masters = [⟨msg0, 100⟩] ∧ e.c.rd EZ.PTP_CTL_MODE 1 = 1 ∧ e.c.rd EZ.PTP_CTL_ANN_TO 1 = 7 ∧ e.c.rd EZ.PTP_CTL_LOG_ANN 1 = 4 ∧ decide (7 * 2 ^ 4 * 1000000000 ≤ e.c.now - 100) = decide (dt = 1)) := by
  decide +kernel

/-- A descriptor of 1,522 bytes in the last frame buffer, for 5 s and some nanoseconds. -/
def dsc (timed lateSend ns : Nat) : TxDesc :=
  ⟨w64 (put 63 16 5 + 4321), w64 (put 63 34 ns + put 33 33 timed + put 32 32 lateSend + put 31 31 1 + put 29 18 1522 + put 17 12 63)⟩
def frameSt (f : PtpPort → PtpPort) : Elzel := { (rS (fun c => { c with htSec := 5, htNs := 1000, htFrac := 0 })).ez with c := (rS (fun c => { c with htSec := 5, htNs := 1000, htFrac := 0 })).ez.c }.onPtp 1 f
def dueAt (d : TxDesc) : Nat := (bits d.d0 63 16 * 1000000000 + bits d.d1 63 34) * 2 ^ 32 * 100
def stamp0 : TxStamp := ⟨1, 2, 0⟩
theorem witness_timed_frames : (∀ n ∈ [31, 32], ((frameSt (fun x => { x with txq := List.replicate n (dsc 0 0 0) })).port 1).txq.length = n)
    ∧ (∀ timed ∈ [0, 1], ∀ late ∈ [0, 1], ∀ ns ∈ [1001, 1003], let d := dsc timed late ns; let e := frameSt (fun x => { x with txq := [d, d] })
        (e.port 1).head = .none_ ∧ (e.port 1).txq = d :: [d] ∧ bit d.d1 33 = decide (timed = 1) ∧ bit d.d1 32 = decide (late = 1)
          ∧ decide (dueAt d < e.c.ht * 100 + 256 * 2 ^ 32) = decide (ns = 1001))
    ∧ (let e := frameSt (fun x => { x with head := .waiting (dsc 1 0 1001) }); (e.port 1).head = .waiting (dsc 1 0 1001))
    ∧ (let d := dsc 1 0 1001; let e := frameSt (fun x => { x with head := .sending d true }); (e.port 1).head = .sending d true ∧ bit d.d1 30 = false ∧ 64 ≤ bits d.d1 29 18 ∧ bits d.d1 29 18 ≤ 1522
        ∧ bit d.d1 31 = true)
    ∧ (∀ n ∈ [1, 64], let e := frameSt (fun x => { x with tsq := List.replicate n stamp0 }); (e.port 1).tsq.length = n ∧ ((frameSt id).port 1).tsq = [])
    ∧ (∀ now ∈ [2 ^ 39 - 1, 2 ^ 39], let e : Elzel := { frameSt (fun x => { x with tsq := [stamp0] }) with c := { cmdSt.ez.c with now := now } }
        (e.port 1).tsq = stamp0 :: [] ∧ decide (2 ^ 39 ≤ e.c.now - stamp0.at_) = decide (now = 2 ^ 39)) := by decide +kernel

theorem witness_outputs : (∀ en ∈ [0, 1], ∀ sq ∈ [0, 1], let c := (rS (fun c => ((c.wr EZ.PPS_CTL_PPS_EN en).wr EZ.PPS_CTL_SQUELCH sq).wr EZ.PPS_CTL_WIDTH 999999)).ez.c
      c.clocked = true ∧ c.flag EZ.PPS_CTL_PPS_EN = decide (en = 1) ∧ c.flag EZ.PPS_CTL_SQUELCH = decide (sq = 1) ∧ c.calLock < 2 ∧ c.rd EZ.PPS_CTL_WIDTH = 999999)
    ∧ (∀ t ∈ [4000000, 4000001], let o : Outputs := { cmdSt.ez.out with lastPps := some (t, 5) }; o.lastPps = some (t, 5) ∧ decide (cmdSt.ez.c.now - t < 1000000) = decide (t = 4000001))
    ∧ (∀ t ∈ [5000000, 5000001], let e : Elzel := { (rS (fun c => (c.wr EZ.SPULSE_CTL_EN 1).wr EZ.SPULSE_CTL_MAXADJ 1)).ez with out := { cmdSt.ez.out with spNext := t, spPeriod := 100, spAlign := true } }
        e.c.flag EZ.SPULSE_CTL_EN = true ∧ decide (e.out.spNext ≤ e.c.now) = decide (t = 5000000) ∧ 100 ≤ e.out.spPeriod ∧ 1 ≤ e.c.rd EZ.SPULSE_CTL_MAXADJ)
    ∧ (let data := w64 (2 ^ 63 + put 47 16 100); bits data 47 16 = 100 ∧ bit data 63 = true ∧ cmdSt.ez.c.flag EZ.SPULSE_CTL_EN = false
        ∧ (123457800 % 100 = (cmdSt.ez.c.get EZ.SPULSE_ANCHOR).toNat % 100 ∧ cmdSt.ez.c.gtInt + 1000 ≤ 123457800 ∧ 123457800 < cmdSt.ez.c.gtInt + 1000 + 100))
    ∧ (∀ r ∈ [0, 3], ∀ l ∈ [0, 2], ∀ m ∈ [0, 1], let c := (rS (fun c => ((c.wr EZ.ROLE_ROLE r).wr EZ.REF_STATUS_LOCK l).wr EZ.EPOCH_CTL_MODE m)).ez.c
        c.isRoot = decide (r = 3) ∧ c.flag EZ.ROLE_DOMAIN = false ∧ c.refLock = l ∧ c.flag EZ.EPOCH_CTL_MODE = decide (m = 1) ∧ c.anyJob = false)
    ∧ (rS (·.wr EZ.CMB_JOB_W0_VALID 1 4095)).ez.c.anyJob = true := by decide +kernel

/-! ### Witnesses: events, rings and interrupts (16) -/

theorem witness_events : (∀ typ ∈ [0x20, 0x11F, 0x200, 0x21F], ∀ a ∈ [(2 ^ 63 + 2 ^ 47, 1), (2 ^ 63, 0), (0, 0)],
      let o := if 0x200 ≤ typ then 0xE900 + 8 * (typ - 0x200) else 0xE000 + 8 * (typ - 0x20)
      let c := (gw (fun c => (((c.set o (w64 a.1)).wr GJ.EVT_RING_CFG_EN 1 15).wr GJ.EVT_CTXRING_EN a.2 255).wr GJ.EVT_CTXRING_RING 15 255)).gj.c
      let rt := c.get o
      c.pw.st = .run ∧ bit rt 46 = false ∧ c.ev.queue.length < 256 ∧ decide (bit rt 47 = true ∧ c.flag GJ.EVT_CTXRING_EN 255 = true) = decide (a.2 = 1)
        ∧ c.flag GJ.EVT_RING_CFG_EN (c.rd GJ.EVT_CTXRING_RING 255) = true
        ∧ (List.range 16).filter (fun r => bit rt (48 + r) && c.flag GJ.EVT_RING_CFG_EN r) = if a.1 = 0 then [] else [15])
    ∧ ∀ en ∈ [0, 1], let c := (rS (fun c => (((c.wr EZ.EVT_ROUTE_RING_EN en 1023).wr EZ.EVT_ROUTE_RING 63 1023).wr EZ.EVT_ROUTE_JRNL 0 1023).wr EZ.EVT_RING_CFG_EN en 63)).ez.c
      c.isRoot = true ∧ c.flag EZ.EVT_ROUTE_JRNL 1023 = false ∧ c.ev.queue.length < 4096 ∧ c.flag EZ.EVT_ROUTE_RING_EN 1023 = decide (en = 1) ∧ c.flag EZ.EVT_RING_CFG_EN 63 = decide (en = 1) := by
  decide +kernel

def lastRing : Part → Nat
  | .garja => 15
  | .elzel => 63
def recOf (typ at_ : Nat) (rings : List Nat) : EvRec := { words := s0.gj.c.record typ none none 9 [i8 1], at_ := at_, era := 0, rings := rings }
/-- The last ring of a part, enabled, with its size, indices, and records that wait. -/
def ringSt (u : Part) (st : RingSt) (q : List EvRec) (prod cons en : Nat) (now : Nat := 0) : State :=
  let r := lastRing u
  let f := fun (v : Part) (c : Chip v) =>
    let d : Chip v := ((((c.wr (PT.EVT_RING_CFG_EN v) en r).wr (PT.EVT_RING_CFG_LOG2N v) 6 r).wr (PT.EVT_RING_INDEX_PROD v) prod r).wr (PT.EVT_RING_INDEX_CONS v) cons r)
    ({ d with ev := { c.ev with queue := q, rings := upd c.ev.rings r (fun _ => st) }, now := now } : Chip v)
  match u with
  | .garja => gw (f .garja)
  | .elzel => ew (f .elzel)
theorem witness_rings : ∀ u ∈ [Part.garja, .elzel], let r := lastRing u
    (∀ a ∈ [(64, 0, 1), (63, 0, 1), (62, 0, 1), (61, 0, 1), (2 ^ 32 - 1, 2 ^ 32 - 62, 1), (5, 5, 0)], let s := ringSt u { lost := 1 } [recOf 10 100 [0], recOf 40 100 [r]] a.1 a.2.1 a.2.2
      let c := s.chip u
      c.clocked = true ∧ c.ringOn r = decide (a.2.2 = 1) ∧ c.rd (PT.EVT_RING_CFG_LOG2N u) r = 6 ∧ (c.rd (PT.EVT_RING_INDEX_PROD u) r + 2 ^ 32 - c.rd (PT.EVT_RING_INDEX_CONS u) r) % 2 ^ 32 = (a.1 + 2 ^ 32 - a.2.1) % 2 ^ 32
        ∧ (c.ringSt r).lost = 1 ∧ (c.ringSt r).markFirst = false ∧ c.ev.queue.filter (fun e => e.rings.contains r) = [recOf 40 100 [r]] ∧ c.pw.st = .run)
    ∧ ((ringSt u { markFirst := true, failed := true } [] 5 5 1).chip u).ringSt r = { markFirst := true, failed := true }
    ∧ ((ringSt u { markFirst := true } [] 5 5 1).chip u).ringSt r = { markFirst := true }
    ∧ (∀ now ∈ [100000099, 100000100], let c := (ringSt u {} [recOf 40 100 [r]] 5 5 1 now).chip u; let e := recOf 40 100 [r]
        c.ev.queue = [e] ∧ c.ev.queue.filter (fun e => e.rings.contains r) = [e] ∧ e.rings = [r] ∧ r < c.ev.rings.length ∧ decide (100000000 ≤ c.now - e.at_) = decide (now = 100000100)) := by decide +kernel

/-- Two message sources of one priority, a ring's and a raised one, to one processor. -/
def msgSt (f : Chip .garja → Chip .garja) : State :=
  gw (fun c => f { (((((c.wr GJ.MSG_SRC_EN 1 23).wr GJ.MSG_SRC_PRIO 4 23).wr GJ.MSG_SRC_DEST 1 23).wr GJ.MSG_SRC_EN 1 3).wr GJ.MSG_SRC_PRIO 4 3).wr GJ.EVT_RING_CFG_EN 1 3 with ev := { c.ev with raised := 128 } })
def mayB (c : Chip .garja) (k : Nat) : Bool :=
  c.flag GJ.MSG_SRC_EN k && (if k < 16 then c.flag GJ.EVT_RING_CFG_EN k && c.ringProd k != c.ringCons k else c.ev.raised.testBit (k - 16)) && !c.ev.inSvc.testBit k
    && (match (c.stack (c.rd GJ.MSG_SRC_DEST k)).head? with | some top => decide (top.2 < c.rd GJ.MSG_SRC_PRIO k) | none => true)
theorem witness_messages : (∀ k, k < 24 → mayB (msgSt id).gj.c k = decide (k = 23)) ∧ (∀ k, k < 24 → mayB (msgSt (·.wr GJ.EVT_RING_INDEX_PROD 5 3)).gj.c k = decide (k = 3 ∨ k = 23))
    ∧ (∀ top ∈ [3, 4], let c := (msgSt (fun c => { c with ev := { c.ev with prio := upd c.ev.prio 1 (fun _ => [(2, top)]) } })).gj.c
        ∀ k, k < 24 → mayB c k = decide (top = 3 ∧ k = 23))
    ∧ (let c := (msgSt (fun c => { c with ev := { c.ev with prio := upd c.ev.prio 1 (fun _ => [(17, 3), (2, 1)]), inSvc := 2 ^ 17 + 4 } })).gj.c
       c.stack 1 = (17, 3) :: [(2, 1)] ∧ c.ev.inSvc.testBit 17 = true ∧ (c.stack 0).head? = none) := by decide +kernel
theorem witness_interrupts : (∀ u ∈ [Part.garja, .elzel], ((ringSt u {} [] 5 5 1).chip u).rd (PT.IRQ_PEND_PEND u) = 0)
    ∧ (∀ n ∈ [5, 2 ^ 63 + 5, 2 ^ 63 + 6], let c := (ringSt .elzel {} [] 5 2 1).ez.c; let data := w64 n
        decide (bit data 63 = true ∧ c.flag EZ.EVT_RING_CFG_EN 63 = true ∧ c.rd EZ.EVT_RING_INDEX_PROD 63 ≠ bits data 31 0) = decide (n = 2 ^ 63 + 6)) := by decide +kernel

/-! ### Witnesses: the rest -/

theorem witness_latch : s0.ez.c.clocked = true ∧ cmdSt.Takes .elzel (ord .elzel) := ⟨by decide +kernel, takes_of (by decide +kernel)⟩
theorem witness_owners : cmdSt.gj.Calm ∧ (∀ r ∈ [Requester.tile 0, .host, .proc 2, .proc 7], cmdSt.gj.commands r = false) ∧ (1 < cmdSt.gj.c.prm.nProc ∧ 1 ≠ cmdSt.gj.c.rd GJ.CTX_STATE_OWNER 255) :=
  ⟨calm_gj _ (by decide +kernel), by decide +kernel⟩
theorem witness_canonical : s0.canon = true ∧ (∃ t, step { s0 with pending := [.gtRead] } = .next t) := ⟨by decide +kernel, _, rfl⟩

/-! ### Worked examples of the manual: each expected value is the manual's own -/

def after (i : Instr) (s : State) : State := match exec i s with | .next t => t | _ => s

/-- 03, "calibration and one stamp on a Larder die": width 212, centre 7,897, and the record 0xA001_2A05_F200_7EB1. -/
def larderLine : State := gw (fun c => { ((c.wr GJ.TDC_CTL_EN 1 2).wr GJ.TB_STATUS_LOCK 2).wr GJ.TDC_STATUS_UNCAL 0 2 with
  tdc := upd c.tdc 2 (fun t => { t with tabX := { hits := 405112 :: List.replicate 36 0 ++ [11020], log2n := 20 } }) })
theorem test_calibration_example : binWidth 11020 20 = 212 ∧ binCentre 405112 11020 20 = 7897 := by decide
theorem test_stamp_example :
    (((after (.tdcEdge .garja 2 { code := 37, falling := false, gtN := 5000000000, fracN := 0, ts := 1024, period := 128 }) larderLine).gj.c.tdc[2]?).map (fun t => t.fifo.map (·.1)))
      = some [0xA0012A05F2007EB1] := by decide +kernel

/-- 04, "ranging a Larder die on copper": THETA 0x599A and DELAY 0x000B_03D7. -/
def ranged : State := gw (fun c => { c.wr GJ.SL_STATUS_STATE 5 0 with links := upd c.links 0 (fun l => { l with
  farDepart := 1000000 * 65536, farTick := some ⟨7, 1000011 * 65536 + 22938, false⟩, ownTick := some ⟨9, 1000060 * 65536, false⟩, farAsym := -30 }) })
theorem test_ranging_example :
    let c := (after (.tick .garja 0 (f128 (put 127 124 1 + put 115 108 8 + put 107 100 9 + 2 ^ 99 + put 95 48 (1001000 * 65536) + (1000070 * 65536 + 44564)))
      (BitVec.ofNat 80 (1001011 * 65536)) 0) ranged).gj.c
    c.rdS GJ.SL_OFFSET_THETA 0 = 0x599A ∧ c.rdS GJ.SL_RANGE_DELAY 0 = 0x000B03D7 := by decide +kernel

/-- 02, "a stretch that outruns its slack": 606 ns lost at tick 501 raises the fault, 600 ns at tick 500 does not. -/
def stretched (k gt : Nat) : State := gw (fun c => { ((((c.wr GJ.RGN_EN_EN (2 ^ 12)).wr GJ.RGN_LOST_OPEN 1 12).wr GJ.RGN_SLACK_SLACK 600 12).wr GJ.TB_STATUS_LOCK 2) with gt := gt * 2 ^ 32 })
  |> fun s => { s with gj := { s.gj with regions := upd s.gj.regions 12 (fun r => { r with t0 := some 1000, k := k, pnom := 0xA000, step := 40112 }) } }
theorem test_stretch_example : (let c := (after (.regionTick 12 true) (stretched 499 (1000 + 5600 + 2))).gj.c; c.rdS GJ.RGN_LOST_LOST 12 = 600 ∧ c.flag GJ.RGN_LOST_FAULT 12 = false)
    ∧ (let c := (after (.regionTick 12 true) (stretched 500 (1000 + 5616 + 2))).gj.c; c.rdS GJ.RGN_LOST_LOST 12 = 606 ∧ c.flag GJ.RGN_LOST_FAULT 12 = true) := by decide +kernel

/-- 07, "realigning a step pulse": a pulse 2,350 ns past the grid shortens the next period to 99,950 ns. -/
def pulsing : State := ew (fun c => { (((c.wr EZ.SPULSE_CTL_EN 1).wr EZ.SPULSE_CTL_GRADUAL 1).wr EZ.SPULSE_CTL_MAXADJ 50).wr EZ.SPULSE_CTL_PERIOD 100000 with now := 5000000, gt := 5002350 * 2 ^ 32 })
  |> fun s => { s with ez := { s.ez with out := { s.ez.out with spPeriod := 100000, spAnchor := 0, spNext := 5000000, spAlign := true } } }
theorem test_pulse_example : let e := (after (.stepPulse (BitVec.ofNat 80 (5002350 * 65536))) pulsing).ez
    e.c.rdS EZ.SPULSE_STATUS_DEV = 2350 ∧ e.out.spNext = 5000000 + 99950 ∧ e.c.flag EZ.SPULSE_STATUS_ALIGNING = true := by decide +kernel

/-- 08, "one signal, two waiters": keys 12 and 41 are granted in one pass, COUNT ends 0 and key 900 still waits. -/
def waitOn (slot cond : Nat) : Waiter := { waitC slot 1 with cond := cond }
def oneSignal : State := ctxAt 1 (k := fun g => { g with so := { g.so with objs := [(149, 1)], passes := [{ phys := 149 }], waiters := [waitOn 12 0, waitOn 41 1, waitOn 900 1] } })
theorem test_one_signal_two_waiters : let so := (after (.grantPass 149) oneSignal).gj.so
    sparseGet so.objs 149 = 0 ∧ so.waiters.map (·.slot) = [900] := by decide +kernel

/-- 11, "a Larder gradient-norm sum in two trees": the sum rounds once to 0x4B80_0002, and the partial of P and Q is the flit of the manual. -/
def share (w : Nat) : Lanes := Lanes.ofPayload 1 0 (bytesLE 4 w ++ List.replicate 60 0)
theorem test_gradient_norm_example :
    let p := share 0x4B800000
    let q := share 0x3F800000
    let m := Lanes.merge 1 0
    ((m (m p q) (m q q)).finish 1 0).head? = some 0x4B800002 ∧ ((m (m (m p q) q) q).finish 1 0).head? = some 0x4B800002
      ∧ (segmentsOf (streamOf 1 (m p q))).map flitsOfBits = [[0x80000108080000800000800000000000]] := by decide +kernel
/-- 11, "an ARGMAX tie in Shelftalk": score 0.9375 from rank 12, whichever comes first, and P = 1. -/
def cand (score rank : Nat) : Lanes := Lanes.ofPayload 1 3 (bytesLE 4 score ++ bytesLE 4 rank ++ (List.replicate 7 (bytesLE 4 0xFF800000 ++ bytesLE 4 9)).flatten)
theorem test_argmax_example :
    let l3 := Lanes.merge 1 3 (cand 0x3F600000 517) (cand 0x3F700000 300)
    let r := (Lanes.merge 1 3 l3 (cand 0x3F700000 12)).finish 1 3
    (payloadOf 1 3 r).take 8 = [0, 0, 0x70, 0x3F, 0x0C, 0, 0, 0] ∧ (payloadOf 1 3 ((Lanes.merge 1 3 (cand 0x3F700000 12) l3).finish 1 3)).take 8 = [0, 0, 0x70, 0x3F, 0x0C, 0, 0, 0]
      ∧ predicate 1 3 false 4 0 0x3F400000 r = true := by decide +kernel

/-- 16, "a lost edge on a Larder die": a clear after service takes the second edge with it; a clear before service leaves it. -/
theorem test_lost_edge_example :
    let edge := fun s => gw (fun c => c.latchIrq 10) s
    let clear := after (.irqPendClear .garja 0x0400)
    (edge s0).gj.c.rd GJ.IRQ_PEND_PEND = 0x0400 ∧ (clear (edge (edge s0))).gj.c.rd GJ.IRQ_PEND_PEND = 0 ∧ (edge (clear (edge s0))).gj.c.rd GJ.IRQ_PEND_PEND = 0x0400 := by decide +kernel

/-- 20, "addresses for a Shelftalk context": 0xC0B8, and BAR0 0x0082_9E28 for the DIES entry of bank 1 and port 5. -/
theorem test_address_example : GJ.SQ_CTX_STATE_STATE.off + 0x20 * 5 = 0xC0B8 ∧ diesOff 0x0A7 1 5 = 0x00829E28 := by decide

end Sys2Proof.Tests
end

section
/-!
Reads of the Hall Time at Elzel (R127): the path of a command through Elzel (R338 to R346) when nothing else is under way, what the
summaries that follow every command may change (R17), and the reads of EZ_HT_SEC and EZ_HT_NS.
-/
namespace Sys2Proof.Machine

variable {pt : Part}

/-! ### Word 0 of a command header -/

@[simp] theorem hdrOp_cmdW0 (op lvl tag blen : Nat) : hdrOp (cmdW0 op lvl tag blen) = op % 256 := by
  simp only [hdrOp, cmdW0, bits, natBits, w64, put, BitVec.toNat_ofNat, Nat.shiftRight_eq_div_pow]; omega
@[simp] theorem hdrLvl_cmdW0 (op lvl tag blen : Nat) : hdrLvl (cmdW0 op lvl tag blen) = lvl % 256 := by
  simp only [hdrLvl, cmdW0, bits, natBits, w64, put, BitVec.toNat_ofNat, Nat.shiftRight_eq_div_pow]; omega
@[simp] theorem hdrBlen_cmdW0 (op lvl tag blen : Nat) : hdrBlen (cmdW0 op lvl tag blen) = blen % 64 := by
  simp only [hdrBlen, cmdW0, bits, natBits, w64, put, BitVec.toNat_ofNat, Nat.shiftRight_eq_div_pow]; omega
@[simp] theorem hdrRoute_cmdW0 (op lvl tag blen : Nat) : hdrRoute (cmdW0 op lvl tag blen) = false := by
  simp only [hdrRoute, bit, cmdW0, natBits, w64, put, BitVec.toNat_ofNat, Nat.shiftRight_eq_div_pow, beq_eq_false_iff_ne]; omega
theorem bits_cmdW0_reserved (op lvl tag blen : Nat) : bits (cmdW0 op lvl tag blen) 1 0 = 0 := by
  simp only [cmdW0, bits, natBits, w64, put, BitVec.toNat_ofNat, Nat.shiftRight_eq_div_pow]; omega

/-- The class that the header flit of a MGMT packet names. -/
theorem Mgmt.bits_flit_cls (m : Mgmt) : bits m.flit 117 114 = m.cls % 16 := by
  simp only [Mgmt.flit, bits, natBits, f128, put, BitVec.toNat_ofNat, Nat.shiftRight_eq_div_pow]; omega

/-! ### List updates -/

theorem upd_drop {α : Type} (l : List α) (n i : Nat) (f : α → α) (h : n ≤ i) : (upd l i f).drop n = upd (l.drop n) (i - n) f := by
  induction n generalizing l i with
  | zero => simp
  | succ n ih =>
    cases l with
    | nil => simp [upd]
    | cons a l =>
      obtain ⟨i, rfl⟩ : ∃ j, i = j + 1 := ⟨i - 1, by omega⟩
      simpa [upd] using ih l i (by omega)

theorem upd_take {α : Type} (l : List α) (n i : Nat) (f : α → α) (h : n ≤ i) : (upd l i f).take n = l.take n := by
  induction n generalizing l i with
  | zero => simp
  | succ n ih =>
    cases l with
    | nil => simp [upd]
    | cons a l =>
      obtain ⟨i, rfl⟩ : ∃ j, i = j + 1 := ⟨i - 1, by omega⟩
      simpa [upd] using ih l i (by omega)

/-- An update that a map does not see. -/
theorem map_upd_eq {α β : Type} (l : List α) (i : Nat) (f : α → α) (g : α → β) (h : ∀ a, g (f a) = g a) : (upd l i f).map g = l.map g := by
  induction l generalizing i with
  | nil => rfl
  | cons a l ih => cases i with
    | zero => simp [upd, h]
    | succ i => simp [upd, ih]

/-! ### What the summaries change -/

/-- f differs from e by what R17's summaries keep and send, and by TREE_READY (R460), alone. -/
structure Elzel.Summed (e f : Elzel) : Prop where
  body : f.body = e.body
  get : ∀ o, o ≠ EZ.BOOT_STATUS → f.c.get o = e.c.get o
  clocked : f.c.clocked = e.c.clocked

theorem Elzel.Summed.refl (e : Elzel) : e.Summed e := ⟨rfl, fun _ _ => rfl, rfl⟩

theorem Elzel.Summed.trans {e f g : Elzel} (h : e.Summed f) (k : f.Summed g) : e.Summed g :=
  ⟨k.body.trans h.body, fun o n => (k.get o n).trans (h.get o n), k.clocked.trans h.clocked⟩

theorem Elzel.Summed.foldl {α : Type} (l : List α) (f : Elzel → α → Elzel) (h : ∀ (e : Elzel) (a : α), e.Summed (f e a)) (e : Elzel) :
    e.Summed (l.foldl f e) := by
  induction l generalizing e with
  | nil => exact .refl e
  | cons a l ih => exact (h e a).trans (ih (f e a))

/-- A change of the reports and of the summary last sent. -/
theorem Elzel.Summed.onMgr (e : Elzel) (f : Mgr → Mgr)
    (h : { f e.mgr with sums := [], oks := [], sentSum := [] } = { e.mgr with sums := [], oks := [], sentSum := [] }) : e.Summed (e.onMgr f) :=
  ⟨by simp only [Elzel.body, Elzel.onMgr, h], fun _ _ => rfl, rfl⟩

/-- A write of a field of EZ_BOOT_STATUS. -/
theorem Elzel.Summed.wr (e : Elzel) (f : Fld) (v i : Nat) (h : f.off + f.stride * i = EZ.BOOT_STATUS) : e.Summed (e.onC (·.wr f v i)) :=
  ⟨rfl, fun o n => Chip.get_wr_ne _ _ _ _ _ (by rwa [h]), rfl⟩

/-- A DISC_SUM packet queued on an uplink or a peer port. -/
theorem Elzel.Summed.sendSum (e : Elzel) (p : Nat) (m : Mgmt) (body : List Flit) (hp : 64 ≤ p) (hm : m.cls = 3) :
    e.Summed { e with c := e.c.send p .mgmt (m.flit :: body) } := by
  have hcls : bits m.flit 117 114 = 3 := by rw [m.bits_flit_cls, hm]
  unfold Chip.send
  split
  · refine ⟨?_, fun _ _ => rfl, rfl⟩
    simp only [Elzel.body, Chip.body, Chip.onLink, ← List.map_take, ← List.map_drop, upd_take _ _ _ _ hp, upd_drop _ _ _ _ hp, List.map_map]
    rw [map_upd_eq]
    intro l
    simp [Per5.mod, hcls]
  · exact .refl e

theorem Elzel.Summed.dropReports (e : Elzel) : e.Summed e.dropReports := by
  unfold Elzel.dropReports
  dsimp only
  split
  · exact .onMgr e _ rfl
  · exact .refl e

theorem Chip.uplink_ge (c : Chip pt) : 64 ≤ c.uplink := Nat.le_add_right ..

theorem Chip.peerPort_ge (c : Chip pt) : 64 ≤ c.peerPort := by unfold Chip.peerPort; split <;> omega

/-- The summaries sent and TREE_READY set leave everything else. -/
theorem Elzel.Summed.sumSync (e : Elzel) : e.Summed e.sumSync := by
  have h := Elzel.Summed.dropReports e
  unfold Elzel.sumSync
  generalize e.dropReports = d at h ⊢
  dsimp only
  have ready : e.Summed (d.onC (fun c => if c.isRoot then c.wr EZ.BOOT_STATUS_TREE_READY
      (b2n (d.treeOk && d.mgr.oks.any (fun o => decide (o.1 ≥ 66) && o.2.1))) else c)) := by
    by_cases r : d.c.isRoot = true
    · simpa [Elzel.onC, r] using h.trans (.wr d EZ.BOOT_STATUS_TREE_READY _ 0 (by decide))
    · simpa [Elzel.onC, r] using h
  generalize d.onC _ = r at ready ⊢
  split
  · exact h
  · split
    · exact ready
    · refine (ready.trans (.foldl _ _ (fun x ws => ?_) r)).trans (.onMgr _ _ rfl)
      generalize (!d.c.isRoot && d.c.up d.c.uplink) = up
      cases up <;> cases d.c.up d.c.peerPort
        <;> simp only [Bool.false_eq_true, if_true, if_false, Elzel.onC]
      · exact .refl x
      · exact .sendSum x _ _ _ x.c.peerPort_ge rfl
      · exact .sendSum x _ _ _ x.c.uplink_ge rfl
      · exact (Elzel.Summed.sendSum x _ _ _ x.c.uplink_ge rfl).trans (.sendSum _ _ _ _ (Chip.peerPort_ge _) rfl)

/-! ### Firmware with nothing waiting -/

theorem Elzel.Calm.noQueued {e : Elzel} (h : e.Calm) : e.c.NoQueued := by
  obtain ⟨-, -, -, -, queues, -⟩ := h
  exact queues

theorem Elzel.Calm.toHost {e : Elzel} (h : e.Calm) : e.mgr.toHost = [] := by
  obtain ⟨-, -, -, toHost, -⟩ := h
  exact toHost

theorem Elzel.pump_of_calm (e : Elzel) (h : e.Calm) : e.pump = e := by
  obtain ⟨hplan, hlate, hcoords, -⟩ := h
  simp [Elzel.pump, hplan, hlate, hcoords, Elzel.pumpGo]

theorem rowIdx_lt {base stride count off i : Nat} (hs : stride ≠ 0) (h : rowIdx base stride count off = some i) : i < count := by
  unfold rowIdx rowHas at h
  rw [if_neg hs, if_neg hs] at h
  split at h
  case isTrue r =>
    simp only [Bool.and_eq_true, decide_eq_true_eq] at r
    cases h
    exact r.2.2
  case isFalse => cases h

/-- The enabled pairs of Elzel are pairs that it has. -/
theorem Chip.lt_of_mem_pairsOn (c : Chip .elzel) (q : Nat) (h : q ∈ c.pairsOn) : q < c.nQueues := by
  obtain ⟨r, -, hr⟩ := List.mem_filterMap.mp h
  obtain ⟨k, hk, hq⟩ := Option.bind_eq_some_iff.mp hr
  have : k = q := by split at hq <;> simp_all
  exact this ▸ rowIdx_lt (by decide) hk

/-- No command stands whole at the head of a pair whose TAIL is at HEAD. -/
theorem Chip.sqHead_of_empty (c : Chip pt) (m : Mem) (q : Nat) (h : c.rd (PT.QP_SQ_IDX_HEAD pt) q = c.rd (PT.QP_SQ_IDX_TAIL pt) q) :
    c.sqHead m q = none := by
  simp [Chip.sqHead, h]

theorem Elzel.takeQueue_of_empty (e : Elzel) (host : Mem) (q : Nat) (h : e.c.sqHead host q = none) : e.takeQueue host q = none := by
  -- Unfolded as a function: an equation between the applied terms makes the kernel evaluate `sqHead`.
  conv =>
    lhs
    fun; fun; fun
    delta Elzel.takeQueue
  rw [h]

theorem foldl_fixed_of_mem {α β : Type} (l : List α) (f : β → α → β) (b : β) (h : ∀ a ∈ l, f b a = b) : l.foldl f b = b := by
  induction l with
  | nil => rfl
  | cons a l ih => rw [List.foldl_cons, h a (by simp), ih (fun x m => h x (by simp [m]))]

theorem Elzel.queueRound_of_noQueued (e : Elzel) (host : Mem) (h : e.c.NoQueued) : e.queueRound host = (e, false) := by
  have none_ : ∀ q ∈ e.c.pairsOn, (e, false).1.takeQueue host q = none := fun q m =>
    e.takeQueue_of_empty host q (e.c.sqHead_of_empty host q (h q (e.c.lt_of_mem_pairsOn q m)))
  refine foldl_fixed_of_mem _ _ _ (fun q m => ?_)
  rw [none_ q m]

/-- Firmware with nothing waiting does no more than bring the summaries up to date. -/
theorem Elzel.serve_of_calm (e : Elzel) (host : Mem) (h : e.Calm) : e.serve host = e.sumSync := by
  simp only [Elzel.serve, e.pump_of_calm h, Elzel.queueGo, e.queueRound_of_noQueued host h.noQueued]

theorem State.flushHost_of_empty (s : State) (h : s.ez.mgr.toHost = []) : s.flushHost = s := by
  have hm : { s.ez.mgr with toHost := [] } = s.ez.mgr := by rw [← h]
  simp only [State.flushHost, Elzel.onMgr, h, hm, List.foldl_nil]

/-- A command of Elzel that leaves nothing waiting changes Elzel alone. -/
theorem YieldsEz.of_onEzCmd {i : Instr} {s : State} {f : Elzel → Elzel} {e : Elzel} (hi : exec i s = .next (s.onEzCmd f))
    (hclk : s.ez.c.clocked = true) (hcalm : (f s.ez).Calm) (hbody : (f s.ez).body = e.body)
    (hregs : ∀ o, (f s.ez).c.get o = e.c.get o) (hrun : (f s.ez).c.clocked = e.c.clocked) : YieldsEz i s e := by
  obtain ⟨sbody, sregs, srun⟩ := Elzel.Summed.sumSync (f s.ez)
  have hhost : (f s.ez).sumSync.mgr.toHost = [] := (congrArg (fun x => x.mgr.toHost) sbody).trans hcalm.toHost
  have ht : s.onEzCmd f = { s with ez := (f s.ez).sumSync } := by
    simp only [State.onEzCmd, State.onEzHost, State.onEz, hclk, if_true, Elzel.serve_of_calm _ _ hcalm]
    exact State.flushHost_of_empty _ hhost
  exact ⟨_, hi.trans (congrArg _ ht), rfl, sbody.trans hbody, fun o n _ => (sregs o n).trans (hregs o), srun.trans hrun⟩

/-! ### A command on its path -/

/-- The part woken, with the order o taken and nothing else under way. -/
def Chip.serving (c : Chip pt) (q : Power) (o : Order) : Chip pt := { c with pw := q, cmd := { open_ := [o] } }

@[simp] theorem Chip.serving_get (c : Chip pt) (q : Power) (o : Order) (a : Nat) : (c.serving q o).get a = c.get a := (rfl)
@[simp] theorem Chip.serving_rd (c : Chip pt) (q : Power) (o : Order) (f : Fld) (i : Nat) : (c.serving q o).rd f i = c.rd f i := (rfl)
@[simp] theorem Chip.serving_wr (c : Chip pt) (q : Power) (o : Order) (f : Fld) (v i : Nat) :
    (c.serving q o).wr f v i = (c.wr f v i).serving q o := (rfl)
@[simp] theorem Chip.serving_htSec (c : Chip pt) (q : Power) (o : Order) : (c.serving q o).htSec = c.htSec := (rfl)
@[simp] theorem Chip.serving_htNs (c : Chip pt) (q : Power) (o : Order) : (c.serving q o).htNs = c.htNs := (rfl)
@[simp] theorem Chip.serving_htFrac (c : Chip pt) (q : Power) (o : Order) : (c.serving q o).htFrac = c.htFrac := (rfl)

/-- The power state in which a running part is after a request. -/
def Chip.awake (c : Chip pt) : Power := { c.pw with idleSince := none }

theorem Chip.takeCmd_wake (c : Chip pt) (cause : Nat) (o : Order) (hst : c.pw.st = .run) (hcmd : c.cmd = {}) :
    (c.wake cause).takeCmd o = c.serving c.awake o := by
  simp only [Chip.wake, hst, Chip.takeCmd, hcmd, Chip.serving, Chip.awake, List.nil_append]

/-- A command that keeps its form passes the checks of R346. -/
theorem Chip.cmdCheck_of_form (c : Chip pt) {op lvl tag n : Nat} {ws : List Word} {masks : List Nat}
    (hmin : c.lvlMin ≤ lvl) (hmax : lvl ≤ c.lvlMax) (hlvl : lvl < 256) (hop : op < 256) (hn : n < 64) (hlen : ws.length = 2 * n)
    (hmasks : cmdMasks op ws = some masks) (hexec : c.executes op = true) (hform : cmdForm masks ws = true) (hrange : cmdRange op ws = true) :
    c.cmdCheck (cmdW0 op lvl tag n) 0 ws false = none := by
  have hhdr : hdrForm (cmdW0 op lvl tag n) 0 ws = true := by
    simp [hdrForm, bits_cmdW0_reserved, hlen, Nat.mod_eq_of_lt hn]
    decide
  simp only [Chip.cmdCheck, Chip.speaks, hdrLvl_cmdW0, hdrOp_cmdW0, Nat.mod_eq_of_lt hlvl, Nat.mod_eq_of_lt hop, hmin, hmax, hmasks, hexec,
    hhdr, hform, hrange]
  rfl

theorem Chip.sendReply_of_enabled (c : Chip pt) (o : Order) (ws : List Word) {k : BitVec 10} (hsrc : o.src = .queue k)
    (hen : c.flag (PT.QP_CFG_EN pt) k.toNat = true) :
    c.sendReply o ws = { c with cmd := { c.cmd with replies := c.cmd.replies ++ [{ q := k.toNat, words := ws }] } } := by
  simp only [Chip.sendReply, hsrc, if_pos hen]

/-- The reply of Elzel to the one command that it serves, which came by an enabled pair, waits for the completion queue (R341, R342). -/
theorem Chip.reply_serving (c : Chip .elzel) (q : Power) (o : Order) (op : Nat) (a : Ans) {k : BitVec 10} (hcmd : c.cmd = {})
    (hsrc : o.src = .queue k) (hen : c.flag EZ.QP_CFG_EN k.toNat = true) :
    (c.serving q o).reply o op a.st a.detail a.index a.body = (c.replied o op a).withPw q := by
  rw [Chip.reply, Chip.sendReply_of_enabled (c.serving q o) o _ hsrc hen]
  simp only [Chip.countReply, Chip.replied, hsrc, hcmd, Chip.serving, List.erase_cons_head]
  rfl

/-! ### Elzel serves a command at once -/

/-- A command whose checks pass is executed and, where it has an answer, answered. -/
theorem Elzel.runCmd_of_execCmd (e e2 : Elzel) (host : Mem) (o : Order) (w0 w1 : Word) (ws : List Word) (a : Ans)
    (hcheck : (e.onC (·.takeCmd o)).c.cmdCheck w0 w1 ws false = none)
    (hrun : (e.onC (·.takeCmd o)).execCmd host o (hdrOp w0) ws = (e2, some a)) :
    e.runCmd host o w0 w1 ws = e2.onC (·.reply o (hdrOp w0) a.st a.detail a.index a.body) := by
  -- Unfolded as a function, as in `takeQueue_of_empty`.
  conv =>
    lhs
    fun; fun; fun; fun; fun; fun
    delta Elzel.runCmd
  simp only [hcheck, hrun]

/-- Elzel with the order o of an enabled pair k in hand: what `State.Takes` says of it. -/
structure Elzel.Taking (e : Elzel) (o : Order) (k : BitVec 10) : Prop where
  st : e.c.pw.st = .run
  dead : e.c.den.dead = false
  noReset : e.c.den.run = none
  cmd : e.c.cmd = {}
  calm : e.Calm
  stage : e.c.rd EZ.BOOT_STATUS_STAGE = 4
  lvlMin : e.c.lvlMin ≤ o.lvl.toNat
  lvlMax : o.lvl.toNat ≤ e.c.lvlMax
  src : o.src = .queue k
  enabled : e.c.flag EZ.QP_CFG_EN k.toNat = true

theorem State.Takes.taking {s : State} {o : Order} (h : s.Takes .elzel o) : ∃ k, s.ez.Taking o k := by
  obtain ⟨⟨⟨st, dead⟩, noReset, cmd, calm, stage⟩, -, lvlMin, lvlMax, k, src, enabled⟩ := h
  exact ⟨k, { st, dead, noReset, cmd, calm, stage, lvlMin, lvlMax, src, enabled }⟩

namespace Elzel.Taking

variable {e : Elzel} {o : Order} {k : BitVec 10}

theorem clocked (h : e.Taking o k) : e.c.clocked = true := by simp [Chip.clocked, h.st, h.dead]

theorem fwRuns (h : e.Taking o k) : e.fwRuns = true := by
  simp [Elzel.fwRuns, h.clocked, h.stage, Chip.subHeld, h.noReset]

/-- A command that is not to be routed is run by Elzel itself (R338). -/
theorem submitCmd (h : e.Taking o k) (host : Mem) (op tag n : Nat) (ws : List Word) :
    e.submitCmd host o (cmdW0 op o.lvl.toNat tag n) 0 ws = some ((e.onC (·.wake 1)).runCmd host o (cmdW0 op o.lvl.toNat tag n) 0 ws) := by
  have hdup : (e.onC (·.wake 1)).c.dupTag o = false := by
    simp only [Chip.dupTag, h.src, Elzel.onC, Chip.wake, h.st, h.cmd, List.any_nil]
  conv =>
    lhs
    fun; fun; fun; fun; fun; fun
    delta Elzel.submitCmd
  simp only [h.fwRuns, hdup, hdrRoute_cmdW0, Bool.not_true, Bool.not_false, Bool.false_eq_true, if_false, if_true]

/-- A command whose checks pass is executed and answered. -/
theorem runCmd (h : e.Taking o k) (host : Mem) {op tag n : Nat} {ws : List Word} {a : Ans} {d : Chip .elzel} (hop : op < 256)
    (hcheck : (e.c.serving e.c.awake o).cmdCheck (cmdW0 op o.lvl.toNat tag n) 0 ws false = none)
    (hrun : Elzel.execCmd { e with c := e.c.serving e.c.awake o } host o op ws = ({ e with c := d.serving e.c.awake o }, some a))
    (hcmd : d.cmd = {}) (hen : d.flag EZ.QP_CFG_EN k.toNat = true) :
    (e.onC (·.wake 1)).runCmd host o (cmdW0 op o.lvl.toNat tag n) 0 ws = { e with c := (d.replied o op a).withPw e.c.awake } := by
  have htake : (e.onC (·.wake 1)).onC (·.takeCmd o) = { e with c := e.c.serving e.c.awake o } := by
    simp only [Elzel.onC, Chip.takeCmd_wake e.c 1 o h.st h.cmd]
  have hop' : hdrOp (cmdW0 op o.lvl.toNat tag n) = op := by rw [hdrOp_cmdW0, Nat.mod_eq_of_lt hop]
  rw [Elzel.runCmd_of_execCmd _ { e with c := d.serving e.c.awake o } host o _ _ ws a (by rw [htake]; exact hcheck)
    (by rw [htake, hop']; exact hrun), hop', Elzel.onC, d.reply_serving _ o op a hcmd h.src hen]

end Elzel.Taking

/-- What a command leaves alone between its queue pair and its reply: the pairs, the time, and the state of the part. -/
structure Chip.KeepsPath (c d : Chip .elzel) : Prop where
  cmd : d.cmd = c.cmd
  gt : d.gt = c.gt
  pw : d.pw = c.pw
  den : d.den = c.den
  regs : ∀ o, EZ.QP_SQ_BASE ≤ o → d.get o = c.get o

theorem Chip.KeepsPath.rd {c d : Chip .elzel} (h : c.KeepsPath d) (f : Fld) (i : Nat) (hf : EZ.QP_SQ_BASE ≤ f.off) : d.rd f i = c.rd f i := by
  rw [Chip.rd, h.regs _ (Nat.le_add_right_of_le hf), Chip.rd]

theorem Chip.KeepsPath.noQueued {c d : Chip .elzel} (h : c.KeepsPath d) (hc : c.NoQueued) : d.NoQueued := fun q hq =>
  (h.rd EZ.QP_SQ_IDX_HEAD q (by decide)).trans ((hc q hq).trans (h.rd EZ.QP_SQ_IDX_TAIL q (by decide)).symm)

/-- Firmware finds nothing more to do with d than with c. -/
theorem Elzel.Calm.of_keepsPath {e : Elzel} {d : Chip .elzel} (h : e.Calm) (hd : e.c.KeepsPath d) : Elzel.Calm { e with c := d } := by
  have now : d.gtInt = e.c.gtInt := by simp only [Chip.gtInt, hd.gt]
  obtain ⟨planq, late, coords, toHost, queues, ramps, plans, admits⟩ := h
  exact ⟨planq, late, coords, toHost, hd.noQueued queues, now ▸ ramps, now ▸ plans, now ▸ admits⟩

/-- A command that Elzel executes and that keeps its path clear is answered with what `execCmd` gives. -/
theorem Answers.of_execCmd {s : State} {i : Instr} {o : Order} {op n : Nat} {body : List Word} {masks : List Nat} {a : Ans} {d : Chip .elzel}
    (ht : s.Takes .elzel o) (hi : exec i s = .next (s.command .elzel o op body))
    (hop : op < 256) (hn : n < 64) (hlen : (padEven body).length = 2 * n)
    (hmasks : cmdMasks op (padEven body) = some masks) (hexec : s.ez.c.executes op = true) (hform : cmdForm masks (padEven body) = true)
    (hrange : cmdRange op (padEven body) = true)
    (hrun : Elzel.execCmd { s.ez with c := s.ez.c.serving s.ez.c.awake o } s.hostMem o op (padEven body)
      = ({ s.ez with c := d.serving s.ez.c.awake o }, some a))
    (hkeep : s.ez.c.KeepsPath d) : Answers .elzel i s o op d a := by
  obtain ⟨k, h⟩ := ht.taking
  have hlvl : o.lvl.toNat < 256 := o.lvl.isLt
  have hcheck : (s.ez.c.serving s.ez.c.awake o).cmdCheck (cmdW0 op o.lvl.toNat o.tag.toNat n) 0 (padEven body) false = none :=
    Chip.cmdCheck_of_form _ h.lvlMin h.lvlMax hlvl hop hn hlen hmasks hexec hform hrange
  have hcmd : d.cmd = {} := hkeep.cmd.trans h.cmd
  have hen : d.flag EZ.QP_CFG_EN k.toNat = true := by
    rw [Chip.flag, Chip.rd, hkeep.regs _ (by simp only [EZ.QP_CFG_EN, EZ.QP_SQ_BASE]; omega)]
    exact h.enabled
  have hsubmit := h.submitCmd s.hostMem op o.tag.toNat n (padEven body)
  rw [h.runCmd s.hostMem hop hcheck hrun hcmd hen] at hsubmit
  have hsent : exec i s = .next (s.onEzCmd (fun e => (e.submitCmd s.hostMem o (cmdW0 op o.lvl.toNat o.tag.toNat n) 0 (padEven body)).getD e)) := by
    rw [hi, State.command, hlen, Nat.mul_div_cancel_left n (by decide)]
  have hclocked : ((d.replied o op a).withPw s.ez.c.awake).clocked = (d.replied o op a).clocked := by
    simp only [Chip.replied, h.src, Chip.clocked, Chip.withPw, Chip.awake, hkeep.pw]
  have hcalm : Elzel.Calm { s.ez with c := (d.replied o op a).withPw s.ez.c.awake } := by
    have hd : Elzel.Calm { s.ez with c := d } := h.calm.of_keepsPath hkeep
    simp only [Chip.replied, h.src]
    exact hd
  refine YieldsEz.of_onEzCmd hsent h.clocked ?_ ?_ ?_ ?_
  all_goals simp only [hsubmit, Option.getD_some]
  · exact hcalm
  · rfl
  · exact fun _ => rfl
  · exact hclocked

/-! ### REG_READ of one register -/

/-- The body of a REG_READ (R347). -/
def regReadBody (off : BitVec 24) (nm1 : BitVec 4) : List Word := padEven [w64 (put 47 24 off.toNat + put 3 0 nm1.toNat)]

theorem regReadBody_head (off : BitVec 24) (nm1 : BitVec 4) :
    (regReadBody off nm1).getD 0 0 = w64 (put 47 24 off.toNat + put 3 0 nm1.toNat) := (rfl)

theorem regReadBody_off (off : BitVec 24) (nm1 : BitVec 4) : bits ((regReadBody off nm1).getD 0 0) 47 24 = off.toNat := by
  have := off.isLt
  rw [regReadBody_head]
  simp only [bits, natBits, w64, put, BitVec.toNat_ofNat, Nat.shiftRight_eq_div_pow]
  omega

theorem regReadBody_count (off : BitVec 24) (nm1 : BitVec 4) : bits ((regReadBody off nm1).getD 0 0) 3 0 = nm1.toNat := by
  have := nm1.isLt
  rw [regReadBody_head]
  simp only [bits, natBits, w64, put, BitVec.toNat_ofNat, Nat.shiftRight_eq_div_pow]
  omega

/-- REG_READ of a run of registers in the window (R347). -/
theorem Elzel.execCmd_regRead (e : Elzel) (host : Mem) (o : Order) (ws : List Word) {off n : Nat} (hoff : bits (ws.getD 0 0) 47 24 = off)
    (hn : bits (ws.getD 0 0) 3 0 = n) (hin : regsIn .elzel off (n + 1) = true) :
    e.execCmd host o CM.REG_READ ws = ((e.readRun off (n + 1)).1, some { st := ST.OK, body := (e.readRun off (n + 1)).2 }) := by
  rw [Elzel.execCmd, if_neg (by decide), if_neg (by decide), if_pos (by decide), hoff, hn, hin, if_neg (by decide)]

theorem Elzel.readRun_one (e : Elzel) (off : Nat) : e.readRun off 1 = ((e.regRead off).1, [(e.regRead off).2]) := rfl

/-- A REG_READ of one register answers the word that `regRead` gives, and leaves what it leaves. -/
theorem Answers.of_regRead {s : State} {o : Order} {off : BitVec 24} {d : Chip .elzel} {w : Word} (ht : s.Takes .elzel o)
    (hform : cmdForm [msk 47 24 + msk 3 0] (regReadBody off 0) = true)
    (hin : regsIn .elzel off.toNat 1 = true)
    (hread : Elzel.regRead { s.ez with c := s.ez.c.serving s.ez.c.awake o } off.toNat = ({ s.ez with c := d.serving s.ez.c.awake o }, w))
    (hkeep : s.ez.c.KeepsPath d) : Answers .elzel (.regRead .elzel o off 0) s o 3 d { st := 0, body := [w] } := by
  refine Answers.of_execCmd (n := 1) (op := CM.REG_READ) ht rfl (by decide) (by decide) rfl rfl rfl hform rfl ?_ hkeep
  have hexec := Elzel.execCmd_regRead { s.ez with c := s.ez.c.serving s.ez.c.awake o } s.hostMem o (regReadBody off 0) (regReadBody_off off 0)
    (n := 0) (regReadBody_count off 0) hin
  rw [Nat.zero_add, Elzel.readRun_one, hread] at hexec
  exact hexec

/-! ### The seconds and the latched nanoseconds (R127) -/

theorem rowIdx_of_lt (base stride count off : Nat) (h : off < base) : rowIdx base stride count off = none := by
  simp [rowIdx, rowHas, Nat.not_le.mpr h]

theorem Elzel.view_htSec (e : Elzel) : e.view EZ.HT_SEC = w64 e.c.htSec := by
  rw [Elzel.view, if_pos (by decide), if_neg (by decide), if_pos (by decide)]

/-- EZ_HT_NS has no bit that a read hides. -/
theorem Chip.viewBase_htNs (c : Chip .elzel) : c.viewBase EZ.HT_NS = c.get EZ.HT_NS := by
  have hrow : regRow .elzel EZ.HT_NS = some ⟨0x50008, 0x0, 1, 0x0, 0x0, 0x0, 0x0, 0x0⟩ := by decide
  rw [Chip.viewBase, hrow]
  exact BitVec.and_allOnes

/-- No state kept elsewhere shows in EZ_HT_NS. -/
theorem Chip.viewShared_htNs (c : Chip .elzel) (w : Word) : c.viewShared EZ.HT_NS w = w := by
  have htrack : (PT.TS_TRACK_TRACKED .elzel).idx c.tracks.length EZ.HT_NS = none := rowIdx_of_lt _ _ _ _ (by decide)
  have hfill : (PT.TDC_STATUS_FILL .elzel).idx c.nCh EZ.HT_NS = none := by
    change (PT.TDC_STATUS_FILL .elzel).idx 76 EZ.HT_NS = none
    decide
  have hfifo : (PT.TDC_FIFO_VALID .elzel).idx c.nCh EZ.HT_NS = none := by
    change (PT.TDC_FIFO_VALID .elzel).idx 76 EZ.HT_NS = none
    decide
  have hset : (PT.STG_S_W0_ENTRIES .elzel).idx c.nSets EZ.HT_NS = none := rowIdx_of_lt _ _ _ _ (by decide)
  rw [Chip.viewShared, htrack, hfill, hfifo, hset]
  rfl

theorem Elzel.view_htNs (e : Elzel) : e.view EZ.HT_NS = e.c.get EZ.HT_NS := by
  rw [Elzel.view, if_pos (by decide), if_neg (by decide), if_neg (by decide), if_neg (by decide), Chip.viewShared_htNs, Chip.viewBase_htNs]

/-- The chip after a read of EZ_HT_SEC: EZ_HT_NS holds the nanoseconds and the fraction of the same edge (R127). -/
def Chip.htLatched (c : Chip .elzel) : Chip .elzel := (c.wr EZ.HT_NS_NS c.htNs).wr EZ.HT_NS_FRAC c.htFrac

theorem Chip.serving_htLatched (c : Chip .elzel) (q : Power) (o : Order) : (c.serving q o).htLatched = c.htLatched.serving q o := by
  simp only [Chip.htLatched, Chip.serving_wr, Chip.serving_htNs, Chip.serving_htFrac]

/-- A read of EZ_HT_SEC gives the seconds and latches (R127). -/
theorem Elzel.regRead_htSec (e : Elzel) : e.regRead EZ.HT_SEC = (e.onC (·.htLatched), w64 e.c.htSec) := by
  have hread : e.regRead EZ.HT_SEC = (e.onC (·.htLatched), e.view EZ.HT_SEC) := rfl
  rw [hread, e.view_htSec]

/-- EZ_HT_NS has no bit that a read clears. -/
theorem Chip.rcClear_htNs (c : Chip .elzel) : c.rcClear EZ.HT_NS = c := by
  have hmask : rcMask .elzel EZ.HT_NS = 0 := by decide
  simp [Chip.rcClear, hmask]

/-- A read of EZ_HT_NS gives what was latched and changes nothing. -/
theorem Elzel.regRead_htNs (e : Elzel) : e.regRead EZ.HT_NS = (e, e.c.get EZ.HT_NS) := by
  have hread : e.regRead EZ.HT_NS = (e.onC (·.rcClear EZ.HT_NS), e.view EZ.HT_NS) := rfl
  rw [hread, e.view_htNs, Elzel.onC, Chip.rcClear_htNs]

theorem Chip.KeepsPath.refl (c : Chip .elzel) : c.KeepsPath c := ⟨rfl, rfl, rfl, rfl, fun _ _ => rfl⟩

theorem Chip.KeepsPath.htLatched (c : Chip .elzel) : c.KeepsPath c.htLatched where
  cmd := by simp only [Chip.htLatched, Chip.wr_cmd]
  gt := by simp only [Chip.htLatched, Chip.wr_gt]
  pw := by simp only [Chip.htLatched, Chip.wr_pw]
  den := by simp only [Chip.htLatched, Chip.wr_den]
  regs a h := by
    have apart : ∀ f : Fld, f.off + f.stride * 0 < EZ.QP_SQ_BASE → a ≠ f.off + f.stride * 0 := fun f hf => by omega
    rw [Chip.htLatched, Chip.get_wr_ne _ _ _ _ _ (apart EZ.HT_NS_FRAC (by decide)), Chip.get_wr_ne _ _ _ _ _ (apart EZ.HT_NS_NS (by decide))]

/-- Settles O55: HT_SEC_READ and a REG_READ of EZ_HT_SEC leave the nanoseconds and the fraction in EZ_HT_NS, and a REG_READ of EZ_HT_NS by
any queue pair gives what stands there. -/
theorem secondsReadsLatch : Obligations.SecondsReadsLatch := by
  intro s hclk
  have sec : (BitVec.ofNat 24 EZ.HT_SEC).toNat = EZ.HT_SEC := by decide
  have ns : (BitVec.ofNat 24 EZ.HT_NS).toNat = EZ.HT_NS := by decide
  refine ⟨.onChip rfl hclk (.same _), fun o ht => ⟨?_, ?_⟩⟩
  · refine Answers.of_regRead (d := s.ez.c.htLatched) ht (by decide) (by decide) ?_ (.htLatched _)
    rw [sec, Elzel.regRead_htSec, Elzel.onC, Chip.serving_htLatched, Chip.serving_htSec]
  · refine Answers.of_regRead (d := s.ez.c) ht (by decide) (by decide) ?_ (.refl _)
    rw [ns, Elzel.regRead_htNs, Chip.serving_get]

end Sys2Proof.Machine
end

section
/-!
Context commands of a requester that is not the owner (R204): what a command of GJ_CTX_CMD does in a Garja in which nothing waits, what
its word says, and what a refusal writes.
-/
namespace Sys2Proof.Machine

/-! ### Garja with nothing waiting -/

/-- No context command waits for a grant pass to end. -/
theorem Garja.applyDue_of_none_due (g : Garja) (h : ∀ r ∈ g.ctxs, r.due = none) : g.applyDue = g := by
  refine foldl_fixed_of_mem _ _ g (fun x hx => ?_)
  have hlt : x < g.ctxs.length := List.mem_range.mp hx
  have hdue : (g.run x).due = none := by simpa [Garja.run, hlt] using h _ (List.getElem_mem hlt)
  simp only [hdue]

/-- No sequencer has an operation, a wait or a launch to act on. -/
theorem Garja.settle_of_none_waiting (g : Garja) (h : ∀ q ∈ g.seqs, q.ended = none ∧ q.waiting = false ∧ q.await_ = false) : g.settle = g := by
  refine foldl_fixed_of_mem _ _ g (fun x hx => ?_)
  have hlt : x < g.seqs.length := List.mem_range.mp hx
  obtain ⟨hended, hwaiting, hawait⟩ : (g.seq x).ended = none ∧ (g.seq x).waiting = false ∧ (g.seq x).await_ = false := by
    simpa [Garja.seq, hlt] using h _ (List.getElem_mem hlt)
  have hctx : g.settleCtx x = g := by simp [Garja.settleCtx, hended, hwaiting]
  simp [hctx, Garja.waitState, hawait]

theorem Garja.settle_of_calm {g g' : Garja} (h : g.Calm) (hseqs : g'.seqs = g.seqs) : g'.settle = g' := by
  obtain ⟨-, seqs, -⟩ := h
  exact g'.settle_of_none_waiting (hseqs ▸ seqs)

/-- A change that leaves nothing waiting is followed by no other. -/
theorem State.onSync_of_calm {s : State} {f : Garja → Garja} {g : Garja} (h : s.gj.Calm) (hf : f s.gj = g) (hctxs : g.ctxs = s.gj.ctxs)
    (hseqs : g.seqs = s.gj.seqs) : s.onSync f = { s with gj := g } := by
  have hdue : g.applyDue = g := by
    obtain ⟨due, -⟩ := h
    exact g.applyDue_of_none_due (hctxs ▸ due)
  simp only [State.onSync, State.onGj, hf, hdue, Garja.settle_of_calm h hseqs]

theorem Garja.onC_onC (g : Garja) (f h : Chip .garja → Chip .garja) : (g.onC f).onC h = g.onC (fun c => h (f c)) := (rfl)

/-- A request at the target port of a Garja that runs ends its run of idle time (R310). -/
theorem Garja.portWake_of_running (g : Garja) (h : g.c.pw.st = .run) : g.portWake = g.onC (·.withPw g.c.awake) := by
  simp only [Garja.portWake, Garja.onC, Chip.wake, h, Chip.withPw, Chip.awake]

/-! ### The word of a command -/

/-- w is the word of GJ_CTX_CMD that asks for k of context x, well formed (R196). -/
structure CtxKind.AskedBy (k : CtxKind) (x w : Nat) : Prop where
  parsed : ∃ flag, ctxWord (w64 w) = .ok (k, flag)
  op : bits (w64 w) 63 60 = k.code
  ctx : bits (w64 w) 59 52 = x

/-- The fields of a word that GJ_CTX_CMD takes: opcode, context and the reserved bits below the flags. -/
theorem bits_ctxWord (op x flags : Nat) (hop : op < 16) (hx : x < 256) (hflags : flags < 2 ^ 3) :
    let w := w64 (put 63 60 op + put 59 52 x + flags * 2 ^ 41)
    bits w 63 60 = op ∧ bits w 59 52 = x ∧ bits w 40 0 = 0 := by
  simp only [bits, natBits, w64, put, BitVec.toNat_ofNat, Nat.shiftRight_eq_div_pow]
  omega

/-- A command other than ACTIVATE, by its opcode, context and flag bits. -/
theorem CtxKind.AskedBy.of_fields {k : CtxKind} {x : BitVec 8} {w flags : Nat} (hk : k ≠ .activate) (hflags : flags < 2 ^ 3)
    (hw : w = put 63 60 k.code + put 59 52 x.toNat + flags * 2 ^ 41) : k.AskedBy x.toNat w := by
  subst hw
  have hcode : k.code < 16 := by cases k <;> decide
  obtain ⟨hop, hctx, hlow⟩ := bits_ctxWord k.code x.toNat flags hcode x.isLt hflags
  refine ⟨?_, hop, hctx⟩
  unfold ctxWord
  rw [hop, hlow]
  cases k with
  | activate => exact absurd rfl hk
  | park => exact ⟨_, rfl⟩
  | resume => exact ⟨_, rfl⟩
  | teardown => exact ⟨_, rfl⟩
  | abandon => exact ⟨_, rfl⟩

/-- PARK, RESUME, TEARDOWN and ABANDON are rows of GJ_CTX_CMD. -/
theorem exec_ctxRow {i : Instr} {r : Requester} {ctx : BitVec 8} (s : State)
    (h : (∃ b, i = .park r ctx b) ∨ (∃ b, i = .resume r ctx b) ∨ i = .teardown r ctx ∨ i = .abandon r ctx) :
    ∃ k w, k ≠ CtxKind.activate ∧ k.AskedBy ctx.toNat w ∧ exec i s = .next (s.onSync (·.ctxRow r w)) := by
  rcases h with ⟨b, rfl⟩ | ⟨b, rfl⟩ | rfl | rfl
  · have hflag : put 42 42 (b2n b) = 2 * b2n b * 2 ^ 41 := by cases b <;> rfl
    exact ⟨.park, put 63 60 2 + put 59 52 ctx.toNat + put 42 42 (b2n b), by decide,
      .of_fields (flags := 2 * b2n b) (by decide) (by cases b <;> decide) (by rw [hflag, CtxKind.code]), rfl⟩
  · have hflag : put 41 41 (b2n b) = b2n b * 2 ^ 41 := by cases b <;> rfl
    exact ⟨.resume, put 63 60 3 + put 59 52 ctx.toNat + put 41 41 (b2n b), by decide,
      .of_fields (flags := b2n b) (by decide) (by cases b <;> decide) (by rw [hflag, CtxKind.code]), rfl⟩
  · exact ⟨.teardown, put 63 60 4 + put 59 52 ctx.toNat, by decide,
      .of_fields (flags := 0) (by decide) (by decide) (by rw [CtxKind.code, Nat.zero_mul, Nat.add_zero]), rfl⟩
  · exact ⟨.abandon, put 63 60 5 + put 59 52 ctx.toNat, by decide,
      .of_fields (flags := 0) (by decide) (by decide) (by rw [CtxKind.code, Nat.zero_mul, Nat.add_zero]), rfl⟩

/-! ### Requesters without the right to any context -/

/-- A requester that may command no context is answered DENIED at the target port (R204, R422). -/
theorem Garja.ctxRow_of_not_commands (g : Garja) (r : Requester) (w : Nat) (h : g.commands r = false) (hst : g.c.pw.st = .run) :
    g.ctxRow r w = (g.onC (·.withPw g.c.awake)).answered r ST.DENIED := by
  have hwake := g.portWake_of_running hst
  cases r with
  | tile t => simp only [Garja.ctxRow, hwake]; rfl
  | host => simp only [Garja.ctxRow, hwake]; rfl
  | proc p =>
    have hp : p.toNat ≥ g.c.prm.nProc := by simpa [Garja.commands] using h
    simp only [Garja.ctxRow, hwake, Garja.onC_c, Chip.withPw_prm, if_pos hp]; rfl
  | elzel => cases h
  | debug => cases h

/-! ### What a refusal writes -/

/-- A refusal of a command for context x on account of a lock is counted (R282). -/
def Chip.lockCounted (c : Chip .garja) (x : Nat) : Chip .garja := if c.ctxLocked x then c.stgIgn else c

theorem Chip.get_lockCounted_ne (c : Chip .garja) (x a : Nat) (h : a ≠ GJ.STG_CNT_WR_IGN.off) : (c.lockCounted x).get a = c.get a := by
  unfold Chip.lockCounted
  split
  · exact Chip.get_inc_ne _ _ _ _ _ h
  · rfl

/-- What a refused command of opcode op for context x leaves: GJ_CTX_CMDSTAT, and the count of a lock. -/
def Chip.ctxDenied (c : Chip .garja) (op x : Nat) : Chip .garja := ((c.cmdTaken op x).lockCounted x).cmdDone ST.DENIED

/-- GJ_CTX_CMDSTAT names the command last taken, whether a lock is counted or not. -/
theorem Chip.rd_cmdstat_taken (c : Chip .garja) (op x : Nat) (hop : op < 16) (hx : x < 256) :
    ((c.cmdTaken op x).lockCounted x).rd GJ.CTX_CMDSTAT_OP = op ∧ ((c.cmdTaken op x).lockCounted x).rd GJ.CTX_CMDSTAT_CTX = x := by
  have hword : ((c.cmdTaken op x).lockCounted x).get GJ.CTX_CMDSTAT = w64 (put 47 44 op + put 43 36 x) := by
    rw [Chip.get_lockCounted_ne _ _ _ (by decide), Chip.cmdTaken, Chip.get_set_same]
  change bits (((c.cmdTaken op x).lockCounted x).get GJ.CTX_CMDSTAT) 47 44 = op ∧ bits (((c.cmdTaken op x).lockCounted x).get GJ.CTX_CMDSTAT) 43 36 = x
  simp only [hword, bits, natBits, w64, put, BitVec.toNat_ofNat, Nat.shiftRight_eq_div_pow]
  omega

theorem Chip.get_cmdTaken_ne (c : Chip .garja) (op x a : Nat) (h : a ≠ GJ.CTX_CMDSTAT) : (c.cmdTaken op x).get a = c.get a :=
  Chip.get_set_ne _ _ _ _ h

theorem Chip.get_cmdDone_ne (c : Chip .garja) (st a : Nat) (h : a ≠ GJ.CTX_CMDSTAT) : (c.cmdDone st).get a = c.get a := by
  rw [Chip.cmdDone, Chip.get_wr_ne _ _ _ _ _ h, Chip.get_wr_ne _ _ _ _ _ h]

theorem Chip.rd_cmdDone_done (c : Chip .garja) (st : Nat) : (c.cmdDone st).rd GJ.CTX_CMDSTAT_DONE = 1 :=
  Chip.rd_wr_same _ _ _ _ (by decide) (by decide)

theorem Chip.rd_cmdDone_status (c : Chip .garja) (st : Nat) (h : st < 256) : (c.cmdDone st).rd GJ.CTX_CMDSTAT_STATUS = st := by
  rw [Chip.cmdDone, Chip.rd_wr_ne _ _ _ _ _ _ (by decide) (by decide) (.inr (by decide)), Chip.rd_wr_same _ _ _ _ (by decide) (by decide)]
  exact Nat.mod_eq_of_lt h

/-- A refusal leaves every GJ_CTX_STATE_y. -/
theorem Chip.get_ctxDenied_ctxState (c : Chip .garja) (op x y : Nat) (h : y < 256) :
    (c.ctxDenied op x).get (GJ.CTX_STATE + 8 * y) = c.get (GJ.CTX_STATE + 8 * y) := by
  have apart : ∀ a, GJ.CTX_STATE + 8 * 256 ≤ a → GJ.CTX_STATE + 8 * y ≠ a := fun a ha => by omega
  rw [Chip.ctxDenied, Chip.get_cmdDone_ne _ _ _ (apart _ (by decide)), Chip.get_lockCounted_ne _ _ _ (apart _ (by decide)),
    Chip.get_cmdTaken_ne _ _ _ _ (apart _ (by decide))]

/-! ### A processor that is not the owner -/

/-- A command that GJ_CTX_CMDSTAT still names is reported there. -/
theorem Garja.ctxDone_reg (g : Garja) (x : Nat) (k : CtxKind) (st : Nat) (hop : g.c.rd GJ.CTX_CMDSTAT_OP = k.code)
    (hctx : g.c.rd GJ.CTX_CMDSTAT_CTX = x) : g.ctxDone x k .reg st = g.onC (·.cmdDone st) := by
  simp only [Garja.ctxDone, hop, hctx, beq_self_eq_true, Bool.and_self, if_true]
  rfl

theorem Garja.ctxStatus_of_not_owner (g : Garja) (x by_ : Nat) (k : CtxKind) (hown : by_ ≠ g.c.rd GJ.CTX_STATE_OWNER x) (hby : by_ < 8) :
    g.ctxStatus x by_ k = ST.DENIED := by
  have hother : (by_ != g.c.rd GJ.CTX_STATE_OWNER x && by_ != 8 && by_ != 9) = true := by
    simp [hown, show by_ ≠ 8 by omega, show by_ ≠ 9 by omega]
  simp only [Garja.ctxStatus, hother, if_true]

/-- A command of a processor that is not the owner is refused, whether the context is locked or not. -/
theorem Garja.ctxCommand_of_not_owner (g : Garja) (x by_ : Nat) (k : CtxKind) (flag : Bool) (gen : Nat) (hk : k ≠ .activate)
    (hown : by_ ≠ g.c.rd GJ.CTX_STATE_OWNER x) (hby : by_ < 8) :
    g.ctxCommand x by_ k .reg flag gen = (g.onC (·.lockCounted x)).ctxDone x k .reg ST.DENIED := by
  have hreg : (!(CtxVia.reg == CtxVia.stage)) = true := rfl
  have hkind : (k == .activate) = false := by simpa using hk
  have hlock : (if g.c.ctxLocked x = true then g.onC Chip.stgIgn else g) = g.onC (·.lockCounted x) := by
    simp only [Garja.onC, Chip.lockCounted]
    split <;> rfl
  have hrefused : (ST.DENIED != ST.OK) = true := rfl
  simp only [Garja.ctxCommand, hreg, Bool.true_and, hkind, g.ctxStatus_of_not_owner x by_ k hown hby, Bool.false_eq_true, if_false, ite_self,
    hrefused, if_true, hlock]

/-- A write of GJ_CTX_CMD by a processor that is not the owner (R196, R204). -/
theorem Garja.ctxCmdWrite_of_not_owner (g : Garja) {k : CtxKind} {x w by_ : Nat} (hk : k ≠ .activate) (hw : k.AskedBy x w) (hx : x < 256)
    (hown : by_ ≠ g.c.rd GJ.CTX_STATE_OWNER x) (hby : by_ < 8) :
    g.ctxCmdWrite by_ (w64 w) = g.onC (·.ctxDenied k.code x) := by
  obtain ⟨⟨flag, hword⟩, hop, hctx⟩ := hw
  have hcode : k.code < 16 := by cases k <;> decide
  have hown' : by_ ≠ (g.c.cmdTaken k.code x).rd GJ.CTX_STATE_OWNER x := by
    have hne : GJ.CTX_STATE_OWNER.off + GJ.CTX_STATE_OWNER.stride * x ≠ GJ.CTX_CMDSTAT := by
      simp only [GJ.CTX_STATE_OWNER, GJ.CTX_CMDSTAT]; omega
    rwa [Chip.rd, Chip.get_cmdTaken_ne _ _ _ _ hne, ← Chip.rd]
  have htaken : g.ctxCmdWrite by_ (w64 w) = (g.onC (·.cmdTaken k.code x)).ctxCommand x by_ k .reg flag (bits (w64 w) 51 44) := by
    simp only [Garja.ctxCmdWrite, hword, hop, hctx, Chip.cmdTaken]
  have hrefused := Garja.ctxCommand_of_not_owner (g.onC (·.cmdTaken k.code x)) x by_ k flag (bits (w64 w) 51 44) hk hown' hby
  obtain ⟨hstatOp, hstatCtx⟩ := g.c.rd_cmdstat_taken k.code x hcode hx
  have hreported := Garja.ctxDone_reg ((g.onC (·.cmdTaken k.code x)).onC (·.lockCounted x)) x k ST.DENIED hstatOp hstatCtx
  rw [htaken, hrefused, hreported, Garja.onC_onC, Garja.onC_onC]
  simp only [Chip.ctxDenied]

/-- The row of GJ_CTX_CMD from a processor of the build that is not the owner (R204). -/
theorem Garja.ctxRow_of_not_owner (g : Garja) {k : CtxKind} {x w : Nat} {p : BitVec 3} (h : g.Calm) (hst : g.c.pw.st = .run)
    (hk : k ≠ .activate) (hw : k.AskedBy x w) (hx : x < 256) (hp : p.toNat < g.c.prm.nProc) (hown : p.toNat ≠ g.c.rd GJ.CTX_STATE_OWNER x) :
    g.ctxRow (.proc p) w = g.onC (fun c => (c.withPw g.c.awake).ctxDenied k.code x) := by
  have hp' : ¬ p.toNat ≥ g.c.prm.nProc := Nat.not_le.mpr hp
  have hwrite := (g.onC (·.withPw g.c.awake)).ctxCmdWrite_of_not_owner hk hw hx hown p.isLt
  simp only [Garja.ctxRow, g.portWake_of_running hst, Garja.onC_c, Chip.withPw_prm, if_neg hp', hwrite, Garja.onC_onC]
  exact Garja.settle_of_calm h (g.onC_seqs _)

/-- Settles O56: a requester that commands no context is answered DENIED at the target port, and the command of a processor that is not the
owner is refused in GJ_CTX_CMDSTAT, which no GJ_CTX_STATE_c shares. -/
theorem onlyOwnersCommandContexts : Obligations.OnlyOwnersCommandContexts := by
  intro s r ctx i ⟨hst, _⟩ hcalm hi
  rw [State.chip_garja] at hst
  obtain ⟨k, w, hk, hw, hexec⟩ := exec_ctxRow s hi
  refine ⟨fun hno => ?_, fun p hr hp hown => ?_⟩
  · have hrow := s.gj.ctxRow_of_not_commands r w hno hst
    have hnext := hexec.trans (congrArg _ (State.onSync_of_calm hcalm hrow rfl rfl))
    exact ⟨_, hnext, rfl, rfl, .withPw _ _ hst hst⟩
  · subst hr
    have hrow := s.gj.ctxRow_of_not_owner hcalm hst hk hw ctx.isLt hp hown
    have hnext := hexec.trans (congrArg _ (State.onSync_of_calm hcalm hrow (s.gj.onC_ctxs _) (s.gj.onC_seqs _)))
    exact ⟨_, hnext, by simp only [Garja.onC], Chip.rd_cmdDone_status _ _ (by decide), Chip.rd_cmdDone_done _ _,
      fun y hy => Chip.get_ctxDenied_ctxState _ _ _ _ hy⟩

end Sys2Proof.Machine
end

section
/-!
Decay of the scores (R364): what judging a die from its score (R365) may change, that it leaves the scores and whatever firmware waits
for, and the decay port by port.
-/
namespace Sys2Proof.Machine

/-! ### Registers that judging a die leaves -/

/-- d differs from c in the health registers from EZ_HLT_CNT on, and by reported events, alone; the records of the dies are the same ones. -/
structure Chip.Judged (c d : Chip .elzel) : Prop where
  gt : d.gt = c.gt
  regs : ∀ o, o < EZ.HLT_CNT → evtReg .elzel o = false → d.get o = c.get o
  valid : ∀ q, q < 64 → d.flag EZ.HLT_DIE_W0_VALID q = c.flag EZ.HLT_DIE_W0_VALID q

/-- The score of every die is kept as well. -/
structure Chip.KeepsScores (c d : Chip .elzel) : Prop extends c.Judged d where
  score : ∀ q, q < 64 → d.dieScore q = c.dieScore q

theorem evtReg_die (q : Nat) (h : q < 64) : evtReg .elzel (EZ.HLT_DIE_W0 + 0x20 * q) = false :=
  (by decide : ∀ q < 64, evtReg .elzel (EZ.HLT_DIE_W0 + 0x20 * q) = false) q h

/-- The reporting registers of Elzel stand from EZ_JRNL_CTL on. -/
theorem evtReg_of_lt_jrnl (o : Nat) (h : o < EZ.JRNL_CTL) : evtReg .elzel o = false := by
  have below : ∀ a, EZ.JRNL_CTL ≤ a → (o == a) = false ∧ decide (a ≤ o) = false := fun a ha =>
    ⟨beq_false_of_ne (by omega), decide_eq_false (by omega)⟩
  simp only [evtReg, below EZ.EVT_STATUS (by decide), below EZ.IRQ_PEND (by decide), below EZ.JRNL_CTL (by decide),
    below EZ.EVT_RING_CFG (by decide), below EZ.MSIX_PBA (by decide), below EZ.JRNL_REG_W1 (by decide), Bool.false_and, Bool.or_false]

namespace Chip.Judged

theorem refl (c : Chip .elzel) : c.Judged c := ⟨rfl, fun _ _ _ => rfl, fun _ _ => rfl⟩

theorem trans {a b c : Chip .elzel} (h : a.Judged b) (k : b.Judged c) : a.Judged c :=
  ⟨k.gt.trans h.gt, fun o l e => (k.regs o l e).trans (h.regs o l e), fun q l => (k.valid q l).trans (h.valid q l)⟩

/-- A write of a health register that leaves VALID of the dies alone. -/
theorem wr (c : Chip .elzel) (f : Fld) (v i : Nat) (hoff : EZ.HLT_CNT ≤ f.off + f.stride * i)
    (hvalid : ∀ q, q < 64 → (c.wr f v i).rd EZ.HLT_DIE_W0_VALID q = c.rd EZ.HLT_DIE_W0_VALID q) : c.Judged (c.wr f v i) :=
  ⟨rfl, fun o l _ => Chip.get_wr_ne _ _ _ _ _ (by omega), fun q l => by simp only [Chip.flag, hvalid q l]⟩

theorem rd_decayShift {c d : Chip .elzel} (h : c.Judged d) : d.rd EZ.HLT_CFG_DECAY_SHIFT = c.rd EZ.HLT_CFG_DECAY_SHIFT := by
  rw [Chip.rd, h.regs _ (by decide) (by decide), Chip.rd]

theorem noQueued {c d : Chip .elzel} (h : c.Judged d) (hc : c.NoQueued) : d.NoQueued := by
  intro q hq
  have queue : ∀ f : Fld, f.off + f.stride * q < EZ.JRNL_CTL → d.rd f q = c.rd f q := fun f hf => by
    rw [Chip.rd, h.regs _ (Nat.lt_trans hf (by decide)) (evtReg_of_lt_jrnl _ hf), Chip.rd]
  have hq' : q < 1024 := hq
  have head := queue EZ.QP_SQ_IDX_HEAD (by simp only [EZ.QP_SQ_IDX_HEAD, EZ.JRNL_CTL]; omega)
  have tail := queue EZ.QP_SQ_IDX_TAIL (by simp only [EZ.QP_SQ_IDX_TAIL, EZ.JRNL_CTL]; omega)
  exact head.trans ((hc q hq).trans tail.symm)

end Chip.Judged

namespace Chip.KeepsScores

theorem refl (c : Chip .elzel) : c.KeepsScores c := ⟨.refl c, fun _ _ => rfl⟩

theorem trans {a b c : Chip .elzel} (h : a.KeepsScores b) (k : b.KeepsScores c) : a.KeepsScores c :=
  ⟨h.toJudged.trans k.toJudged, fun q l => (k.score q l).trans (h.score q l)⟩

/-- Reported events leave every health register. -/
theorem of_reported {c d : Chip .elzel} (h : c.Reported d) : c.KeepsScores d := by
  obtain ⟨hbody, hregs, -⟩ := h
  have die : ∀ q, q < 64 → d.get (EZ.HLT_DIE_W0 + 0x20 * q) = c.get (EZ.HLT_DIE_W0 + 0x20 * q) := fun q l => hregs _ (evtReg_die q l)
  have hgt : d.body.gt = c.body.gt := congrArg Chip.gt hbody
  exact ⟨⟨hgt, fun o _ e => hregs o e, fun q l => congrArg (fun w => bits w 60 60 == 1) (die q l)⟩,
    fun q l => congrArg (fun w => bits w 15 0) (die q l)⟩

/-- A write of a health register that is of no die. -/
theorem wr (c : Chip .elzel) (f : Fld) (v i : Nat) (hoff : EZ.HLT_CNT ≤ f.off + f.stride * i)
    (hdie : ∀ q, q < 64 → EZ.HLT_DIE_W0 + 0x20 * q ≠ f.off + f.stride * i) : c.KeepsScores (c.wr f v i) := by
  have die : ∀ q, q < 64 → (c.wr f v i).get (EZ.HLT_DIE_W0 + 0x20 * q) = c.get (EZ.HLT_DIE_W0 + 0x20 * q) := fun q l =>
    Chip.get_wr_ne _ _ _ _ _ (hdie q l)
  exact ⟨.wr c f v i hoff (fun q l => congrArg (fun w => bits w 60 60) (die q l)), fun q l => congrArg (fun w => bits w 15 0) (die q l)⟩

/-- A counter of EZ_HLT_CNT advanced. -/
theorem inc (c : Chip .elzel) (f : Fld) (hoff : f.off + f.stride * 0 = EZ.HLT_CNT) : c.KeepsScores (c.inc f) := by
  refine .wr c f _ 0 (Nat.le_of_eq hoff.symm) (fun q _ => ?_)
  simp only [hoff, EZ.HLT_DIE_W0, EZ.HLT_CNT]
  omega

/-- STATE of a die set. -/
theorem wr_state (c : Chip .elzel) (v p : Nat) : c.KeepsScores (c.wr EZ.HLT_DIE_W0_STATE v p) := by
  have other : ∀ f : Fld, f.hi < EZ.HLT_DIE_W0_STATE.lo → ∀ q, (c.wr EZ.HLT_DIE_W0_STATE v p).rd f q = c.rd f q := fun f hf q =>
    Chip.rd_wr_ne _ _ _ _ _ _ (by decide) (by decide) (.inr (.inr hf))
  exact ⟨.wr c _ v p (Nat.le_add_right_of_le (by decide)) (fun q _ => other EZ.HLT_DIE_W0_VALID (by decide) q),
    fun q _ => other EZ.HLT_DIE_W0_SCORE (by decide) q⟩

end Chip.KeepsScores

/-! ### What Elzel does in judging a die -/

/-- What the manager holds, without the subjects that wait for a spare and the record of expulsions (R366, R368). -/
def Mgr.unjudged (m : Mgr) : Mgr := { m with hlt := { m.hlt with wanting := [], expels := [] } }

/-- f differs from e by what judging dies changes: health registers, reported events, subjects that wait, and expulsions. -/
structure Elzel.Judged (e f : Elzel) : Prop where
  chip : e.c.Judged f.c
  mgr : f.mgr.unjudged = e.mgr.unjudged

/-- The score of every die is kept as well. -/
structure Elzel.KeepsScores (e f : Elzel) : Prop where
  chip : e.c.KeepsScores f.c
  mgr : f.mgr.unjudged = e.mgr.unjudged

namespace Elzel.Judged

theorem refl (e : Elzel) : e.Judged e := ⟨.refl _, rfl⟩

theorem trans {e f g : Elzel} (h : e.Judged f) (k : f.Judged g) : e.Judged g := ⟨h.chip.trans k.chip, k.mgr.trans h.mgr⟩

/-- Judging dies gives firmware nothing more to do. -/
theorem calm {e f : Elzel} (h : e.Judged f) (hcalm : e.Calm) : f.Calm := by
  have now : f.c.gtInt = e.c.gtInt := by simp only [Chip.gtInt, h.chip.gt]
  have kept : ∀ {α : Type} (g : Mgr → α), (∀ m : Mgr, g m.unjudged = g m) → g f.mgr = g e.mgr := fun g hg => by rw [← hg, h.mgr, hg]
  obtain ⟨planq, late, coords, toHost, queues, ramps, plans, admits⟩ := hcalm
  refine ⟨(kept Mgr.planq fun _ => rfl).trans planq, (kept Mgr.late fun _ => rfl).trans late, (kept Mgr.coords fun _ => rfl).trans coords,
    (kept Mgr.toHost fun _ => rfl).trans toHost, h.chip.noQueued queues, ?_, ?_, ?_⟩
  · rwa [now, kept Mgr.ramps fun _ => rfl]
  · rwa [now, kept Mgr.plans fun _ => rfl]
  · rwa [now, kept (·.hlt.admits) fun _ => rfl]

end Elzel.Judged

namespace Elzel.KeepsScores

theorem refl (e : Elzel) : e.KeepsScores e := ⟨.refl _, rfl⟩

theorem trans {e f g : Elzel} (h : e.KeepsScores f) (k : f.KeepsScores g) : e.KeepsScores g := ⟨h.chip.trans k.chip, k.mgr.trans h.mgr⟩

theorem judged {e f : Elzel} (h : e.KeepsScores f) : e.Judged f := ⟨h.chip.toJudged, h.mgr⟩

theorem onC (e : Elzel) (f : Chip .elzel → Chip .elzel) (h : e.c.KeepsScores (f e.c)) : e.KeepsScores (e.onC f) := ⟨h, rfl⟩

/-- A change of state, with its event and its entry in the ledger (R365). -/
theorem setDie (e : Elzel) (p job step new : Nat) (digest : Word) : e.KeepsScores (e.setDie p job step new digest) := by
  unfold Elzel.setDie
  dsimp only
  split
  · exact .refl e
  · have ledger := Chip.Reported.jrnlAppend (e.c.wr EZ.HLT_DIE_W0_STATE new p) 0
    exact .onC e _ ((Chip.KeepsScores.wr_state e.c new p).trans (.of_reported ((ledger _ (by decide)).trans (.raise _ _ _ _ _))))

theorem want (e : Elzel) (chip port job score : Nat) : e.KeepsScores (e.want chip port job score) := ⟨.refl _, rfl⟩

theorem unwant (e : Elzel) (chip : Nat) : e.KeepsScores (e.unwant chip) := ⟨.refl _, rfl⟩

theorem refuseExpel (e : Elzel) : e.KeepsScores e.refuseExpel := .onC e _ (.inc _ _ (by decide))

/-- A spare reserved for a die that is expelled (R369). -/
theorem reserve (e : Elzel) (k : Nat) : e.KeepsScores (e.onC (·.wr EZ.HLT_SPARE_RESERVED 1 k)) := by
  refine .onC e _ (.wr _ _ _ _ (Nat.le_add_right_of_le (by decide)) (fun q hq => ?_))
  simp only [EZ.HLT_DIE_W0, EZ.HLT_SPARE_RESERVED]
  omega

/-- An expulsion reserves a spare, is counted, recorded and reported. -/
theorem expel (e : Elzel) (chip coord job cause : Nat) : e.KeepsScores (e.expel chip coord job cause) := by
  have counted : ∀ x : Elzel, x.KeepsScores (x.onC (fun c => (c.inc EZ.HLT_CNT_OPEN).inc EZ.HLT_CNT_EXPELLED)) := fun x =>
    .onC x _ ((Chip.KeepsScores.inc _ _ (by decide)).trans (.inc _ _ (by decide)))
  have recorded : ∀ (x : Elzel) (l : List (Nat × Nat)), x.KeepsScores (x.onHlt (fun h => { h with expels := l ++ h.expels })) := fun x _ =>
    ⟨.refl x.c, rfl⟩
  have raised : ∀ (x : Elzel) (items : Chip .elzel → List Item), x.KeepsScores (x.onC (fun c => c.raise EV.EXPEL none none (items c))) := fun x _ =>
    .onC x _ (.of_reported (.raise _ _ _ _ _))
  unfold Elzel.expel
  dsimp only
  split
  · exact ((reserve e _).trans (counted _)).trans ((recorded _ [_]).trans (raised _ _))
  · exact (counted e).trans ((recorded _ [_]).trans (raised _ _))

/-- The limiter lets a die above EXPEL be expelled, or holds it (R368). -/
theorem limit (e : Elzel) (p chip coord job step : Nat) (digest : Word) :
    e.KeepsScores (if e.allowed coord false then ((e.setDie p job step 5 digest).unwant chip).expel chip coord job 1
      else e.refuseExpel.setDie p job step 4 digest) := by
  split
  · exact ((setDie e _ _ _ _ _).trans (unwant _ _)).trans (expel _ _ _ _ _)
  · exact (refuseExpel e).trans (setDie _ _ _ _ _ _)

/-- A die judged from its score keeps the score (R365). -/
theorem restate (e : Elzel) (p job step : Nat) (digest : Word) : e.KeepsScores (e.restate p job step digest) := by
  have ask : ∀ (x : Elzel) (b : Bool) (chip score : Nat), x.KeepsScores (if b then x.want chip p job score else x) := fun x b _ _ => by
    cases b
    · exact .refl x
    · exact want x _ _ _ _
  unfold Elzel.restate
  dsimp only
  split
  case h_1 | h_2 =>
    split
    · split
      · exact ((setDie e _ _ _ _ _).trans (ask _ _ _ _)).trans (limit _ _ _ _ _ _ _)
      · exact (setDie e _ _ _ _ _).trans (ask _ _ _ _)
    · exact setDie e _ _ _ _ _
  case h_3 =>
    split
    · exact limit e _ _ _ _ _ _
    · split
      · exact ask e _ _ _
      · exact (unwant e _).trans (setDie _ _ _ _ _ _)
  case h_4 =>
    split
    · exact limit e _ _ _ _ _ _
    · exact .refl e
  case h_5 => exact .refl e

end Elzel.KeepsScores

/-! ### The decay -/

/-- The decay of the die on port p: its score, and its state from that score. -/
def Elzel.decayDie (e : Elzel) (p : Nat) : Elzel :=
  if e.c.flag EZ.HLT_DIE_W0_VALID p then
    (e.onC (·.wr EZ.HLT_DIE_W0_SCORE (e.c.dieScore p - e.c.dieScore p / 2 ^ e.c.rd EZ.HLT_CFG_DECAY_SHIFT) p)).restate p 0
      (e.c.rd EZ.HLT_DIE_W1_LAST_STEP p) 0
  else e

/-- R364's score after one decay; a record that is not VALID decays no more. -/
def Chip.decayedScore (c : Chip .elzel) (p : Nat) : Nat :=
  if c.flag EZ.HLT_DIE_W0_VALID p = true then c.dieScore p - c.dieScore p / 2 ^ c.rd EZ.HLT_CFG_DECAY_SHIFT else c.dieScore p

theorem Elzel.decay_eq_foldl (e : Elzel) : e.decay = (List.range 64).foldl Elzel.decayDie e := (rfl)

/-- The write of a SCORE, and what is read after it. -/
theorem Chip.Judged.wr_score (c : Chip .elzel) (v p : Nat) : c.Judged (c.wr EZ.HLT_DIE_W0_SCORE v p) :=
  .wr c _ v p (Nat.le_add_right_of_le (by decide)) (fun _ _ =>
    Chip.rd_wr_ne _ _ _ _ _ _ (by decide) (by decide) (.inr (.inl (by decide))))

theorem Chip.dieScore_wr_score (c : Chip .elzel) (v p q : Nat) (hv : v < 2 ^ 16) :
    (c.wr EZ.HLT_DIE_W0_SCORE v p).dieScore q = if q = p then v else c.dieScore q := by
  split
  case isTrue h => rw [h, Chip.dieScore, Chip.rd_wr_same _ _ _ _ (by decide) (by decide)]; exact Nat.mod_eq_of_lt hv
  case isFalse h =>
    refine Chip.rd_wr_ne _ _ _ _ _ _ (by decide) (by decide) (.inl ?_)
    simp only [EZ.HLT_DIE_W0_SCORE]
    omega

theorem Chip.dieScore_lt (c : Chip .elzel) (p : Nat) : c.dieScore p < 2 ^ 16 := c.rd_lt EZ.HLT_DIE_W0_SCORE p

/-- One die decays; the others keep their scores. -/
theorem Elzel.decayDie_scores (e : Elzel) (p : Nat) : e.Judged (e.decayDie p)
    ∧ ∀ q, q < 64 → (e.decayDie p).c.dieScore q = if q = p then e.c.decayedScore q else e.c.dieScore q := by
  unfold Elzel.decayDie
  split
  case isTrue hvalid =>
    generalize hv : e.c.dieScore p - e.c.dieScore p / 2 ^ e.c.rd EZ.HLT_CFG_DECAY_SHIFT = v
    have hlt : v < 2 ^ 16 := hv ▸ Nat.lt_of_le_of_lt (Nat.sub_le _ _) (e.c.dieScore_lt p)
    have written : e.Judged (e.onC (·.wr EZ.HLT_DIE_W0_SCORE v p)) := ⟨.wr_score e.c v p, rfl⟩
    have restated := Elzel.KeepsScores.restate (e.onC (·.wr EZ.HLT_DIE_W0_SCORE v p)) p 0 (e.c.rd EZ.HLT_DIE_W1_LAST_STEP p) 0
    refine ⟨written.trans restated.judged, fun q hq => ?_⟩
    rw [restated.chip.score q hq, Elzel.onC_c, Chip.dieScore_wr_score _ _ _ _ hlt]
    split
    case isTrue h => rw [h, Chip.decayedScore, if_pos hvalid, hv]
    case isFalse => rfl
  case isFalse hvalid =>
    refine ⟨.refl e, fun q _ => ?_⟩
    split
    case isTrue h => rw [h, Chip.decayedScore, if_neg hvalid]
    case isFalse => rfl

theorem Chip.Judged.decayedScore {c d : Chip .elzel} (h : c.Judged d) (q : Nat) (hq : q < 64) (hs : d.dieScore q = c.dieScore q) :
    d.decayedScore q = c.decayedScore q := by
  simp only [Chip.decayedScore, h.valid q hq, h.rd_decayShift, hs]

/-- After the first n ports, their dies have decayed and no other. -/
theorem Elzel.foldl_decayDie (e : Elzel) (n : Nat) : e.Judged ((List.range n).foldl Elzel.decayDie e)
    ∧ ∀ q, q < 64 → ((List.range n).foldl Elzel.decayDie e).c.dieScore q = if q < n then e.c.decayedScore q else e.c.dieScore q := by
  induction n with
  | zero => exact ⟨.refl e, fun _ _ => rfl⟩
  | succ n ih =>
    obtain ⟨before, scores⟩ := ih
    rw [List.range_succ, List.foldl_append, List.foldl_cons, List.foldl_nil]
    generalize (List.range n).foldl Elzel.decayDie e = f at before scores
    obtain ⟨last, lastScores⟩ := f.decayDie_scores n
    refine ⟨before.trans last, fun q hq => ?_⟩
    rw [lastScores q hq]
    rcases Nat.lt_trichotomy q n with h | h | h
    · rw [if_neg (by omega), scores q hq, if_pos h, if_pos (by omega)]
    · have same : f.c.dieScore q = e.c.dieScore q := by rw [scores q hq, if_neg (by omega)]
      rw [if_pos h, if_pos (by omega), before.chip.decayedScore q hq same]
    · rw [if_neg (by omega), scores q hq, if_neg (by omega), if_neg (by omega)]

theorem Elzel.dieScore_decay (e : Elzel) (p : Nat) (h : p < 64) : e.decay.c.dieScore p = e.c.decayedScore p := by
  obtain ⟨-, scores⟩ := e.foldl_decayDie 64
  rw [e.decay_eq_foldl, scores p h, if_pos h]

theorem Elzel.Judged.decay (e : Elzel) : e.Judged e.decay := by
  obtain ⟨judged, -⟩ := e.foldl_decayDie 64
  rwa [e.decay_eq_foldl]

/-- SCORE_DECAY lets the scores decay at a whole multiple of DECAY_INT seconds. -/
def Elzel.decayTick (e : Elzel) : Elzel :=
  let int := e.c.rd EZ.HLT_CFG_DECAY_INT
  if int != 0 && e.c.htSec % int == 0 then e.decay else e

theorem exec_scoreDecay (s : State) : exec .scoreDecay s = .next (s.onEzCmd Elzel.decayTick) := (rfl)

theorem Elzel.decayTick_of_due (e : Elzel) (hint : e.c.rd EZ.HLT_CFG_DECAY_INT ≠ 0) (hsec : e.c.htSec % e.c.rd EZ.HLT_CFG_DECAY_INT = 0) :
    e.decayTick = e.decay := by
  simp [Elzel.decayTick, hint, hsec]

theorem Elzel.decayTick_of_not_due (e : Elzel) (h : e.c.rd EZ.HLT_CFG_DECAY_INT = 0 ∨ e.c.htSec % e.c.rd EZ.HLT_CFG_DECAY_INT ≠ 0) :
    e.decayTick = e := by
  rcases h with h | h <;> simp [Elzel.decayTick, h]

/-- A SCORE_DECAY that leaves Elzel as f leaves nothing waiting there. -/
theorem YieldsEz.scoreDecay {s : State} {f : Elzel} (hclk : s.ez.c.clocked = true) (hf : s.ez.decayTick = f) (hcalm : f.Calm) :
    YieldsEz .scoreDecay s f :=
  .of_onEzCmd (exec_scoreDecay s) hclk (hf ▸ hcalm) (hf ▸ rfl) (fun _ => hf ▸ rfl) (hf ▸ rfl)

/-- Settles O45: the decay goes through the ports in order, and judging one die from its new score leaves every score, so each VALID record
decays once. -/
theorem scoresDecay : Obligations.ScoresDecay := by
  refine ⟨by decide, by decide, fun s hclk hcalm => ⟨fun hoff => ?_, fun hint hsec => ?_⟩⟩
  · exact .scoreDecay hclk (s.ez.decayTick_of_not_due hoff) hcalm
  · have hjudged := Elzel.Judged.decay s.ez
    obtain ⟨t, hexec, honly, -, hregs, -⟩ := YieldsEz.scoreDecay hclk (s.ez.decayTick_of_due hint hsec) (hjudged.calm hcalm)
    refine ⟨t, hexec, honly, fun p hp => ?_⟩
    have hne : EZ.HLT_DIE_W0 + 0x20 * p ≠ EZ.BOOT_STATUS := by simp only [EZ.HLT_DIE_W0, EZ.BOOT_STATUS]; omega
    exact (congrArg (bits · 15 0) (hregs _ hne (evtReg_die p hp))).trans (s.ez.dieScore_decay p hp)

end Sys2Proof.Machine
end
